-- ==== Sys2Proof/Word.lean ====
section
/-!
DEFINITION. The word types of the Orpilan 7260 and the ranges its records are numbered by.
-/
namespace Sys2Proof

/-- One byte on the control link, a seat link or an ingest link. -/
abbrev Byte := BitVec 8

/-- A station's 48-bit radio address (R19). -/
abbrev StationAddress := BitVec 48

/-- A match pass's 48-bit number (R85). -/
abbrev PassNumber := BitVec 48

/-- A set of playout channels 0–7: bit n stands for channel n (00_scope.md, Sets). -/
abbrev ChanSet := BitVec 8

/-- A set of levels 1–5: bit n stands for level n + 1 (R183, log 19). -/
abbrev LevelSet := BitVec 5

/-- A set of the seven notice classes: bit n stands for the class of code n + 1 (R191, log 19). -/
abbrev ClassSet := BitVec 7

/-- A set of seat zones 0–31: bit n stands for zone n (R120). -/
abbrev ZoneSet := BitVec 32

/-- A head number 0–95: link number times four plus position (00_scope.md, Head numbers). -/
abbrev HeadId := Fin 96

/-- A seat link number 0–23. -/
abbrev LinkId := Fin 24

/-- A seat zone number 0–31. -/
abbrev ZoneId := Fin 32

/-- A playout channel number 0–7. -/
abbrev Chan := Fin 8

/-- A pass tier 0–3: general, club, suite, staff. -/
abbrev Tier := Fin 4

/-- A replay program number 0–15; program 15 is the venue program. -/
abbrev Program := Fin 16

/-- A playout level: the value n stands for level n + 1, so 0–3 are levels 1–4 and 4 is the venue level 5. -/
abbrev Level := Fin 5

/-- A time of the part's clock, in microseconds (log 1). -/
abbrev Micros := Nat

end Sys2Proof
end

