-- ==== Sys2Proof/Vocabulary.lean ====
section
/-!
DEFINITION. The names the manual uses (states, modes, reasons, codes) and the frames and notices the part sends, as data.
-/
namespace Sys2Proof

/-! ## States, modes and reasons -/

/-- The two part states (R193). -/
inductive PartState where
  | config | run
deriving DecidableEq, Repr

/-- The six head states (section 1.3). -/
inductive HeadState where
  | absent | dark | starting | on | draining | fault
deriving DecidableEq, Repr

/-- Why a head entered FAULT (R6). -/
inductive FaultReason where
  | missed | startTimeout | restarted
deriving DecidableEq, Repr

/-- The states of a non-vacant station record (section 2.2). -/
inductive StationState where
  | assoc | seated | moving | lapsed
deriving DecidableEq, Repr

/-- The states of a non-vacant pass record (section 5.3). -/
inductive PassState where
  | issued | admitted | seated | out | void
deriving DecidableEq, Repr

/-- Why a pass became suspect (R95). -/
inductive SuspectCause where
  | passback | conflict
deriving DecidableEq, Repr

/-- The origin of a handover (R61). -/
inductive RoamOrigin where
  | report | drain | host
deriving DecidableEq, Repr

/-- How a reported handover ended (R82). -/
inductive RoamEnd where
  | moved | declined | timeout | aborted
deriving DecidableEq, Repr

/-- The direction of a gate scan (R90). -/
inductive ScanDirection where
  | into | outOf
deriving DecidableEq, Repr

/-- The two ingest ports (R136). -/
inductive Port where
  | a | b
deriving DecidableEq, Repr

/-- The four ingest modes (R139). -/
inductive IngestMode where
  | single | interleave | split | dual
deriving DecidableEq, Repr

/-- The states of a non-vacant clip record (R142). -/
inductive ClipState where
  | filling | ready | damaged
deriving DecidableEq, Repr

/-- Why a clip became DAMAGED, or why an unopened key's entries were discarded (R142, R154, R155). -/
inductive DamageCause where
  | gap | holdFull | holdTimeout | noSlot | closeConflict
deriving DecidableEq, Repr

/-- The read arbiter's mode (R165). -/
inductive ArbMode where
  | fixed | rotating
deriving DecidableEq, Repr

/-- The origin of a pending playout entry (R176). -/
inductive CueOrigin where
  | cue | host
deriving DecidableEq, Repr

/-- A clip's key: its program and its clip number (R136). -/
structure Key where
  program : Program
  clip    : BitVec 16
deriving DecidableEq, Repr

/-- The reply codes, which serve as answer codes on the seat links too (R192). -/
inductive Code where
  | ok | okOffzone | started | busy | state | range | unknown | full | locked | duplicate
  | passback | void | reentryLimit | notInside | bound | denied | airtime | badFrame
deriving DecidableEq, Repr

/-! ## Operands that name one of several things -/

/-- A station named by index or by address (R32). -/
inductive StationRef where
  | index (i : Nat)
  | address (a : StationAddress)
deriving DecidableEq, Repr

/-- A pass named by number or by index (R104). -/
inductive PassRef where
  | number (n : PassNumber)
  | index (i : Nat)
deriving DecidableEq, Repr

/-- A clip named by record index or by key (R158). The key's program is a number as carried. -/
inductive ClipRef where
  | index (i : Nat)
  | key (program : Nat) (clip : BitVec 16)
deriving DecidableEq, Repr

/-- The row a TIER-SET names, with that row's values (R50). -/
inductive TierRow where
  | tier (n reservation reentryLimit : Nat) (chans : ChanSet)
  | unbound (reservation : Nat)
deriving DecidableEq, Repr

/-- One entry of a PASS-LOAD (R89). -/
structure PassEntry where
  number   : PassNumber
  tier     : Nat
  seat     : Option (BitVec 16)
  declared : Option Nat
deriving DecidableEq, Repr

/-- A field of a PASS-AMEND: left unchanged, made absent, or given a new value (R99). -/
inductive Change (α : Type) where
  | keep
  | absent
  | give (v : α)
deriving DecidableEq, Repr

/-- The whole zone record a ZONE-SET carries, as carried (R107, R108). -/
structure ZoneSpec where
  first : BitVec 16
  last  : BitVec 16
  hole1 : Option (BitVec 16 × BitVec 16)
  hole2 : Option (BitVec 16 × BitVec 16)
  heads : List Nat
  chans : ChanSet
deriving DecidableEq, Repr

/-! ## Frames the part sends on the seat links -/

/-- What an OK or OK_OFFZONE answer to a BIND-REQ carries besides the code (R124). -/
structure BindDetail where
  index     : Nat
  tier      : Tier
  permitted : ChanSet
deriving DecidableEq, Repr

/-- A part-to-head frame, by kind, with its contents. -/
inductive LinkFrame where
  /-- SETUP: radio channel, power step, neighbour list (R13). -/
  | setup (radio step : Option Nat) (neighbours : List HeadId)
  /-- ACCEPT: station address and index (section 2.3). -/
  | accept (addr : StationAddress) (index : Nat)
  /-- DECLINE: station address and reason (section 2.3). -/
  | decline (addr : StationAddress) (reason : Code)
  /-- DISASSOC for a station (R26, R30): its station address alone (log 47). -/
  | disassoc (addr : StationAddress)
  /-- OFFER: station address and index (R69). -/
  | offer (addr : StationAddress) (index : Nat)
  /-- RELEASE: station address (R71). -/
  | release (addr : StationAddress)
  /-- CANCEL: station address and index (R74, R75). -/
  | cancel (addr : StationAddress) (index : Nat)
  /-- The answer to a JOIN-REQ: its code (R36), with the station address and the channel named (log 38). -/
  | joinAnswer (addr : StationAddress) (chan : Nat) (code : Code)
  /-- The answer to a LEAVE-REQ: its code (R37), with the station address and the channel named (log 38). -/
  | leaveAnswer (addr : StationAddress) (chan : Nat) (code : Code)
  /-- The answer to a BIND-REQ (R124). -/
  | bindAnswer (addr : StationAddress) (pass : PassNumber) (code : Code) (detail : Option BindDetail)
  /-- The answer to an UNBIND-REQ (R124). -/
  | unbindAnswer (addr : StationAddress) (pass : Option PassNumber) (code : Code)
  /-- SEGMENT: channel, key, segment index, planned rate, length and payload (R167). -/
  | segment (chan : Chan) (key : Key) (index rate length : Nat) (payload : List Byte)
  /-- FILLER: channel, segment index due, planned rate (R167). -/
  | filler (chan : Chan) (index rate : Nat)
deriving DecidableEq, Repr

/-! ## Notices -/

/-- The kinds of HEAD notice (R7). -/
inductive HeadEvent where
  | started
  | fault (reason : FaultReason)
  | drained
deriving DecidableEq, Repr

/-- What a CLIP notice names: a record index, or a key with no record (R142). -/
inductive ClipSubject where
  | index (i : Nat)
  | key (k : Key)
deriving DecidableEq, Repr

/-- The kinds of CLIP notice with what each carries (R142, R145, R147, R154, R155). -/
inductive ClipEvent where
  | ready (segments : Nat)
  | damaged (cause : DamageCause) (segments : Nat)
  | evicted (slots : Nat)
  | refused
  | discarded (cause : DamageCause)
deriving DecidableEq, Repr

/-- A notice with its subject and what it carries (R191). -/
inductive Notice where
  | head (head : HeadId) (event : HeadEvent) (state : HeadState)
  | roam (station : Nat) (kind : RoamEnd) (source target : HeadId) (origin : RoamOrigin)
  | suspect (index : Nat) (number : PassNumber) (cause : SuspectCause)
  | rezoneDone (zone : ZoneId) (changed trimmed : Nat)
  | clip (subject : ClipSubject) (event : ClipEvent)
  | preempt (chan : Chan) (level : Level) (clip : Nat) (suspended : Level) (cursor : Nat)
  | ended (chan : Chan) (level : Level) (clip : Nat) (running : Bool)
  | shed (head : HeadId) (chan : Chan) (cost : Nat)
  | restored (head : HeadId) (chan : Chan) (cost : Nat)
deriving DecidableEq, Repr

/-- The seven notice classes of R191. -/
inductive NoticeClass where
  | head | roam | pass | zone | clip | channel | airtime
deriving DecidableEq, Repr

/-- The kinds of notice named in R191's table. -/
inductive NoticeKind where
  | started | fault | drained | moved | declined | timeout | aborted | suspect | rezoneDone
  | ready | damaged | evicted | refused | discarded | preempt | ended | shed | restored
deriving DecidableEq, Repr

/-- What a notice's subject field names (R191). -/
inductive Subject where
  | head (h : HeadId)
  | station (i : Nat)
  | pass (i : Nat)
  | zone (z : ZoneId)
  | clip (i : Nat)
  | key (k : Key)
  | channel (c : Chan)
deriving DecidableEq, Repr

/-! ## Reply contents -/

/-- The contents of a HEAD-QUERY reply (R18). -/
structure HeadReport where
  head       : HeadId
  link       : Nat
  position   : Nat
  state      : HeadState
  radio      : Option Nat
  step       : Option Nat
  complete   : Bool
  seqPos     : Nat
  neighbours : List HeadId
  cap        : Nat
  floor      : Nat
  miss       : Nat
  members    : Nat
  holds      : Nat
  late       : Nat
  discards   : Nat
deriving DecidableEq, Repr

/-- The contents of a HEAD-STATS reply (R18): each counted channel with its planned rate and cost. -/
structure HeadFigures where
  committed : Nat
  venue     : Nat
  counted   : List (Chan × Nat × Nat)
  shed      : List Chan
  late      : Nat
deriving DecidableEq, Repr

/-- The fields of a non-vacant station record as STATION-QUERY reports them (R32). -/
structure StationReport where
  addr       : StationAddress
  state      : StationState
  current    : Option HeadId
  target     : Option HeadId
  rate       : Nat
  rssi       : Int
  candidates : List (HeadId × Int)
  res        : Nat
  capped     : Bool
  pass       : Option Nat
  chans      : ChanSet
  dwellMs    : Nat
  lapseMs    : Option Nat
  handovers  : Nat
  refused    : Nat
deriving DecidableEq, Repr

/-- The fields of a held pass as PASS-QUERY reports them (R104). -/
structure PassReport where
  number     : PassNumber
  tier       : Tier
  seat       : Option (BitVec 16)
  declared   : Option ZoneId
  cached     : Option ZoneId
  state      : PassState
  reentries  : Nat
  passbacks  : Nat
  conflicts  : Nat
  suspect    : Bool
  station    : Option Nat
  lastGate   : Option Nat
  standing   : Option StationState
deriving DecidableEq, Repr

/-- The fields of a valid zone record (R107). -/
structure ZoneRecord where
  first : Nat
  last  : Nat
  hole1 : Option (Nat × Nat)
  hole2 : Option (Nat × Nat)
  heads : List HeadId
  chans : ChanSet
deriving DecidableEq, Repr

/-- The contents of a ZONE-QUERY reply (R110); no record means the zone is invalid. -/
structure ZoneReport where
  zone     : ZoneId
  fields   : Option ZoneRecord
  admitted : Nat
  seated   : Nat
  latched  : Bool
  stale    : Bool
  running  : Bool
  subject  : Option ZoneId
  cursor   : Nat
  changed  : Nat
  trimmed  : Nat
deriving DecidableEq, Repr

/-- The nine counts of an ingest port (R138). -/
structure PortCounts where
  good      : Nat := 0
  tolerated : Nat := 0
  failures  : Nat := 0
  idle      : Nat := 0
  ignored   : Nat := 0
  duplicate : Nat := 0
  foreign   : Nat := 0
  unplaced  : Nat := 0
  released  : Nat := 0
deriving DecidableEq, Repr

/-- The contents of an INGEST-MODE reply (R140). -/
structure IngestReport where
  mode    : IngestMode
  strict  : Bool
  countsA : PortCounts
  countsB : PortCounts
  heldA   : Nat
  heldB   : Nat
  refused : List (Option (BitVec 16))
deriving DecidableEq, Repr

/-- One in-service entry as CHANNEL-STATUS reports it, with the current level marked (R171). -/
structure EntryReport where
  level   : Level
  clip    : Nat
  base    : Nat
  count   : Option Nat
  loop    : Bool
  cursor  : Nat
  current : Bool
deriving DecidableEq, Repr

/-- The contents of a CHANNEL-STATUS reply (R171). -/
structure ChannelReport where
  running   : Bool
  enabled   : Bool
  pace      : Nat
  rated     : Nat
  mode      : ArbMode
  inService : List EntryReport
  pending   : List (Level × Nat × CueOrigin)
  /-- The outstanding read: clip, segment index, and whether it is on the port. -/
  read      : Option (Nat × Nat × Bool)
  endFlags  : LevelSet
  underruns : Nat
  late      : Nat
deriving DecidableEq, Repr

/-- The fields of a held clip as CLIP-QUERY reports them (R158). -/
structure ClipReport where
  key      : Key
  owner    : Port
  state    : ClipState
  expected : Nat
  last     : Option Nat
  handoff  : Bool
  pinned   : Bool
  useCount : Nat
  age      : Nat
  heldA    : Nat
  heldB    : Nat
  timeMs   : Option Nat
deriving DecidableEq, Repr

/-- What follows the reply code in a reply, by request (R192 and each request's own rule). -/
inductive Content where
  /-- A reply that carries its code alone. -/
  | none
  /-- The type received, in a reply to an unknown type (R192). -/
  | typeReceived (type : Byte)
  /-- HELLO: vendor code, part number, silicon revision, part state (R193). -/
  | hello (vendor part revision : Nat) (state : PartState)
  /-- NOTICE-ENABLE: the enables as they now stand (R191). -/
  | classes (enables : ClassSet)
  | head (report : HeadReport)
  | figures (figures : HeadFigures)
  /-- STATION-QUERY: the index and the record, or vacant (R32). -/
  | station (index : Nat) (report : Option StationReport)
  /-- PASS-LOAD: each entry's result and, for OK, its index (R89). -/
  | loaded (results : List (Code × Option Nat))
  /-- PASS-QUERY: the index and the record, or vacant (R104). -/
  | pass (index : Nat) (report : Option PassReport)
  /-- GATE-SCAN of a known pass (R90); the result is the reply code. -/
  | scan (index : Nat) (tier : Tier) (state : PassState) (reentries : Nat) (suspect : Bool)
  | zone (report : ZoneReport)
  /-- CENSUS-LATCH: zones newly latched and zones already held (R120). -/
  | latched (newly already : ZoneSet)
  /-- CENSUS-READ: counts, stale, whether from a latch, whether a re-zone pass runs (R122). -/
  | census (admitted seated : Nat) (stale latched running : Bool)
  | ingest (report : IngestReport)
  /-- PROGRAM-SET: the row as it now stands (R174). -/
  | program (level : Level) (auto : ChanSet) (loop : Bool)
  /-- CHANNEL-SETUP: the channel's setup and the arbiter mode in force (R161). -/
  | channelSetup (pace rated : Nat) (mode : ArbMode)
  /-- CHANNEL-ENABLE: the enables and each channel's superseded count (R175). -/
  | enables (chans : ChanSet) (superseded : List Nat)
  /-- PLAY: level used, started or pending, whether it superseded, the superseded count (R182). -/
  | play (level : Level) (started superseded : Bool) (count : Nat)
  /-- STOP: entries removed and the channel's state (R183). -/
  | stop (removed : Nat) (running : Bool)
  | channel (report : ChannelReport)
  /-- CLIP-QUERY: the index and the record, or vacant, with free slots and vacant records (R158). -/
  | clip (index : Option Nat) (report : Option ClipReport) (freeSlots vacant : Nat)
  /-- CLIP-PIN: the clip's state (R156). -/
  | clipState (state : ClipState)
  /-- CLIP-RETIRE: the number of slots freed (R157). -/
  | retired (slots : Nat)
deriving DecidableEq, Repr

end Sys2Proof
end

