-- ==== Sys2Proof/Syntax.lean ====
section
/-!
DEFINITION. The commands of the Orpilan 7260: one constructor per row of spec/opcode_table.json, in the table's order.
-/
namespace Sys2Proof

/-- What every request frame carries besides its own fields: its tag (R189), and whether its body's length and form fit
its type. The manual gives no layout for request bodies, so a command carries its request's fields as read from the
body, and `fits` says that they could be read (R189, Wrong body; log 4). -/
structure Req where
  tag  : Byte
  fits : Bool := true
deriving DecidableEq, Repr

/-- The commands. Seat-link frames name the head they came from; timer expiries name the record the timer belongs to;
requests carry their frame's tag and fields. -/
inductive Instr where
  /-- Power-on (R3 and each block's power-on values). -/
  | powerOn
  /-- ANNOUNCE from a head (R4). -/
  | announce (h : HeadId)
  /-- HEARTBEAT from a head (R5). -/
  | heartbeat (h : HeadId)
  /-- Expiry of a head's 250 ms supervision timer (R5). -/
  | supervisionTimerExpiry (h : HeadId)
  /-- SETUP-DONE from a head (R14). -/
  | setupDone (h : HeadId)
  /-- Expiry of a head's 500 ms start timer (R14). -/
  | startTimerExpiry (h : HeadId)
  /-- A seat-link frame that fails R1's checks. -/
  | seatLinkFrameDiscarded (link : LinkId)
  /-- ASSOC-REQ: station address and RSSI (R23). -/
  | assocReq (h : HeadId) (addr : StationAddress) (rssi : Int)
  /-- DISASSOC from a head (R27). -/
  | disassoc (h : HeadId) (addr : StationAddress)
  /-- LOST from a head (R28). -/
  | lost (h : HeadId) (addr : StationAddress)
  /-- STATION-REPORT: RSSI and candidates as head number and RSSI (R33, R34). -/
  | stationReport (h : HeadId) (addr : StationAddress) (rssi : Int) (cands : List (Nat × Int))
  /-- JOIN-REQ: station and channel number as carried (R36). -/
  | joinReq (h : HeadId) (addr : StationAddress) (chan : Nat)
  /-- LEAVE-REQ: station and channel number as carried (R37). -/
  | leaveReq (h : HeadId) (addr : StationAddress) (chan : Nat)
  /-- BIND-REQ: station and the pass number presented (R124). -/
  | bindReq (h : HeadId) (addr : StationAddress) (pass : PassNumber)
  /-- UNBIND-REQ (R133). -/
  | unbindReq (h : HeadId) (addr : StationAddress)
  /-- READY: station address and index (R70). -/
  | ready (h : HeadId) (addr : StationAddress) (index : Nat)
  /-- DECLINE: station address and index (R73). -/
  | decline (h : HeadId) (addr : StationAddress) (index : Nat)
  /-- Expiry of a station's lapse timer (R29). -/
  | lapseTimerExpiry (index : Nat)
  /-- Expiry of a hold's 50 ms handover timer; the hold is named by its station (R74). -/
  | handoverTimerExpiry (index : Nat)
  /-- Expiry of a head's 100 ms window timer (R53). -/
  | windowTimerExpiry (h : HeadId)
  /-- A segment frame at an ingest port, as the bytes the link delimits (R136, R195). -/
  | segmentFrame (port : Port) (bytes : List Byte)
  /-- Expiry of a key's 2 s hold timer (R155). -/
  | holdTimerExpiry (key : Key)
  /-- An expiry of a channel's pace timer (R163). -/
  | paceTimerExpiry (c : Chan)
  /-- Completion of the read on the clip-memory port (R166). -/
  | readCompletion
  /-- One visit of the running re-zone pass (R114). -/
  | rezoneVisit
  /-- The host asserts select (R186). -/
  | transactionBegin
  /-- The host deasserts select; the bytes it clocked in, the ignored first byte included (R186). -/
  | transactionEnd (bytes : List Byte)
  /-- A bad frame is taken from the inbound queue (R188). -/
  | badFrame
  /-- A good frame of unknown type is taken from the inbound queue (R189). -/
  | unknownRequestType
  | hello (f : Req)
  | start (f : Req)
  | restart (f : Req)
  | noticeEnable (f : Req) (andMask orMask : ClassSet)
  | tierSet (f : Req) (row : TierRow)
  | roamSet (f : Req) (hysteresis dwell lapse : Nat) (pub : ChanSet)
  | headSetupPart1 (f : Req) (head radio step : Nat)
  | headSetupPart2 (f : Req) (head cap floor : Nat)
  | headSetupPart3 (f : Req) (head : Nat) (neighbours : List Nat)
  /-- HEAD-CONTROL START; `known` is false when the action carried is none of the three (R12, log 4). -/
  | headControlStart (f : Req) (head : Nat) (known : Bool)
  /-- HEAD-CONTROL DRAIN; `known` as for START. -/
  | headControlDrain (f : Req) (head : Nat) (known : Bool)
  /-- HEAD-CONTROL STOP; `known` as for START. -/
  | headControlStop (f : Req) (head : Nat) (known : Bool)
  | headLimits (f : Req) (head cap floor : Nat)
  | headQuery (f : Req) (head : Nat)
  | headStats (f : Req) (head : Nat)
  | stationQuery (f : Req) (station : StationRef)
  | stationMove (f : Req) (index target : Nat)
  | stationEvict (f : Req) (index : Nat)
  | passLoad (f : Req) (entries : List PassEntry)
  | passAmend (f : Req) (number : PassNumber) (tier : Option Nat) (seat : Change (BitVec 16)) (declared : Change Nat)
  | passVoid (f : Req) (number : PassNumber)
  | passDrop (f : Req) (number : PassNumber)
  | passQuery (f : Req) (pass : PassRef)
  /-- GATE-SCAN; no direction stands for one other than IN or OUT (R90). -/
  | gateScan (f : Req) (number : PassNumber) (gate : Nat) (dir : Option ScanDirection)
  /-- ZONE-SET; no record stands for the word clear (R108). -/
  | zoneSet (f : Req) (zone : Nat) (spec : Option ZoneSpec)
  | zoneQuery (f : Req) (zone : Nat)
  | censusLatch (f : Req) (zones : ZoneSet)
  | censusRead (f : Req) (zone : Nat)
  /-- INGEST-MODE; no mode stands for one outside the four (R140). -/
  | ingestMode (f : Req) (mode : Option IngestMode) (strict : Bool)
  /-- PROGRAM-SET; the level is the number carried (R174). -/
  | programSet (f : Req) (program level : Nat) (auto : ChanSet) (loop : Bool)
  /-- CHANNEL-SETUP; no mode stands for one neither FIXED nor ROTATING (R161). -/
  | channelSetup (f : Req) (chan pace rated : Nat) (mode : Option ArbMode)
  | channelEnable (f : Req) (andMask orMask : ChanSet)
  /-- PLAY; the level is the number carried, if one is given (R182). -/
  | play (f : Req) (chan clip : Nat) (level : Option Nat) (base : Nat) (count : Option Nat) (loop : Bool)
  | stop (f : Req) (chan : Nat) (levels : LevelSet)
  | channelStatus (f : Req) (chan : Nat)
  | clipQuery (f : Req) (clip : ClipRef)
  | clipPin (f : Req) (clip : Nat) (pin : Bool)
  | clipRetire (f : Req) (clip : Nat)
deriving DecidableEq, Repr

end Sys2Proof
end

