-- ==== Sys2Proof/Config.lean ====
section
/-!
DEFINITION. The values the manual leaves open: byte layouts and codes it does not give (log 6) and one count it does not
state (log 7). Each is a constant with no body, so nothing can be proved that leans on a value.
-/
namespace Sys2Proof

/-- The bytes of a reply's contents, after the reply code. The manual lists the contents and gives no layout (log 6). -/
opaque Config.contentBytes : Content → List Byte

/-- The byte of a notice's kind within its class. R191 names the kinds and gives no codes (log 6). -/
opaque Config.kindCode : NoticeKind → Byte

/-- The bytes of a notice's subject. R191 names the subject and gives no width (log 6). -/
opaque Config.subjectBytes : Subject → List Byte

/-- The value of a head state in a HEAD notice (log 6). -/
opaque Config.headStateValue : HeadState → BitVec 16

/-- The value of a fault reason in a HEAD notice (log 6). -/
opaque Config.faultReasonValue : FaultReason → BitVec 16

/-- The value of a handover's origin in a ROAM notice (log 6). -/
opaque Config.roamOriginValue : RoamOrigin → BitVec 16

/-- The value of a cause in a PASS notice (log 6). -/
opaque Config.suspectCauseValue : SuspectCause → BitVec 16

/-- The value of a cause in a CLIP notice (log 6). -/
opaque Config.damageCauseValue : DamageCause → BitVec 16

/-- The value of a channel's state, RUN or IDLE, in a CHANNEL notice (log 6). -/
opaque Config.channelStateValue : Bool → BitVec 16

/-- How many bytes of an outbound frame had been shifted out when a RESTART ended it: R194 says only that the rest are
0x00. Applied to the state's counter of free values (log 7). -/
opaque Config.bytesBeforeRestart : Nat → Nat

end Sys2Proof
end

