-- ==== Sys2Proof/Machine/Checks.lean ====
section
/-!
DEFINITION. The three checks of R195 (CRC-8, CRC-16, CRC-32), and fields of two bytes, high byte first.
-/
namespace Sys2Proof.Machine

/-- One shift of a CRC register whose high bit leaves first. -/
def crcShift {n : Nat} (poly r : BitVec n) : BitVec n :=
  if r.msb then (r <<< 1) ^^^ poly else r <<< 1

/-- One shift of a CRC register whose low bit leaves first. -/
def crcShiftLow {n : Nat} (poly r : BitVec n) : BitVec n :=
  if r.getLsbD 0 then (r >>> 1) ^^^ poly else r >>> 1

/-- A function applied `k` times. -/
def times {α : Type} (f : α → α) : Nat → α → α
  | 0, x => x
  | k + 1, x => times f k (f x)

/-- CRC-8: polynomial 0x07, initial 0x00, no reflection, no final inversion (R195). -/
def crc8 (bytes : List Byte) : BitVec 8 :=
  bytes.foldl (fun (r : BitVec 8) (b : Byte) => times (crcShift 0x07#8) 8 (r ^^^ b)) 0x00#8

/-- CRC-16: polynomial 0x1021, initial 0xFFFF, no reflection, no final inversion (R195). -/
def crc16 (bytes : List Byte) : BitVec 16 :=
  bytes.foldl (fun (r : BitVec 16) (b : Byte) => times (crcShift 0x1021#16) 8 (r ^^^ (b.setWidth 16 <<< (8 : Nat)))) 0xFFFF#16

/-- CRC-32: polynomial 0x04C11DB7, initial 0xFFFFFFFF, reflected in and out, final inversion (R195); 0xEDB88320 is the
polynomial with its bits in reverse order. -/
def crc32 (bytes : List Byte) : BitVec 32 :=
  ~~~ (bytes.foldl (fun (r : BitVec 32) (b : Byte) => times (crcShiftLow 0xEDB88320#32) 8 (r ^^^ (b.setWidth 32))) 0xFFFFFFFF#32)

/-- A two-byte field, high byte first (R195). -/
def word16 (hi lo : Byte) : BitVec 16 := hi ++ lo

/-- The bytes of a two-byte field, high byte first (R195). -/
def bytes16 (w : BitVec 16) : List Byte := [w.extractLsb' 8 8, w.extractLsb' 0 8]

/-- The bytes of a four-byte field, high byte first (R195). -/
def bytes32 (w : BitVec 32) : List Byte :=
  [w.extractLsb' 24 8, w.extractLsb' 16 8, w.extractLsb' 8 8, w.extractLsb' 0 8]

/-- How many bits of a word are set. -/
def popCount {n : Nat} (w : BitVec n) : Nat := (List.range n).countP w.getLsbD

end Sys2Proof.Machine
end

