-- ==== Sys2Proof/Machine/Rates.lean ====
section
/-!
DEFINITION. The rate arithmetic of the Airtime Unit: RSSI to rate class, rate class to frame airtime (R39, R40), and the
saturating count.
-/
namespace Sys2Proof.Machine

/-- A count that rises by 1 and stops at its largest value (00_scope.md, Counters). -/
def countUp (largest n : Nat) : Nat := if n < largest then n + 1 else largest

/-- A 16-bit saturating count, 0–65,535, raised by 1. -/
def count16 (n : Nat) : Nat := countUp 65535 n

/-- An RSSI clamped to −100…−20 dBm (R39). -/
def clampRssi (r : Int) : Int := max (-100) (min (-20) r)

/-- The rate class of an RSSI: floor((RSSI + 90) / 6) of the clamped value, clamped to 0–7 (R39). Division of Int by a
positive number rounds toward minus infinity. -/
def rateClass (r : Int) : Nat := (max 0 (min 7 ((clampRssi r + 90) / 6))).toNat

/-- The over-the-air rate of a rate class, in bits per microsecond (R40). -/
def airRate (k : Nat) : Nat := [6, 9, 12, 18, 24, 36, 48, 54].getD k 54

/-- The airtime of one frame of `bytes` payload bytes at class `k`: 44 + ceil(8 × L / rate) µs (R40). -/
def frameAirtime (bytes k : Nat) : Nat := 44 + (8 * bytes + airRate k - 1) / airRate k

end Sys2Proof.Machine
end

