-- ==== Sys2Proof/Machine/State.lean ====
section
/-!
DEFINITION. The state of the Orpilan 7260: every record of every block (00_scope.md, Block Overview), the queue of waiting
commands, and the state right after power-on.
-/
namespace Sys2Proof.Machine

/-- A sparse table of records by index: indices strictly rising, an index not listed is a vacant record. -/
abbrev Table (α : Type) := List (Nat × α)

/-! ## Seat Link Controller and Airtime Unit -/

/-- One accounting entry of a head's account (R43). The shed flag is the `shed` form: an entry holds its planned rate
and cost exactly when it is COUNTED or SHED. -/
inductive Entry where
  | notCounted
  | counted (rate cost : Nat)
  | shed (rate cost : Nat)
deriving DecidableEq, Repr

/-- An open head account (R44). The window timer runs for as long as the account is open. -/
structure Account where
  entries   : Vector Entry 8
  committed : Nat
  venue     : Nat
  /-- When the 100 ms window timer expires. -/
  window    : Micros
deriving DecidableEq, Repr

/-- A head record (R3), with the cap, floor and account the Airtime Unit keeps for the head (R44). A timer is the time
of its expiry, or none when it is stopped. -/
structure Head where
  state       : HeadState
  radio       : Option Nat
  step        : Option Nat
  complete    : Bool
  seqPos      : Nat
  neighbours  : List HeadId
  miss        : Nat
  supervision : Option Micros
  startTimer  : Option Micros
  late        : Nat
  cap         : Nat
  floor       : Nat
  account     : Option Account
deriving DecidableEq, Repr

/-- A tier row (R49). -/
structure TierValues where
  reservation  : Nat
  reentryLimit : Nat
  chans        : ChanSet
deriving DecidableEq, Repr

/-! ## Station Table and Roam Engine -/

/-- A non-vacant station record (R19). `dwell` is a time in milliseconds; `lapse` is the lapse timer's expiry. -/
structure Station where
  addr       : StationAddress
  state      : StationState
  current    : Option HeadId
  target     : Option HeadId
  rate       : Nat
  rssi       : Int
  candidates : List (HeadId × Int)
  res        : Nat
  capped     : Bool
  pass       : Option Nat
  chans      : ChanSet
  dwell      : Nat
  lapse      : Option Micros
  handovers  : Nat
  refused    : Nat
deriving DecidableEq, Repr

/-- A hold (R61). `due` is the expiry of its handover timer, which runs while the hold stands. -/
structure Hold where
  station : Nat
  source  : HeadId
  target  : HeadId
  res     : Nat
  chans   : ChanSet
  rssi    : Int
  rate    : Nat
  origin  : RoamOrigin
  due     : Micros
deriving DecidableEq, Repr

/-- The roam settings (R60): hysteresis in dB, dwell in ms, lapse time in s, public channel set. -/
structure RoamSettings where
  hysteresis : Nat
  dwell      : Nat
  lapse      : Nat
  pub        : ChanSet
deriving DecidableEq, Repr

/-! ## Pass Table, Zone Map and Census -/

/-- A non-vacant pass record (R85). -/
structure Pass where
  number    : PassNumber
  tier      : Tier
  seat      : Option (BitVec 16)
  declared  : Option ZoneId
  cached    : Option ZoneId
  state     : PassState
  reentries : Nat
  passbacks : Nat
  conflicts : Nat
  suspect   : Bool
  station   : Option Nat
  lastGate  : Option Nat
deriving DecidableEq, Repr

/-- A held latch's snapshot (R120). -/
structure Latch where
  admitted : Nat
  seated   : Nat
  stale    : Bool
deriving DecidableEq, Repr

/-- A zone: its record if valid (R107), its census counts (R118) and its latch if held (R120). -/
structure Zone where
  fields   : Option ZoneRecord
  admitted : Nat
  seated   : Nat
  latch    : Option Latch
deriving DecidableEq, Repr

/-- The re-zone pass (R113). -/
structure Rezone where
  running : Bool
  cursor  : Nat
  subject : Option ZoneId
  changed : Nat
  trimmed : Nat
deriving DecidableEq, Repr

/-! ## Ingest Unit and Clip Store -/

/-- An entry of a hold queue (R154). -/
structure HeldSegment where
  key   : Key
  index : Nat
  slot  : Nat
deriving DecidableEq, Repr

/-- An ingest port: its counts (R138) and its hold queue in arrival order (R154). -/
structure IngestPort where
  counts : PortCounts
  queue  : List HeldSegment
deriving DecidableEq, Repr

/-- A non-vacant clip record (R141). The expected index is the length of the segment list. -/
structure Clip where
  key      : Key
  owner    : Port
  state    : ClipState
  segments : List Nat
  last     : Option Nat
  handoff  : Bool
  pinned   : Bool
  useCount : Nat
deriving DecidableEq, Repr

/-! ## Playout Unit and Cue Controller -/

/-- An in-service entry (R176) with its cursor (R159). -/
structure InService where
  clip   : Nat
  base   : Nat
  count  : Option Nat
  loop   : Bool
  cursor : Nat
deriving DecidableEq, Repr

/-- A pending entry (R176). -/
structure Pending where
  clip   : Nat
  base   : Nat
  count  : Option Nat
  loop   : Bool
  origin : CueOrigin
deriving DecidableEq, Repr

/-- A running pace timer: when it was started and which of its expiries is the next, 1 for the first (R162). -/
structure PaceTimer where
  started : Micros
  next    : Nat
deriving DecidableEq, Repr

/-- A channel's outstanding read (R164). `valid` says that the requesting entry, in service at `level`, has been the
channel's current entry at every event since the request (R166). -/
structure Read where
  clip  : Nat
  index : Nat
  level : Level
  valid : Bool
deriving DecidableEq, Repr

/-- A playout channel: the Playout Unit's record (R159) and the Cue Controller's enable, entries and superseded count
(R175, R176). In-service and pending entries stand at their level. -/
structure Channel where
  pace       : Nat
  rated      : Nat
  timer      : Option PaceTimer
  read       : Option Read
  endFlags   : LevelSet
  underruns  : Nat
  late       : Nat
  enabled    : Bool
  inService  : Vector (Option InService) 5
  pending    : Vector (Option Pending) 5
  superseded : Nat
deriving DecidableEq, Repr

/-- The clip-memory read port: free, making a channel's read, or finishing a read that a RESTART withdrew (R165, R172,
log 8). -/
inductive ReadPort where
  | free
  | busy (c : Chan)
  | withdrawn
deriving DecidableEq, Repr

/-- A row of the program table (R173). -/
structure ProgramRow where
  level : Level
  auto  : ChanSet
  loop  : Bool
deriving DecidableEq, Repr

/-! ## Control Link Port -/

/-- A stored inbound frame, marked good or bad (R188). A bad frame keeps its tag as received. -/
structure InFrame where
  type : Byte
  tag  : Byte
  body : List Byte
  good : Bool
deriving DecidableEq, Repr

/-- A frame of the outbound queue: a reply (R192) or a notice (R191). -/
inductive OutFrame where
  | reply (type tag : Byte) (code : Code) (content : Content)
  | notice (n : Notice)
deriving DecidableEq, Repr

/-- The transaction in progress: what is fixed as it begins (R186, R187), and whether a RESTART ended its outbound
frame (R194). -/
structure Transaction where
  status : Byte
  frame  : Option OutFrame
  lost   : Bool
  cut    : Bool
deriving DecidableEq, Repr

/-! ## The whole part -/

/-- The state of the part. The fields `pending`, `now`, `free`, `held`, `linkOut` and `spiOut` are the model's own
(logs 1, 7, 22, 23); every other field is a record the manual names. -/
structure State where
  /-- The commands that wait, first in, first out. -/
  pending     : List Instr
  /-- The part's clock (log 1). -/
  now         : Micros
  /-- The number of free values drawn so far (log 7). -/
  free        : Nat
  /-- The notices the command in progress has produced (R189, log 23); empty between commands. -/
  held        : List Notice
  /-- Every frame sent on the seat links since power-on, oldest first (log 22). -/
  linkOut     : List (HeadId × LinkFrame)
  /-- The bytes the part shifted out in the last transaction that ended (log 22). -/
  spiOut      : List Byte
  part        : PartState
  heads       : Vector Head 96
  discards    : Vector Nat 24
  tiers       : Vector TierValues 4
  unbound     : Nat
  stations    : Table Station
  roam        : RoamSettings
  /-- Every hold, in the order placed; a head's hold list is the holds whose target it is (R61). -/
  holds       : List Hold
  passes      : Table Pass
  zones       : Vector Zone 32
  rezone      : Rezone
  mode        : IngestMode
  strict      : Bool
  portA       : IngestPort
  portB       : IngestPort
  /-- The running hold timers: key and expiry (R155). -/
  holdTimers  : List (Key × Micros)
  /-- The refused-key mark of each program (R147). -/
  marks       : Vector (Option (BitVec 16)) 16
  clips       : Table Clip
  /-- The age order of the clips present, oldest first (R141). -/
  ages        : List Nat
  /-- The slots in use, each with its payload's length; a slot not listed is free (R144). -/
  slots       : Table Nat
  /-- The stacked DRAM: slot n is the bytes at 2,048n to 2,048n + 2,047 (R144). -/
  dram        : List Host.Cell
  channels    : Vector Channel 8
  arbMode     : ArbMode
  pointer     : Chan
  port        : ReadPort
  programs    : Vector ProgramRow 16
  inbound     : List InFrame
  outbound    : List OutFrame
  enables     : ClassSet
  lost        : Bool
  rejected    : Bool
  transaction : Option Transaction
deriving DecidableEq, Repr

/-- Why a command would stop the part. The manual gives every command of this block an effect, and calls none of them
undefined, so no constructor stands here: no command of the model ends in a fault. -/
inductive Fault where
deriving DecidableEq, Repr

/-- Why the model would give a command no meaning. -/
inductive Refusal where
  /-- Raised by `exec`'s arm of a row that has no meaning yet; safe, since a refused command proves nothing. No arm
  raises it. -/
  | notModelled (mnemonic : String)
deriving DecidableEq, Repr

/-! ## Power-on -/

/-- The power-on neighbour list of head h: the other heads of its link, in position order (R3). -/
def powerOnNeighbours (h : HeadId) : List HeadId :=
  (List.finRange 96).filter fun k => k.val / 4 == h.val / 4 && k != h

/-- A head record after power-on (R3, R44). -/
def powerOnHead (h : HeadId) : Head where
  state := .absent
  radio := none
  step := none
  complete := false
  seqPos := 0
  neighbours := powerOnNeighbours h
  miss := 0
  supervision := none
  startTimer := none
  late := 0
  cap := 60000
  floor := 2
  account := none

/-- A channel record after power-on (R159, R175, R176). -/
def powerOnChannel : Channel where
  pace := 10
  rated := 1400
  timer := none
  read := none
  endFlags := 0
  underruns := 0
  late := 0
  enabled := false
  inService := Vector.replicate 5 none
  pending := Vector.replicate 5 none
  superseded := 0

/-- The part right after power-on. Each block's values are those of its chapter (R1, R3, R19, R44, R49, R60, R61, R105,
R107, R113, R119, R120, R138, R140, R141, R144, R147, R154, R155, R159, R161, R165, R173, R175, R176, R186–R191, R193). -/
def State.reset : State where
  pending := []
  now := 0
  free := 0
  held := []
  linkOut := []
  spiOut := []
  part := .config
  heads := ⟨((List.finRange 96).map powerOnHead).toArray, by simp⟩
  discards := Vector.replicate 24 0
  tiers := #v[⟨300, 0, 0xFF#8⟩, ⟨600, 1, 0xFF#8⟩, ⟨1200, 3, 0xFF#8⟩, ⟨2000, 15, 0xFF#8⟩]
  unbound := 150
  stations := []
  roam := ⟨4, 2000, 30, 0x01#8⟩
  holds := []
  passes := []
  zones := Vector.replicate 32 ⟨none, 0, 0, none⟩
  rezone := ⟨false, 0, none, 0, 0⟩
  mode := .single
  strict := false
  portA := ⟨{}, []⟩
  portB := ⟨{}, []⟩
  holdTimers := []
  marks := Vector.replicate 16 none
  clips := []
  ages := []
  slots := []
  dram := []
  channels := Vector.replicate 8 powerOnChannel
  arbMode := .fixed
  pointer := 7
  port := .free
  programs := (Vector.replicate 16 ⟨0, 0#8, false⟩).set 15 ⟨4, 0#8, false⟩
  inbound := []
  outbound := []
  enables := 0
  lost := false
  rejected := false
  transaction := none

end Sys2Proof.Machine
end

