-- ==== Sys2Proof/Machine/Table.lean ====
section
/-!
DEFINITION. Sparse tables (records by index) and the stacked DRAM as a sparse memory, in one canonical form.
-/
namespace Sys2Proof.Machine

/-! ## Tables -/

/-- The record at an index, or none when it is vacant. -/
def Table.get {α : Type} : Table α → Nat → Option α
  | [], _ => none
  | (j, x) :: rest, i => if j = i then some x else Table.get rest i

/-- The table with a record written at an index. -/
def Table.put {α : Type} : Table α → Nat → α → Table α
  | [], i, y => [(i, y)]
  | (j, x) :: rest, i, y =>
    if i < j then (i, y) :: (j, x) :: rest
    else if i = j then (i, y) :: rest
    else (j, x) :: Table.put rest i y

/-- The table with the record at an index made vacant. -/
def Table.drop {α : Type} (t : Table α) (i : Nat) : Table α := t.filter fun p => p.1 != i

/-- The table with a record, if one stands at the index, changed by a function. -/
def Table.update {α : Type} (t : Table α) (i : Nat) (f : α → α) : Table α :=
  t.map fun p => if p.1 = i then (p.1, f p.2) else p

/-- The lowest index at or above `k` that is not listed, in a table whose indices rise from `k` on. -/
def Table.freeFrom {α : Type} : Table α → Nat → Nat
  | [], k => k
  | (j, _) :: rest, k => if j = k then Table.freeFrom rest (k + 1) else k

/-- The vacant record of the lowest index among those below `size`, or none when all are taken (R20, R86, R141, R144). -/
def Table.lowestFree {α : Type} (t : Table α) (size : Nat) : Option Nat :=
  let k := Table.freeFrom t 0
  if k < size then some k else none

/-- The canonical form of a table: indices strictly rising. -/
abbrev Table.wf {α : Type} (t : Table α) : Prop := (t.map Prod.fst).Pairwise (· < ·)

/-! ## The stacked DRAM -/

/-- What a byte of DRAM that is not listed reads as (log 14). -/
def Memory.unlisted : Byte := 0

/-- The byte at an address. -/
def Memory.read (m : List Host.Cell) (a : Nat) : Byte := (Table.get m a).getD Memory.unlisted

/-- The memory with one byte written; a byte equal to what an unlisted address reads as is not listed. -/
def Memory.write (m : List Host.Cell) (a : Nat) (b : Byte) : List Host.Cell :=
  if b = Memory.unlisted then Table.drop m a else Table.put m a b

/-- The memory with bytes written from an address up. -/
def Memory.writeBytes : List Host.Cell → Nat → List Byte → List Host.Cell
  | m, _, [] => m
  | m, a, b :: bs => Memory.writeBytes (Memory.write m a b) (a + 1) bs

/-- The `n` bytes from an address up. -/
def Memory.readBytes (m : List Host.Cell) : Nat → Nat → List Byte
  | _, 0 => []
  | a, n + 1 => Memory.read m a :: Memory.readBytes m (a + 1) n

/-- The canonical form of the memory: addresses strictly rising, no entry equal to an unlisted byte. -/
abbrev Memory.wf (m : List Host.Cell) : Prop :=
  Table.wf m ∧ ∀ c ∈ m, c.2 ≠ Memory.unlisted

/-- The address of a slot's first byte: slots are 2,048 bytes each (R144). -/
def slotAddress (slot : Nat) : Nat := slot * 2048

end Sys2Proof.Machine
end

