-- ==== Sys2Proof/Machine/Ops.lean ====
section
/-!
DEFINITION. The named operations over the part's records: reads and writes of one record, times, frames and notices.
-/
namespace Sys2Proof.Machine

/-! ## Reads and writes of one record -/

/-- The head record of a head. -/
def State.head (s : State) (h : HeadId) : Head := s.heads[h]

/-- The state with a head record replaced. -/
def State.setHead (s : State) (h : HeadId) (x : Head) : State := { s with heads := s.heads.set h x }

/-- The station record at an index, or none when it is vacant. -/
def State.station (s : State) (i : Nat) : Option Station := Table.get s.stations i

/-- The state with a station record written. -/
def State.setStation (s : State) (i : Nat) (x : Station) : State := { s with stations := Table.put s.stations i x }

/-- The state with a station record, if one stands at the index, changed by a function. -/
def State.updateStation (s : State) (i : Nat) (f : Station → Station) : State :=
  { s with stations := Table.update s.stations i f }

/-- The address lookup: the index of the record that holds an address (R20). -/
def State.lookupStation (s : State) (a : StationAddress) : Option Nat :=
  (s.stations.find? fun p => p.2.addr == a).map Prod.fst

/-- The pass record at an index, or none when it is vacant. -/
def State.pass (s : State) (p : Nat) : Option Pass := Table.get s.passes p

/-- The state with a pass record written. -/
def State.setPass (s : State) (p : Nat) (x : Pass) : State := { s with passes := Table.put s.passes p x }

/-- The state with a pass record, if one stands at the index, changed by a function. -/
def State.updatePass (s : State) (p : Nat) (f : Pass → Pass) : State :=
  { s with passes := Table.update s.passes p f }

/-- The number lookup: the index of the record that holds a pass number (R86). Number zero has no record. -/
def State.lookupPass (s : State) (n : PassNumber) : Option Nat :=
  if n = 0 then none else (s.passes.find? fun p => p.2.number == n).map Prod.fst

/-- The zone of a zone number. -/
def State.zone (s : State) (z : ZoneId) : Zone := s.zones[z]

/-- The state with a zone replaced. -/
def State.setZone (s : State) (z : ZoneId) (x : Zone) : State := { s with zones := s.zones.set z x }

/-- The clip record at an index, or none when it is vacant. -/
def State.clip (s : State) (i : Nat) : Option Clip := Table.get s.clips i

/-- The state with a clip record, if one stands at the index, changed by a function. -/
def State.updateClip (s : State) (i : Nat) (f : Clip → Clip) : State := { s with clips := Table.update s.clips i f }

/-- The lookup of a clip by its key (R141). -/
def State.lookupClip (s : State) (k : Key) : Option Nat :=
  (s.clips.find? fun p => p.2.key == k).map Prod.fst

/-- The record of a playout channel. -/
def State.channel (s : State) (c : Chan) : Channel := s.channels[c]

/-- The state with a channel record replaced. -/
def State.setChannel (s : State) (c : Chan) (x : Channel) : State := { s with channels := s.channels.set c x }

/-- An ingest port. -/
def State.ingest (s : State) : Port → IngestPort
  | .a => s.portA
  | .b => s.portB

/-- The state with an ingest port changed by a function. -/
def State.updateIngest (s : State) (p : Port) (f : IngestPort → IngestPort) : State :=
  { s with portA := if p = .a then f s.portA else s.portA, portB := if p = .b then f s.portB else s.portB }

/-- The state with a port's counts changed by a function. -/
def State.tally (s : State) (p : Port) (f : PortCounts → PortCounts) : State :=
  s.updateIngest p fun x => { x with counts := f x.counts }

/-- A head number carried as a number, if a head has it (0–95). -/
def headId? (h : Nat) : Option HeadId := if p : h < 96 then some ⟨h, p⟩ else none

/-- The link of a head (00_scope.md, Head numbers). -/
def linkOf (h : HeadId) : LinkId := ⟨h.val / 4, by have := h.isLt; omega⟩

/-- Whether a set of channels holds a channel. -/
def hasChan (cs : ChanSet) (c : Chan) : Bool := cs.getLsbD c

/-- The set of channels that holds one channel alone. -/
def oneChan (c : Chan) : ChanSet := 1#8 <<< c.val

/-- The set of the numbers below `n` that a condition picks, as a word: bit i stands for i. -/
def setOf (n : Nat) (f : Fin n → Bool) : BitVec n :=
  (List.finRange n).foldl (fun acc i => if f i then acc ||| (1#n <<< i.val) else acc) 0#n

/-! ## Time -/

/-- Milliseconds as microseconds. -/
def ms (n : Nat) : Micros := n * 1000

/-- The clock in whole milliseconds: the time a dwell start is taken at (R19). -/
def State.nowMs (s : State) : Nat := s.now / 1000

/-- The state at a timer's expiry: the clock stands at the time the timer was due, or later (log 2). -/
def State.expireAt (s : State) (due : Micros) : State := { s with now := max s.now due }

/-- The time left on a timer, in whole milliseconds (R32, R158, log 31). -/
def State.leftMs (s : State) (due : Micros) : Nat := (due - s.now) / 1000

/-! ## Notices and frames -/

/-- A notice's class (R191). -/
def noticeClass : Notice → NoticeClass
  | .head .. => .head
  | .roam .. => .roam
  | .suspect .. => .pass
  | .rezoneDone .. => .zone
  | .clip .. => .clip
  | .preempt .. => .channel
  | .ended .. => .channel
  | .shed .. => .airtime
  | .restored .. => .airtime

/-- A class's code (R191). -/
def classCode : NoticeClass → Nat
  | .head => 1
  | .roam => 2
  | .pass => 3
  | .zone => 4
  | .clip => 5
  | .channel => 6
  | .airtime => 7

/-- Whether a class is enabled; its bit is its code less 1 (log 19). -/
def State.classEnabled (s : State) (k : NoticeClass) : Bool := s.enables.getLsbD (classCode k - 1)

/-- The command in progress produces a notice. A disabled class produces none (R191). -/
def State.note (s : State) (n : Notice) : State :=
  { s with held := if s.classEnabled (noticeClass n) then s.held ++ [n] else s.held }

/-- The command in progress produces notices, in order. -/
def State.noteAll (s : State) (ns : List Notice) : State :=
  { s with held := s.held ++ ns.filter fun n => s.classEnabled (noticeClass n) }

/-- Whether a frame produced for a head is sent: not when the head is ABSENT or FAULT (R2). -/
def Head.reachable (x : Head) : Bool := x.state != .absent && x.state != .fault

/-- A frame is produced for a head (R2). -/
def State.send (s : State) (h : HeadId) (f : LinkFrame) : State :=
  { s with linkOut := if (s.head h).reachable then s.linkOut ++ [(h, f)] else s.linkOut }

/-- One more frame is discarded and counted on a head's link (R1). -/
def State.discard (s : State) (l : LinkId) : State := { s with discards := s.discards.set l (count16 s.discards[l]) }

end Sys2Proof.Machine
end

