-- ==== Sys2Proof/Machine/Link.lean ====
section
/-!
DEFINITION. The Control Link Port's operations: frames as bytes, the two queues, taking a request and placing its reply
(R186–R192, R195).
-/
namespace Sys2Proof.Machine

/-! ## Codes and layouts -/

/-- The value of a reply code (R192). -/
def codeByte : Code → Byte
  | .ok => 0x00
  | .okOffzone => 0x01
  | .started => 0x02
  | .busy => 0x03
  | .state => 0x04
  | .range => 0x05
  | .unknown => 0x06
  | .full => 0x07
  | .locked => 0x08
  | .duplicate => 0x09
  | .passback => 0x0A
  | .void => 0x0B
  | .reentryLimit => 0x0C
  | .notInside => 0x0D
  | .bound => 0x0E
  | .denied => 0x0F
  | .airtime => 0x10
  | .badFrame => 0x11

/-- The bytes of a reply's contents. Those of an unknown type's reply are given (R192); a reply that carries its code
alone has none; every other layout is open, within the body length's limit (R195, log 6). -/
def contentBytes : Content → List Byte
  | .none => []
  | .typeReceived t => [t]
  | c => (Config.contentBytes c).take 1023

/-- A notice's kind (R191). -/
def noticeKind : Notice → NoticeKind
  | .head _ .started _ => .started
  | .head _ (.fault _) _ => .fault
  | .head _ .drained _ => .drained
  | .roam _ .moved _ _ _ => .moved
  | .roam _ .declined _ _ _ => .declined
  | .roam _ .timeout _ _ _ => .timeout
  | .roam _ .aborted _ _ _ => .aborted
  | .suspect .. => .suspect
  | .rezoneDone .. => .rezoneDone
  | .clip _ (.ready _) => .ready
  | .clip _ (.damaged _ _) => .damaged
  | .clip _ (.evicted _) => .evicted
  | .clip _ .refused => .refused
  | .clip _ (.discarded _) => .discarded
  | .preempt .. => .preempt
  | .ended .. => .ended
  | .shed .. => .shed
  | .restored .. => .restored

/-- A notice's subject (R191). -/
def noticeSubject : Notice → Subject
  | .head h _ _ => .head h
  | .roam i _ _ _ _ => .station i
  | .suspect i _ _ => .pass i
  | .rezoneDone z _ _ => .zone z
  | .clip (.index i) _ => .clip i
  | .clip (.key k) _ => .key k
  | .preempt c _ _ _ _ => .channel c
  | .ended c _ _ _ => .channel c
  | .shed h _ _ => .head h
  | .restored h _ _ => .head h

/-- A number as a notice's value of two bytes (R191). -/
def value16 (n : Nat) : BitVec 16 := BitVec.ofNat 16 n

/-- A notice's values, in the order of R191's table: a PREEMPT's two levels, the new and the suspended, stand before its clip
and cursor (log 20). -/
def noticeValues : Notice → List (BitVec 16)
  | .head _ (.fault r) st => [Config.headStateValue st, Config.faultReasonValue r]
  | .head _ _ st => [Config.headStateValue st]
  | .roam _ _ src tgt o => [value16 src, value16 tgt, Config.roamOriginValue o]
  | .suspect _ n cause => [n.extractLsb' 32 16, n.extractLsb' 16 16, n.extractLsb' 0 16, Config.suspectCauseValue cause]
  | .rezoneDone _ changed trimmed => [value16 changed, value16 trimmed]
  | .clip _ (.ready n) => [value16 n]
  | .clip _ (.damaged cause n) => [value16 n, Config.damageCauseValue cause]
  | .clip _ (.evicted n) => [value16 n]
  | .clip _ .refused => []
  | .clip _ (.discarded cause) => [Config.damageCauseValue cause]
  | .preempt _ l clip l' cursor => [value16 (l.val + 1), value16 (l'.val + 1), value16 clip, value16 cursor]
  | .ended _ l clip running => [value16 (l.val + 1), value16 clip, Config.channelStateValue running]
  | .shed _ c cost => value16 c :: [value16 (cost / 65536), value16 cost]
  | .restored _ c cost => value16 c :: [value16 (cost / 65536), value16 cost]

/-- A notice's body: class, kind, subject, count of values, values high byte first (R191). -/
def noticeBody (n : Notice) : List Byte :=
  BitVec.ofNat 8 (classCode (noticeClass n)) :: Config.kindCode (noticeKind n)
    :: (Config.subjectBytes (noticeSubject n)).take 1000
    ++ BitVec.ofNat 8 (noticeValues n).length :: (noticeValues n).flatMap bytes16

/-- The type, tag and body of an outbound frame: a notice has type 0x60 and tag 0x00 (R191, R192). -/
def OutFrame.parts : OutFrame → Byte × Byte × List Byte
  | .reply type tag code content => (type, tag, codeByte code :: contentBytes content)
  | .notice n => (0x60, 0x00, noticeBody n)

/-- A control frame's bytes: type, tag, body length, body, CRC-16 over all before it (R195). -/
def controlFrame (type tag : Byte) (body : List Byte) : List Byte :=
  let covered := type :: tag :: bytes16 (BitVec.ofNat 16 body.length) ++ body
  covered ++ bytes16 (crc16 covered)

/-- The bytes of an outbound frame (R195). -/
def OutFrame.bytes (f : OutFrame) : List Byte := controlFrame f.parts.1 f.parts.2.1 f.parts.2.2

/-- A stored frame read from the bytes the host clocked in from its first, which is not 0x00 (R188): good when its body
length is at most 1,024, it does not end before its last CRC byte, and its CRC-16 matches. The tag of a frame that ended
before its tag byte is 0x00. Bytes after the CRC are ignored (R186). -/
def readFrame (bytes : List Byte) : InFrame :=
  let type := bytes.getD 0 0
  let tag := bytes.getD 1 0
  let length := (word16 (bytes.getD 2 0) (bytes.getD 3 0)).toNat
  let covered := bytes.take (4 + length)
  let good := 4 ≤ bytes.length ∧ length ≤ 1024 ∧ 6 + length ≤ bytes.length ∧
    (bytes.drop (4 + length)).take 2 = bytes16 (crc16 covered)
  { type := type, tag := tag, body := covered.drop 4, good := decide good }

/-- The link status byte (R187, R195). -/
def State.statusByte (s : State) : Byte :=
  (if s.rejected then 0x40#8 else 0) ||| (if s.part = .run then 0x20#8 else 0) ||| (if s.lost then 0x10#8 else 0)
    ||| (if s.outbound.isEmpty then 0 else 0x08#8) ||| BitVec.ofNat 8 (4 - s.inbound.length)

/-- The attention line: asserted while the outbound queue is non-empty (R186). -/
def State.attention (s : State) : Bool := !s.outbound.isEmpty

/-! ## The outbound queue -/

/-- A notice is offered: placed while the queue holds fewer than 60 frames, else discarded with notices lost set
(R190). -/
def State.offer (s : State) (n : Notice) : State :=
  { s with
    outbound := if s.outbound.length < 60 then s.outbound ++ [.notice n] else s.outbound
    lost := s.lost || !decide (s.outbound.length < 60) }

/-- The notices of the command in progress are offered in the order they were produced (R189, log 23). -/
def State.flush (s : State) : State := s.held.foldl State.offer { s with held := [] }

/-- A reply is placed at the tail of the outbound queue (R189); its type is its request's plus 0x80 (R192). -/
def State.reply (s : State) (type tag : Byte) (code : Code) (content : Content) : State :=
  { s with outbound := s.outbound ++ [.reply (type + 0x80) tag code content] }

/-! ## Taking a request -/

/-- A request of a type and tag is taken (R189, log 3). Nothing is taken while the outbound queue holds 64 frames. A
frame of the request at the head of the inbound queue leaves it; with the queue empty the request is stored and taken at
this one event; behind another frame it waits. -/
def State.takeRequest (s : State) (type tag : Byte) : Option State :=
  if 64 ≤ s.outbound.length then none
  else match s.inbound with
    | [] => some s
    | f :: rest => if f.good ∧ f.type = type ∧ f.tag = tag then some { s with inbound := rest } else none

/-- What serving a request gives: the state its work leaves, the reply code and the reply's contents. -/
structure Served where
  state   : State
  code    : Code
  content : Content := .none

/-- A request is taken and served, its reply placed, and the notices of its work offered behind the reply (R189). A body
that does not fit draws RANGE, with `wrong` as the reply's contents. -/
def State.serve (s : State) (f : Req) (type : Byte) (work : State → Served) (wrong : State → Content := fun _ => .none) :
    State :=
  match s.takeRequest type f.tag with
  | none => s
  | some s1 =>
    let r := if f.fits then work s1 else ⟨s1, .range, wrong s1⟩
    (r.state.reply type f.tag r.code r.content).flush

/-- A reply code with no effect and no contents. -/
def Served.refuse (s : State) (c : Code) : Served := ⟨s, c, .none⟩

end Sys2Proof.Machine
end

