-- ==== Sys2Proof/Machine/Airtime.lean ====
section
/-!
DEFINITION. The Airtime Unit: parties at a head, planned rates and costs, the recompute and the shedding rule, admission,
reservations, restoring, and channels that start, stop or change level (R41–R59).
-/
namespace Sys2Proof.Machine

/-! ## What other blocks hold that the accounts are made of -/

/-- The levels from the highest down. -/
def levelsDown : List Level := [4, 3, 2, 1, 0]

/-- The venue level, 5 (R173). -/
def venueLevel : Level := 4

/-- The in-service entry of a channel at a level (R176). -/
def Channel.entry (x : Channel) (l : Level) : Option InService := x.inService[l]

/-- The pending entry of a channel at a level (R176). -/
def Channel.waiting (x : Channel) (l : Level) : Option Pending := x.pending[l]

/-- A channel's current level: its highest in-service level (R45, R159). -/
def Channel.currentLevel (x : Channel) : Option Level := levelsDown.find? fun l => (x.entry l).isSome

/-- A channel is RUN exactly when its in-service set is not empty (R160). -/
def Channel.running (x : Channel) : Bool := x.currentLevel.isSome

/-- Whether a channel's current level is the venue level. -/
def State.atVenue (s : State) (c : Chan) : Bool := (s.channel c).currentLevel == some venueLevel

/-- One of those that a head owes airtime to: a member or a hold, by its reservation, channel set and rate class (R42). -/
structure Party where
  res   : Nat
  chans : ChanSet
  rate  : Nat
deriving DecidableEq, Repr

/-- The indices of a head's members, ascending (R21). -/
def State.members (s : State) (h : HeadId) : List Nat :=
  (s.stations.filter fun p => p.2.current == some h).map Prod.fst

/-- A head's hold list, in the order placed (R61). -/
def State.holdsAt (s : State) (h : HeadId) : List Hold := s.holds.filter fun x => x.target == h

/-- The members and holds of a head, as the account sees them (R42, R45). -/
def State.parties (s : State) (h : HeadId) : List Party :=
  (s.stations.filter fun p => p.2.current == some h).map (fun p => ⟨p.2.res, p.2.chans, p.2.rate⟩)
    ++ (s.holdsAt h).map fun x => ⟨x.res, x.chans, x.rate⟩

/-- The sum of the reservations of some parties. -/
def resSum (ps : List Party) : Nat := (ps.map Party.res).sum

/-! ## Planned rate and cost -/

/-- The rate classes of a channel's subscriber set: the parties that have it and are not weak (R42). -/
def subscriberRates (ps : List Party) (floor : Nat) (c : Chan) : List Nat :=
  (ps.filter fun p => hasChan p.chans c && decide (floor ≤ p.rate)).map Party.rate

/-- The planned rate: the larger of the floor and the lowest class in the subscriber set; none when the set is empty
(R42). -/
def plannedRate (ps : List Party) (floor : Nat) (c : Chan) : Option Nat :=
  match subscriberRates ps floor c with
  | [] => none
  | r :: rs => some (max floor (rs.foldl min r))

/-- The cost of a channel at a planned rate (R41). -/
def channelCost (x : Channel) (rate : Nat) : Nat := x.pace * frameAirtime x.rated rate

/-- An accounting entry brought up to date: NOT COUNTED unless the channel is RUN and has subscribers; else as its shed
flag stands, at the present planned rate and cost (R43, R46). -/
def freshEntry (x : Channel) (ps : List Party) (floor : Nat) (c : Chan) (old : Entry) : Entry :=
  match x.running, plannedRate ps floor c with
  | true, some k =>
    match old with
    | .shed _ _ => .shed k (channelCost x k)
    | _ => .counted k (channelCost x k)
  | _, _ => .notCounted

/-- The cost of an entry that is COUNTED, else 0. -/
def Entry.countedCost : Entry → Nat
  | .counted _ cost => cost
  | _ => 0

/-- The eight entries of a head brought up to date for some parties (R46, first step). -/
def State.freshEntries (s : State) (ps : List Party) (floor : Nat) (old : Vector Entry 8) : Vector Entry 8 :=
  Vector.ofFn fun c => freshEntry (s.channel c) ps floor c old[c]

/-- The committed total: reservations and the costs of the COUNTED channels below the venue level (R45). -/
def State.committedOf (s : State) (ps : List Party) (entries : Vector Entry 8) : Nat :=
  resSum ps + ((List.finRange 8).map fun c => if s.atVenue c then 0 else entries[c].countedCost).sum

/-- The venue load: the costs of the COUNTED venue-level channels (R45). -/
def State.venueOf (s : State) (entries : Vector Entry 8) : Nat :=
  ((List.finRange 8).map fun c => if s.atVenue c then entries[c].countedCost else 0).sum

/-- An account with both totals summed afresh (R46, second step). -/
def State.resum (s : State) (ps : List Party) (a : Account) : Account :=
  { a with committed := s.committedOf ps a.entries, venue := s.venueOf a.entries }

/-! ## The shedding rule -/

/-- Of two channels, the one the shedding rule takes first: the lower current level, then the higher number (R47). -/
def State.shedsBefore (s : State) (c d : Chan) : Bool :=
  match (s.channel c).currentLevel, (s.channel d).currentLevel with
  | some l, some m => decide (l < m) || (decide (l = m) && decide (d < c))
  | some _, none => true
  | none, _ => false

/-- The channel the shedding rule sheds next, if a COUNTED channel below the venue level is left (R47). -/
def State.shedChoice (s : State) (entries : Vector Entry 8) : Option Chan :=
  ((List.finRange 8).filter fun c =>
      !s.atVenue c && (match entries[c] with | .counted _ _ => true | _ => false)).foldl
    (fun best c => match best with
      | none => some c
      | some b => if s.shedsBefore c b then some c else some b) none

/-- The shedding rule, which sheds at most the eight channels: while the committed total exceeds the cap, the next
channel's entry becomes SHED, its cost leaves the committed total and a notice is produced (R47). -/
def State.shedLoop (s : State) (h : HeadId) (cap : Nat) : Nat → Account → List Notice → Account × List Notice
  | 0, a, ns => (a, ns)
  | n + 1, a, ns =>
    if a.committed ≤ cap then (a, ns)
    else match s.shedChoice a.entries with
      | none => (a, ns)
      | some c =>
        match a.entries[c] with
        | .counted k cost =>
          s.shedLoop h cap n { a with entries := a.entries.set c (.shed k cost), committed := a.committed - cost }
            (ns ++ [.shed h c cost])
        | _ => (a, ns)

/-- The shedding rule run on an account (R47). -/
def State.shed (s : State) (h : HeadId) (cap : Nat) (a : Account) : Account × List Notice := s.shedLoop h cap 8 a []

/-! ## The recompute -/

/-- The account a recompute of a head leaves, and the notices it produces (R46). -/
def State.recomputed (s : State) (h : HeadId) (a : Account) : Account × List Notice :=
  let x := s.head h
  let ps := s.parties h
  s.shed h x.cap (s.resum ps { a with entries := s.freshEntries ps x.floor a.entries })

/-- The state with a head's account and the notices of the change. -/
def State.setAccount (s : State) (h : HeadId) (r : Account × List Notice) : State :=
  (s.setHead h { s.head h with account := some r.1 }).noteAll r.2

/-- A recompute of a head; with no open account it does nothing (R46). -/
def State.recompute (s : State) (h : HeadId) : State :=
  match (s.head h).account with
  | none => s
  | some a => s.setAccount h (s.recomputed h a)

/-- A recompute of each of some heads, in the order given. -/
def State.recomputeList (s : State) (hs : List HeadId) : State := hs.foldl State.recompute s

/-- A recompute of every head, in ascending head number (R56). -/
def State.recomputeAll (s : State) : State := s.recomputeList (List.finRange 96)

/-- A head's account is opened with nothing counted and its window timer started (R44). -/
def State.openAccount (s : State) (h : HeadId) : State :=
  s.setHead h { s.head h with
    account := some ⟨Vector.replicate 8 .notCounted, 0, 0, s.now + ms 100⟩ }

/-! ## Admission and the load penalty -/

/-- The association admission test: reservations alone, with the one offered, within the cap (R48). -/
def State.admitsMember (s : State) (h : HeadId) (offered : Nat) : Bool :=
  decide (resSum (s.parties h) + offered ≤ (s.head h).cap)

/-- Members plus holds at a head. -/
def State.crowd (s : State) (h : HeadId) : Nat := (s.members h).length + (s.holdsAt h).length

/-- The committed total a head would have with a hold added and no channel shed (R58). -/
def State.committedWith (s : State) (h : HeadId) (a : Account) (p : Party) : Nat :=
  let ps := s.parties h ++ [p]
  s.committedOf ps (s.freshEntries ps (s.head h).floor a.entries)

/-- The hold admission test at a head (R58). -/
def State.admitsHold (s : State) (h : HeadId) (p : Party) : Bool :=
  match (s.head h).account with
  | none => false
  | some a => decide (s.crowd h < 64) && decide (s.committedWith h a p ≤ (s.head h).cap)

/-- The load penalty of a head with an open account: floor(8 × committed / cap) (R59). -/
def State.penalty (s : State) (h : HeadId) : Nat :=
  match (s.head h).account with
  | none => 0
  | some a => 8 * a.committed / (s.head h).cap

/-! ## Reservations -/

/-- A station's tier value: its bound pass's tier's reservation, or the unbound reservation (R49). -/
def State.tierValue (s : State) (st : Station) : Nat :=
  match st.pass with
  | none => s.unbound
  | some p =>
    match s.pass p with
    | none => s.unbound
    | some q => s.tiers[q.tier].reservation

/-- A member's record with its reservation in force set toward a target: the raising rule when the target is above it,
the lowering when it is at or below (R51, R52). -/
def State.towards (s : State) (h : HeadId) (st : Station) (goal : Nat) : Station :=
  if st.res < goal then
    if resSum (s.parties h) - st.res + goal ≤ (s.head h).cap then { st with res := goal, capped := false }
    else { st with capped := true }
  else { st with res := goal, capped := false }

/-- A station's reservation is set toward its tier value at its current head, with no recompute; a LAPSED station's
stays 0 (R51, R52). -/
def State.setReservation (s : State) (i : Nat) : State :=
  match s.station i with
  | none => s
  | some st =>
    match st.current with
    | none => s
    | some h => s.setStation i (s.towards h st (s.tierValue st))

/-- The head a station is a member of. -/
def State.headOf (s : State) (i : Nat) : Option HeadId := (s.station i).bind Station.current

/-- A recompute of a station's current head, if it is a member of one. -/
def State.recomputeOf (s : State) (i : Nat) : State :=
  match s.headOf i with
  | none => s
  | some h => s.recompute h

/-- A station's reservation is set toward its tier value, and its head is recomputed if the value changed (R51,
R52). -/
def State.settle (s : State) (i : Nat) : State :=
  let t := s.setReservation i
  if (t.station i).map Station.res = (s.station i).map Station.res then t else t.recomputeOf i

/-! ## Restoring -/

/-- Whether a channel is offered back its room before another: the higher current level first, then the lower number
(R54). -/
def State.restoresBefore (s : State) (c d : Chan) : Bool :=
  match (s.channel c).currentLevel, (s.channel d).currentLevel with
  | some l, some m => decide (m < l) || (decide (l = m) && decide (c ≤ d))
  | some _, none => true
  | none, some _ => false
  | none, none => decide (c ≤ d)

/-- A channel placed among channels that stand in the order of the restore. -/
def State.restoreInsert (s : State) (c : Chan) : List Chan → List Chan
  | [] => [c]
  | d :: ds => if s.restoresBefore c d then c :: d :: ds else d :: s.restoreInsert c ds

/-- The channels in the order of the restore (R54). -/
def State.restoreOrder (s : State) : List Chan := (List.finRange 8).foldr s.restoreInsert []

/-- One channel's turn in the restore: its entry, if SHED, becomes COUNTED when its cost fits (R54). -/
def restoreOne (h : HeadId) (cap : Nat) (r : Account × List Notice) (c : Chan) : Account × List Notice :=
  match r.1.entries[c] with
  | .shed k cost =>
    if r.1.committed + cost ≤ cap then
      ({ r.1 with entries := r.1.entries.set c (.counted k cost), committed := r.1.committed + cost },
        r.2 ++ [.restored h c cost])
    else r
  | _ => r

/-- The restore at a head (R54). -/
def State.restoreShed (s : State) (h : HeadId) : State :=
  match (s.head h).account with
  | none => s
  | some a => s.setAccount h (s.restoreOrder.foldl (restoreOne h (s.head h).cap) (a, []))

/-! ## Channels that change level -/

/-- At one head, a RUN channel's current level has moved to 5: a SHED entry becomes COUNTED with a notice, and the
channel's cost stands in the venue load (R57). -/
def State.toVenueAt (c : Chan) (s : State) (h : HeadId) : State :=
  match (s.head h).account with
  | none => s
  | some a =>
    match a.entries[c] with
    | .notCounted => s
    | .counted _ _ => s.setAccount h (s.resum (s.parties h) a, [])
    | .shed k cost =>
      s.setAccount h (s.resum (s.parties h) { a with entries := a.entries.set c (.counted k cost) },
        [.restored h c cost])

/-- At one head, a RUN channel's current level has moved from 5: where the entry is COUNTED its cost stands in the
committed total, and the shedding rule runs (R57). -/
def State.fromVenueAt (c : Chan) (s : State) (h : HeadId) : State :=
  match (s.head h).account with
  | none => s
  | some a =>
    match a.entries[c] with
    | .counted _ _ => s.setAccount h (s.shed h (s.head h).cap (s.resum (s.parties h) a))
    | _ => s

/-- The Cue Controller's report of a RUN channel's level move to or from 5, at every head in ascending head number; a
move within 1–4, or none, changes nothing (R56, R57). -/
def State.reportLevel (s : State) (c : Chan) (before after : Level) : State :=
  if before = venueLevel then
    if after = venueLevel then s else (List.finRange 96).foldl (State.fromVenueAt c) s
  else if after = venueLevel then (List.finRange 96).foldl (State.toVenueAt c) s
  else s

/-! ## Delivery -/

/-- Whether a head carries a channel: its entry is COUNTED and a non-weak member subscribes it (R43). The value is the
planned rate at the head. -/
def State.carries (s : State) (h : HeadId) (c : Chan) : Option Nat :=
  match (s.head h).account with
  | none => none
  | some a =>
    match a.entries[c] with
    | .counted k _ =>
      if s.stations.any fun p =>
          p.2.current == some h && hasChan p.2.chans c && decide ((s.head h).floor ≤ p.2.rate)
      then some k else none
    | _ => none

/-- A frame is sent to one head if it carries the channel, at its planned rate there (R43, R167). -/
def State.deliverAt (c : Chan) (f : Nat → LinkFrame) (s : State) (h : HeadId) : State :=
  match s.carries h c with
  | none => s
  | some k => s.send h (f k)

/-- A frame is sent to every head that carries a channel, in ascending head number (R167, log 15). -/
def State.deliver (s : State) (c : Chan) (f : Nat → LinkFrame) : State :=
  (List.finRange 96).foldl (State.deliverAt c f) s

end Sys2Proof.Machine
end

