-- ==== Sys2Proof/Machine/Census.lean ====
section
/-!
DEFINITION. The Zone Map and Census: seat lookup, cached zones, census counts, latches (R88, R107, R111, R112, R118–R121).
-/
namespace Sys2Proof.Machine

/-! ## Seat lookup -/

/-- Whether a hole, if present, holds a seat. -/
def holeHas (hole : Option (Nat × Nat)) (seat : Nat) : Bool :=
  match hole with
  | none => false
  | some (a, b) => decide (a ≤ seat) && decide (seat ≤ b)

/-- Whether a zone record's range holds a seat and neither hole holds it (R111). -/
def zoneHasSeat (z : ZoneRecord) (seat : Nat) : Bool :=
  decide (z.first ≤ seat) && decide (seat ≤ z.last) && !holeHas z.hole1 seat && !holeHas z.hole2 seat

/-- The zone of a seat: the lowest-numbered valid zone that has it (R111). -/
def State.seatZone (s : State) (seat : Nat) : Option ZoneId :=
  (List.finRange 32).find? fun z => ((s.zone z).fields.map fun r => zoneHasSeat r seat).getD false

/-- A declared zone if that zone is valid. -/
def State.validZone (s : State) (z : ZoneId) : Option ZoneId := if (s.zone z).fields.isSome then some z else none

/-- The cached zone of a pass with a seat and a declared zone, worked out from the zone map as it stands (R112). -/
def State.cachedZone (s : State) (seat : Option (BitVec 16)) (declared : Option ZoneId) : Option ZoneId :=
  match seat with
  | some n => s.seatZone n.toNat
  | none => declared.bind s.validZone

/-- The head list of a zone; a cleared zone's is empty (R107, R112). -/
def State.zoneHeads (s : State) (z : ZoneId) : List HeadId := ((s.zone z).fields.map ZoneRecord.heads).getD []

/-- The channel set of a zone; a cleared zone's is empty (R107, R112). -/
def State.zoneChans (s : State) (z : ZoneId) : ChanSet := ((s.zone z).fields.map ZoneRecord.chans).getD 0

/-! ## Census counts -/

/-- The state with a zone's counts changed by a function; no zone takes no count (R88, R118). -/
def State.count (s : State) (z : Option ZoneId) (f : Zone → Zone) : State :=
  { s with zones := match z with
      | none => s.zones
      | some k => s.zones.set k (f (s.zone k)) }

/-- Whether a pass state is inside the bowl: ADMITTED or SEATED (R88). -/
def passInside : PassState → Bool
  | .admitted => true
  | .seated => true
  | _ => false

/-- Whether a pass state is SEATED. -/
def passSeated : PassState → Bool
  | .seated => true
  | _ => false

/-- A count moved by one side of a change: up when it now holds and did not, down when it held and does not. -/
def moveCount (before after : Bool) (n : Nat) : Nat :=
  if before = after then n else if after then n + 1 else n - 1

/-- A zone's counts after a pass counted there moves from one state to another; no state is a vacant record (R88). -/
def Zone.moved (before after : Option PassState) (z : Zone) : Zone :=
  { z with
    admitted := moveCount ((before.map passInside).getD false) ((after.map passInside).getD false) z.admitted
    seated := moveCount ((before.map passSeated).getD false) ((after.map passSeated).getD false) z.seated }

/-- A pass's move of state reported to the census with the cached zone it holds (R88). -/
def State.censusMove (s : State) (z : Option ZoneId) (before after : Option PassState) : State :=
  s.count z (Zone.moved before after)

/-- A pass in a state moves its counts from one cached zone to another (R100, R114). -/
def State.rezoneCounts (s : State) (st : PassState) (old new : Option ZoneId) : State :=
  if old = new then s else (s.censusMove old (some st) none).censusMove new none (some st)

/-! ## Latches -/

/-- A zone's latch, if held, marked stale (R121). -/
def Zone.markStale (z : Zone) : Zone := { z with latch := z.latch.map fun l => { l with stale := true } }

/-- The latch of a zone, if there is a zone and its latch is held, marked stale (R121). -/
def State.markStale (s : State) (z : Option ZoneId) : State := s.count z Zone.markStale

/-- The number of a zone carried as a number, if a zone has it (0–31). -/
def zoneId? (z : Nat) : Option ZoneId := if p : z < 32 then some ⟨z, p⟩ else none

end Sys2Proof.Machine
end

