-- ==== Sys2Proof/Machine/Members.lean ====
section
/-!
DEFINITION. Operations the Station Table, Pass Table, Roam Engine and Seat Link Controller share: the drain check, permitted
sets and trims, unbinding, the ends of a handover, lapse and vacating (R15, R28, R30, R35, R38, R71–R79, R96–R98).
-/
namespace Sys2Proof.Machine

/-! ## Drain check -/

/-- A head with its account closed; cap and floor are kept (R44). -/
def Head.closed (x : Head) : Head := { x with account := none }

/-- The drain check: a DRAINING head with no members and no holds enters DARK, its account is closed and a HEAD notice of
kind DRAINED is produced (R15). -/
def State.drainCheck (s : State) (h : HeadId) : State :=
  if (s.head h).state = .draining ∧ s.crowd h = 0 then
    (s.setHead h { (s.head h).closed with state := .dark }).note (.head h .drained .dark)
  else s

/-! ## Permitted sets and trims -/

/-- The permitted set of a station (R35). -/
def State.permitted (s : State) (st : Station) : ChanSet :=
  s.roam.pub |||
    (match st.pass.bind s.pass with
    | none => 0
    | some q =>
      match q.cached with
      | none => 0
      | some z => s.zoneChans z &&& s.tiers[q.tier].chans)

/-- The hold of a station (R61). -/
def State.holdOf (s : State) (i : Nat) : Option Hold := s.holds.find? fun x => x.station == i

/-- The state with the hold of a station, if it has one, changed by a function. -/
def State.updateHold (s : State) (i : Nat) (f : Hold → Hold) : State :=
  { s with holds := s.holds.map fun x => if x.station = i then f x else x }

/-- A station's channel set, and its hold's, kept to a set of channels. -/
def State.keepChans (s : State) (i : Nat) (keep : ChanSet) : State :=
  (s.updateStation i fun st => { st with chans := st.chans &&& keep }).updateHold i
    fun x => { x with chans := x.chans &&& keep }

/-- Whether a station's channel set holds a channel that is not permitted to it. -/
def State.overSubscribed (s : State) (i : Nat) : Bool :=
  match s.station i with
  | none => false
  | some st => st.chans &&& ~~~ s.permitted st != 0

/-- A station's channel set is trimmed to its permitted set, its hold's following, with no recompute (R38). -/
def State.trim (s : State) (i : Nat) : State :=
  match s.station i with
  | none => s
  | some st => s.keepChans i (s.permitted st)

/-- A recompute of a station's target head, if it is MOVING. -/
def State.recomputeTarget (s : State) (i : Nat) : State :=
  match (s.station i).bind Station.target with
  | none => s
  | some h => s.recompute h

/-- A recompute of a station's current head and then, for a MOVING station, of its target (R38, log 49). -/
def State.recomputeBoth (s : State) (i : Nat) : State := (s.recomputeOf i).recomputeTarget i

/-! ## Unbinding -/

/-- The state a station in SEATED or MOVING stands in by its binding when it is a member with no handover. -/
def Station.standing (st : Station) : StationState := if st.pass.isSome then .seated else .assoc

/-- The pass side of an unbinding: both binding fields are cleared together, the pass takes a state, and the census move is
reported (R96). -/
def State.unbindPass (s : State) (p : Nat) (after : PassState) : State :=
  match s.pass p with
  | none => s
  | some q =>
    let t := (s.setPass p { q with station := none, state := after }).censusMove q.cached (some q.state) (some after)
    match q.station with
    | none => t
    | some i => t.updateStation i fun st => { st with pass := none }

/-- The station side of an unbinding: a SEATED station becomes ASSOC; the reservation is set toward the unbound one and
the channel set trimmed; the current head, and a MOVING station's target, are recomputed once after both (R97). A
LAPSED station is only trimmed. -/
def State.unbindStation (s : State) (i : Nat) : State :=
  let t := s.updateStation i fun st => { st with state := if st.state = .seated then .assoc else st.state }
  ((t.setReservation i).trim i).recomputeBoth i

/-- The whole of an unbinding that leaves the station in the table (R96, R97). -/
def State.unbind (s : State) (p : Nat) (after : PassState) : State :=
  match (s.pass p).bind Pass.station with
  | none => s.unbindPass p after
  | some i => (s.unbindPass p after).unbindStation i

/-! ## Ends of a handover -/

/-- The hold of a station is removed (R61). -/
def State.dropHold (s : State) (i : Nat) : State := { s with holds := s.holds.filter fun x => x.station != i }

/-- A ROAM notice for the end of a handover, produced for a hold of origin HOST (R82). -/
def State.noteHostEnd (s : State) (x : Hold) (k : RoamEnd) : State :=
  if x.origin = .host then s.note (.roam x.station k x.source x.target x.origin) else s

/-- A station is back at its source: no target, the state its binding gives, one more refused roam, dwell start now (R73,
R77). -/
def Station.returned (st : Station) (now : Nat) : Station :=
  { st with state := st.standing, target := none, refused := count16 st.refused, dwell := now }

/-- A station enters LAPSED: it leaves its member list and its lapse timer starts (R28). -/
def State.lapse (s : State) (i : Nat) : State :=
  s.updateStation i fun st =>
    { st with
      state := .lapsed, current := none, target := none, res := 0, capped := false
      lapse := some (s.now + ms (1000 * s.roam.lapse)) }

/-- CANCEL is sent to a hold's target (R74–R76, R78). -/
def State.cancel (s : State) (x : Hold) : State :=
  match s.station x.station with
  | none => s
  | some st => s.send x.target (.cancel st.addr x.station)

/-- A hold is removed, its target recomputed, and the target's drain check made. -/
def State.releaseHold (s : State) (x : Hold) : State :=
  ((s.dropHold x.station).recompute x.target).drainCheck x.target

/-- The handover of a station ends with the station back at its source (R73, R74). -/
def State.undoHandover (s : State) (x : Hold) (k : RoamEnd) : State :=
  ((s.releaseHold x).updateStation x.station fun st => st.returned s.nowMs).noteHostEnd x k

/-- Loss of the source: the handover is aborted, CANCEL sent to the target, and the station lapses (R76). -/
def State.abortSourceLost (s : State) (x : Hold) : State :=
  (((s.cancel x).releaseHold x).lapse x.station).noteHostEnd x .aborted

/-- Loss of the target: the hold is gone with the target's account and the station is back at its source, with no
recompute and no frame (R77). -/
def State.abortTargetLost (s : State) (x : Hold) : State :=
  ((s.dropHold x.station).updateStation x.station fun st => st.returned s.nowMs).noteHostEnd x .aborted

/-- Departure of a MOVING station: the handover is aborted, with CANCEL to the target unless the departure came from it
(R78). -/
def State.abortDeparture (s : State) (x : Hold) (tell : Bool) : State :=
  ((if tell then s.cancel x else s).releaseHold x).noteHostEnd x .aborted

/-! ## Loss of a member, and vacating -/

/-- A member goes to LAPSED on LOST or on the loss of its head: a MOVING one by the abort of its handover (R28, R76). -/
def State.loseMember (s : State) (i : Nat) : State :=
  match s.holdOf i with
  | some x => s.abortSourceLost x
  | none => s.lapse i

/-- A record is vacated (R30). `tellHead` says whether DISASSOC goes to the current head, `tellTarget` whether CANCEL
goes to the target. -/
def State.vacate (s : State) (i : Nat) (tellHead tellTarget : Bool) : State :=
  match s.station i with
  | none => s
  | some st =>
    let s1 := match s.holdOf i with
      | none => s
      | some x => s.abortDeparture x tellTarget
    let s2 := match st.pass with
      | none => s1
      | some p => s1.unbindPass p .admitted
    match st.current with
    | none => { s2 with stations := Table.drop s2.stations i }
    | some h =>
      let s3 := if tellHead then s2.send h (.disassoc st.addr) else s2
      (({ s3 with stations := Table.drop s3.stations i }).recompute h).drainCheck h

end Sys2Proof.Machine
end

