-- ==== Sys2Proof/Machine/Roam.lean ====
section
/-!
DEFINITION. The Roam Engine's scorer, decision to move and start of a handover (R63–R69).
-/
namespace Sys2Proof.Machine

/-- The zone term of a station at a head (R63). -/
def State.zoneTerm (s : State) (st : Station) (h : HeadId) : Int :=
  match (st.pass.bind s.pass).bind Pass.cached with
  | none => 0
  | some z => if h ∈ s.zoneHeads z then 6 else -10

/-- The score of a station at a head where its clamped RSSI is `rssi` (R64). -/
def State.score (s : State) (st : Station) (h : HeadId) (rssi : Int) : Int :=
  rssi + s.zoneTerm st h - s.penalty h

/-- The candidates of a weighing at a current head: those in its neighbour list, other than itself, whose head is ON
(R66). -/
def State.keptCandidates (s : State) (st : Station) (here : HeadId) : List (HeadId × Int) :=
  st.candidates.filter fun c =>
    c.1 != here && decide (c.1 ∈ (s.head here).neighbours) && (s.head c.1).state == .on

/-- Of two candidates, the one with the higher score, the lower head number on equal scores (R67). -/
def State.better (s : State) (st : Station) (a b : HeadId × Int) : HeadId × Int :=
  let x := s.score st a.1 a.2
  let y := s.score st b.1 b.2
  if x < y ∨ (x = y ∧ b.1 < a.1) then b else a

/-- The best candidate of a weighing, if one is kept (R67). -/
def State.bestCandidate (s : State) (st : Station) (here : HeadId) : Option (HeadId × Int) :=
  match s.keptCandidates st here with
  | [] => none
  | c :: cs => some (cs.foldl (s.better st) c)

/-- The margin test and the dwell test of a candidate against the current head (R67). -/
def State.passesTests (s : State) (st : Station) (here : HeadId) (c : HeadId × Int) : Bool :=
  decide ((s.roam.hysteresis : Int) ≤ s.score st c.1 c.2 - s.score st here st.rssi)
    && decide (s.roam.dwell ≤ s.nowMs - st.dwell)

/-- A handover is started (R69): the station is MOVING, its hold stands last at the target, the target is recomputed, and
OFFER is sent with the 50 ms handover timer started. -/
def State.startHandover (s : State) (i : Nat) (st : Station) (here target : HeadId) (rssi : Int) (o : RoamOrigin) : State :=
  let hold : Hold := ⟨i, here, target, st.res, st.chans, rssi, rateClass rssi, o, s.now + ms 50⟩
  let t := { s.setStation i { st with state := .moving, target := some target } with holds := s.holds ++ [hold] }
  (t.recompute target).send target (.offer st.addr i)

/-- A hold is not admitted: one more refused roam, dwell start now (R68). -/
def State.refuseRoam (s : State) (i : Nat) : State :=
  s.updateStation i fun st => { st with refused := count16 st.refused, dwell := s.nowMs }

/-- The hold admission test for a station at a candidate (R68). -/
def State.admitsStation (s : State) (st : Station) (c : HeadId × Int) : Bool :=
  s.admitsHold c.1 ⟨st.res, st.chans, rateClass c.2⟩

/-- A candidate is tried (R68). -/
def State.tryCandidate (s : State) (i : Nat) (st : Station) (here : HeadId) (c : HeadId × Int) (o : RoamOrigin) : State :=
  if s.admitsStation st c then s.startHandover i st here c.1 c.2 o else s.refuseRoam i

/-- A weighing made by report or drain of a station in ASSOC or SEATED; a DRAINING current head waives the margin and
dwell tests and gives the origin DRAIN (R65–R68, R83, R84). -/
def State.weigh (s : State) (i : Nat) : State :=
  match s.station i with
  | none => s
  | some st =>
    match st.state, st.current with
    | .assoc, some here | .seated, some here =>
      match s.bestCandidate st here with
      | none => s
      | some c =>
        if (s.head here).state = .draining then s.tryCandidate i st here c .drain
        else if s.passesTests st here c then s.tryCandidate i st here c .report
        else s
    | _, _ => s

end Sys2Proof.Machine
end

