-- ==== Sys2Proof/Machine/SeatLinks.lean ====
section
/-!
DEFINITION. Frames and timers of the Seat Link Controller: hand-on, announce, heartbeat, supervision, setup done, start timer,
head fault and stop (R1, R2, R4–R7, R14–R16).
-/
namespace Sys2Proof.Machine

/-- What a command gives: a next state, with the notices of its work offered to the outbound queue. -/
abbrev Result := Host.Outcome State Fault Refusal

/-- An event ends: its notices are offered (R190). -/
def State.done (s : State) : Result := .next s.flush

/-! ## Hand-on -/

/-- A frame of a kind other than ANNOUNCE, HEARTBEAT and ASSOC-REQ from a head: in CONFIG, or from a head in ABSENT or
FAULT, it is discarded and counted; else it is handed on (R2). -/
def State.handOn (s : State) (h : HeadId) (work : State → State) : State :=
  if s.part = .config ∨ !(s.head h).reachable then s.discard (linkOf h) else work s

/-! ## Entering FAULT and DARK -/

/-- Every member of a head with no handover in flight goes to LAPSED, in ascending station index (R6, step 2, log 16). -/
def State.loseIdleMembers (s : State) (h : HeadId) : State :=
  ((s.members h).filter fun i => (s.holdOf i).isNone).foldl State.lapse s

/-- The holds that a condition picks, in ascending station index. -/
def State.holdsPicked (s : State) (pick : Hold → Bool) : List Hold :=
  s.stations.filterMap fun p => (s.holdOf p.1).filter pick

/-- The members, holds and departing holds of a head that is lost, and its account (R6, steps 2 to 5; R16). -/
def State.loseHead (s : State) (h : HeadId) : State :=
  let s2 := s.loseIdleMembers h
  let s3 := (s2.holdsPicked fun x => x.target == h).foldl State.abortTargetLost s2
  let s4 := (s3.holdsPicked fun x => x.source == h).foldl State.abortSourceLost s3
  s4.setHead h (s4.head h).closed

/-- A head enters FAULT (R6). The state is recorded first, so no frame is sent to the head in what follows. -/
def State.headFault (s : State) (h : HeadId) (r : FaultReason) : State :=
  let s1 := s.setHead h { s.head h with state := .fault, startTimer := none, supervision := none }
  (s1.loseHead h).note (.head h (.fault r) .fault)

/-- A head's supervision timer is started or restarted with the miss count at 0 (R4, R5). -/
def State.hearHead (s : State) (h : HeadId) : State :=
  s.setHead h { s.head h with miss := 0, supervision := some (s.now + ms 250) }

/-- A head enters DARK on being heard, with its setup kept (R4, R5). -/
def State.headToDark (s : State) (h : HeadId) : State :=
  (s.setHead h { s.head h with state := .dark }).hearHead h

/-! ## Meanings -/

/-- ANNOUNCE (R4). -/
def execAnnounce (h : HeadId) (s : State) : Result :=
  State.done <|
    match (s.head h).state with
    | .absent => s.headToDark h
    | .dark => s.hearHead h
    | .fault => s.headToDark h
    | .starting | .on | .draining =>
      let t := s.headFault h .restarted
      t.setHead h { t.head h with miss := 0 }

/-- HEARTBEAT (R5). -/
def execHeartbeat (h : HeadId) (s : State) : Result :=
  State.done <|
    match (s.head h).state with
    | .absent => s.headToDark h
    | .fault => s.headToDark h
    | .dark | .starting | .on | .draining => s.hearHead h

/-- The expiry of a running supervision timer (R5). -/
def State.missHeartbeat (s : State) (h : HeadId) : State :=
  let m := countUp 3 (s.head h).miss
  if m < 3 then s.setHead h { s.head h with miss := m, supervision := some (s.now + ms 250) }
  else
    let t := s.setHead h { s.head h with miss := m, supervision := none }
    match (s.head h).state with
    | .dark => t.setHead h { t.head h with state := .absent }
    | .starting | .on | .draining => t.headFault h .missed
    | .absent | .fault => t

/-- Expiry of a head's supervision timer (R5); a stopped timer does not expire (log 2). -/
def execSupervisionTimerExpiry (h : HeadId) (s : State) : Result :=
  State.done <|
    match (s.head h).supervision with
    | none => s
    | some due => (s.expireAt due).missHeartbeat h

/-- SETUP-DONE (R14): from a head in STARTING it brings the head to ON; from DARK, ON or DRAINING it has no effect. -/
def execSetupDone (h : HeadId) (s : State) : Result :=
  State.done <| s.handOn h fun s =>
    if (s.head h).state = .starting then
      ((s.setHead h { s.head h with state := .on, startTimer := none }).openAccount h).note (.head h .started .on)
    else s

/-- Expiry of a head's start timer with the head still in STARTING (R14); a stopped timer does not expire (log 2). -/
def execStartTimerExpiry (h : HeadId) (s : State) : Result :=
  State.done <|
    match (s.head h).startTimer with
    | none => s
    | some due =>
      let t := s.expireAt due
      if (t.head h).state = .starting then t.headFault h .startTimeout
      else t.setHead h { t.head h with startTimer := none }

/-- A seat-link frame that fails R1's checks is discarded and counted (R1, log 29). -/
def execSeatLinkFrameDiscarded (l : LinkId) (s : State) : Result := State.done (s.discard l)

end Sys2Proof.Machine
end

