-- ==== Sys2Proof/Machine/Stations.lean ====
section
/-!
DEFINITION. Station frames and the lapse timer: association, departure, loss, reports and subscriptions (R22–R29, R33–R37).
-/
namespace Sys2Proof.Machine

/-! ## Association -/

/-- ASSOC-REQ is declined with a reason (section 2.3). -/
def State.declineAssoc (s : State) (h : HeadId) (addr : StationAddress) (c : Code) : State := s.send h (.decline addr c)

/-- A new record, as a new association fills it (R24). -/
def newStation (h : HeadId) (addr : StationAddress) (rssi : Int) (res now : Nat) : Station where
  addr := addr
  state := .assoc
  current := some h
  target := none
  rate := rateClass rssi
  rssi := clampRssi rssi
  candidates := []
  res := res
  capped := false
  pass := none
  chans := 0
  dwell := now
  lapse := none
  handovers := 0
  refused := 0

/-- A new association (R24). -/
def State.associate (s : State) (h : HeadId) (addr : StationAddress) (rssi : Int) : State :=
  match Table.lowestFree s.stations 4096 with
  | none => s.declineAssoc h addr .full
  | some i =>
    if 64 ≤ s.crowd h then s.declineAssoc h addr .full
    else if s.admitsMember h s.unbound then
      ((s.setStation i (newStation h addr rssi s.unbound s.nowMs)).recompute h).send h (.accept addr i)
    else s.declineAssoc h addr .airtime

/-- A station heard at a head by ASSOC-REQ: current head, RSSI and class from the request, last candidates emptied, dwell
start now (R25, R26). -/
def Station.arrive (st : Station) (h : HeadId) (rssi : Int) (now : Nat) : Station :=
  { st with
    current := some h, rssi := clampRssi rssi, rate := rateClass rssi, candidates := [], dwell := now }

/-- A return of a LAPSED record (R25). -/
def State.returnStation (s : State) (h : HeadId) (i : Nat) (st : Station) (rssi : Int) : State :=
  if 64 ≤ s.crowd h then s.declineAssoc h st.addr .full
  else if s.admitsMember h s.unbound then
    let st' := { st.arrive h rssi s.nowMs with state := st.standing, res := s.unbound, lapse := none }
    let t := (s.setStation i st').recompute h
    let u := if st.pass.isSome then t.settle i else t
    u.send h (.accept st.addr i)
  else s.declineAssoc h st.addr .airtime

/-- A direct move of a member of head g to head h (R26). -/
def State.directMove (s : State) (g h : HeadId) (i : Nat) (st : Station) (rssi : Int) : State :=
  if 64 ≤ s.crowd h then s.declineAssoc h st.addr .full
  else if s.admitsMember h st.res then
    let t := ((s.setStation i (st.arrive h rssi s.nowMs)).send g (.disassoc st.addr)).send h (.accept st.addr i)
    ((t.recompute g).recompute h).drainCheck g
  else s.declineAssoc h st.addr .airtime

/-- The checks of an ASSOC-REQ, in R23's order. -/
def State.assocRequest (s : State) (h : HeadId) (addr : StationAddress) (rssi : Int) : State :=
  if s.part = .config then s.declineAssoc h addr .state
  else
    match s.lookupStation addr with
    | none =>
      if (s.head h).state = .on then s.associate h addr rssi else s.declineAssoc h addr .state
    | some i =>
      match s.station i with
      | none => s
      | some st =>
        if st.state = .moving then s.declineAssoc h addr .busy
        else if st.current = some h then s.send h (.accept addr i)
        else if (s.head h).state = .on then
          match st.current with
          | none => s.returnStation h i st rssi
          | some g => s.directMove g h i st rssi
        else s.declineAssoc h addr .state

/-- ASSOC-REQ (R23): handed on in CONFIG too; from a head in ABSENT or FAULT it is discarded and counted (R2, log 25). -/
def execAssocReq (h : HeadId) (addr : StationAddress) (rssi : Int) (s : State) : Result :=
  State.done <| if (s.head h).reachable then s.assocRequest h addr rssi else s.discard (linkOf h)

/-! ## Frames that name a member -/

/-- A station frame is acted on only for a member of the sending head (R22). -/
def State.forMember (s : State) (h : HeadId) (addr : StationAddress) (work : Nat → Station → State) : State :=
  match s.lookupStation addr with
  | none => s
  | some i =>
    match s.station i with
    | none => s
    | some st => if st.current = some h then work i st else s

/-- DISASSOC (R27): from the current head, or from the target head of a MOVING station, the record is vacated with no
DISASSOC back, and with no CANCEL to a target it came from (R78). -/
def execDisassoc (h : HeadId) (addr : StationAddress) (s : State) : Result :=
  State.done <| s.handOn h fun s =>
    match s.lookupStation addr with
    | none => s
    | some i =>
      match s.station i with
      | none => s
      | some st =>
        if st.current = some h then s.vacate i false true
        else if st.state = .moving ∧ st.target = some h then s.vacate i false false
        else s

/-- LOST (R28): the station lapses, and the head it leaves is recomputed and makes its drain check. -/
def execLost (h : HeadId) (addr : StationAddress) (s : State) : Result :=
  State.done <| s.handOn h fun s => s.forMember h addr fun i _ => ((s.loseMember i).recompute h).drainCheck h

/-- The candidates a report stores: those at a head that exists, the first of each head, each RSSI clamped (R34). -/
def reportCandidates (cands : List (Nat × Int)) : List (HeadId × Int) :=
  cands.foldl (fun kept c =>
    match headId? c.1 with
    | none => kept
    | some k => if kept.any fun x => x.1 == k then kept else kept ++ [(k, clampRssi c.2)]) []

/-- A report's RSSI and rate class are stored, and the current head is recomputed if the class has changed (R33). -/
def State.takeRssi (s : State) (h : HeadId) (i : Nat) (st : Station) (rssi : Int) : State :=
  let t := s.updateStation i fun x => { x with rssi := clampRssi rssi, rate := rateClass rssi }
  if rateClass rssi = st.rate then t else t.recompute h

/-- A STATION-REPORT of a member (R33, R34): for a station in ASSOC or SEATED the candidates are stored and the station is
weighed. -/
def State.report (s : State) (h : HeadId) (rssi : Int) (cands : List (Nat × Int)) (i : Nat) (st : Station) : State :=
  let t := s.takeRssi h i st rssi
  if st.state = .assoc ∨ st.state = .seated then
    (t.updateStation i fun x => { x with candidates := reportCandidates cands }).weigh i
  else t

/-- STATION-REPORT (R33); a body of more than 4 candidates is over-long and discarded by the link side (section 2.5, R1). -/
def execStationReport (h : HeadId) (addr : StationAddress) (rssi : Int) (cands : List (Nat × Int)) (s : State) : Result :=
  State.done <|
    if 4 < cands.length then s.discard (linkOf h)
    else s.handOn h fun s => s.forMember h addr (s.report h rssi cands)

/-! ## Subscriptions -/

/-- A JOIN-REQ of a member (R36). A channel number outside 0–7 is in no permitted set. -/
def State.join (s : State) (h : HeadId) (chan : Nat) (i : Nat) (st : Station) : State :=
  let answer := fun (t : State) (c : Code) => t.send h (.joinAnswer st.addr chan c)
  if p : chan < 8 then
    let c : Chan := ⟨chan, p⟩
    if !hasChan (s.permitted st) c then answer s .denied
    else if st.state = .moving then answer s .busy
    else if hasChan st.chans c then answer s .ok
    else answer ((s.setStation i { st with chans := st.chans ||| oneChan c }).recompute h) .ok
  else answer s .denied

/-- JOIN-REQ (R36). -/
def execJoinReq (h : HeadId) (addr : StationAddress) (chan : Nat) (s : State) : Result :=
  State.done <| s.handOn h fun s => s.forMember h addr (s.join h chan)

/-- A LEAVE-REQ of a member (R37): a MOVING station's hold follows, and its target is recomputed too. -/
def State.leave (s : State) (h : HeadId) (chan : Nat) (i : Nat) (st : Station) : State :=
  let left :=
    if p : chan < 8 then
      let c : Chan := ⟨chan, p⟩
      if hasChan st.chans c then (s.keepChans i (~~~ oneChan c)).recomputeBoth i else s
    else s
  left.send h (.leaveAnswer st.addr chan .ok)

/-- LEAVE-REQ (R37). -/
def execLeaveReq (h : HeadId) (addr : StationAddress) (chan : Nat) (s : State) : Result :=
  State.done <| s.handOn h fun s => s.forMember h addr (s.leave h chan)

/-! ## Lapse timer -/

/-- Expiry of a LAPSED station's lapse timer (R29); a stopped timer does not expire (log 2). -/
def execLapseTimerExpiry (i : Nat) (s : State) : Result :=
  State.done <|
    match (s.station i).bind Station.lapse with
    | none => s
    | some due => (s.expireAt due).vacate i true true

end Sys2Proof.Machine
end

