-- ==== Sys2Proof/Machine/Handover.lean ====
section
/-!
DEFINITION. READY, DECLINE and the handover timer (R70–R75), and the window timer (R53).
-/
namespace Sys2Proof.Machine

/-- The record and hold a READY or DECLINE is matched with: the record at the index it names is MOVING, holds the address
it names, has the sending head as its target, and has its handover timer running, that is, has its hold (R70). -/
def State.matched (s : State) (h : HeadId) (addr : StationAddress) (i : Nat) : Option (Station × Hold) :=
  match s.station i, s.holdOf i with
  | some st, some x => if st.state = .moving ∧ st.addr = addr ∧ st.target = some h then some (st, x) else none
  | _, _ => none

/-- A READY or DECLINE that is not matched: CANCEL to the sending head, whose late count rises (R75). -/
def State.lateAnswer (s : State) (h : HeadId) (addr : StationAddress) (i : Nat) : State :=
  let t := s.setHead h { s.head h with late := count16 (s.head h).late }
  t.send h (.cancel addr i)

/-- A moved station's record as it joins its target (R71, R72). -/
def Station.landed (st : Station) (x : Hold) (now : Nat) : Station :=
  { st with
    state := st.standing, current := some x.target, target := none, rssi := x.rssi, rate := x.rate, candidates := []
    res := x.res, handovers := count16 st.handovers, dwell := now }

/-- A matched READY completes the handover (R71, R72). -/
def State.land (s : State) (i : Nat) (st : Station) (x : Hold) : State :=
  let t := ((s.send x.source (.release st.addr)).setStation i (st.landed x s.nowMs)).dropHold i
  let u := ((t.recompute x.source).recompute x.target).settle i
  (u.drainCheck x.source).note (.roam i .moved x.source x.target x.origin)

/-- READY (R70–R72, R75). -/
def execReady (h : HeadId) (addr : StationAddress) (i : Nat) (s : State) : Result :=
  State.done <| s.handOn h fun s =>
    match s.matched h addr i with
    | some (st, x) => s.land i st x
    | none => s.lateAnswer h addr i

/-- DECLINE (R73, R75). -/
def execDecline (h : HeadId) (addr : StationAddress) (i : Nat) (s : State) : Result :=
  State.done <| s.handOn h fun s =>
    match s.matched h addr i with
    | some (_, x) => s.undoHandover x .declined
    | none => s.lateAnswer h addr i

/-- Expiry of a hold's handover timer (R74); a hold that is gone has no timer (log 2). -/
def execHandoverTimerExpiry (i : Nat) (s : State) : Result :=
  State.done <|
    match s.holdOf i with
    | none => s
    | some x => (((s.expireAt x.due).cancel x).undoHandover x .timeout)

/-- The capped members of a head are retried in ascending station index (R53, first step). -/
def State.retryCapped (s : State) (h : HeadId) : State :=
  ((s.stations.filter fun p => p.2.current == some h && p.2.capped).map Prod.fst).foldl State.settle s

/-- Expiry of a head's window timer: the timer restarts, capped members are retried, shed channels are restored (R53,
R54). -/
def execWindowTimerExpiry (h : HeadId) (s : State) : Result :=
  State.done <|
    match (s.head h).account with
    | none => s
    | some a =>
      let t := s.expireAt a.window
      let u := t.setHead h { t.head h with account := some { a with window := t.now + ms 100 } }
      (u.retryCapped h).restoreShed h

end Sys2Proof.Machine
end

