-- ==== Sys2Proof/Machine/Binding.lean ====
section
/-!
DEFINITION. BIND-REQ and UNBIND-REQ (R123–R134), and the suspect flag (R95).
-/
namespace Sys2Proof.Machine

/-- A pass's counts of refusals changed, and the suspect flag set if a condition of R95 now holds; the notice goes with the
flag's change from clear to set. -/
def State.suspectIf (s : State) (p : Nat) (q : Pass) (reached : Bool) (cause : SuspectCause) : State :=
  if reached ∧ !q.suspect then (s.setPass p { q with suspect := true }).note (.suspect p q.number cause)
  else s.setPass p q

/-- What an OK or OK_OFFZONE answer carries: pass index, tier, permitted set (R124). -/
def State.bindDetail (s : State) (i p : Nat) : Option BindDetail :=
  match s.station i, s.pass p with
  | some st, some q => some ⟨p, q.tier, s.permitted st⟩
  | _, _ => none

/-- The off-zone test of a bind or transfer at a head (R129). -/
def State.bindCode (s : State) (h : HeadId) (q : Pass) : Code :=
  match q.cached with
  | none => .ok
  | some z => if h ∈ s.zoneHeads z then .ok else .okOffzone

/-- The station side of a bind: SEATED with the pass, then the reservation set toward the tier value (R128). -/
def State.bindStation (s : State) (i p : Nat) (st : Station) : State :=
  (s.setStation i { st with state := .seated, pass := some p }).settle i

/-- A bind of an ADMITTED pass (R127, R128). -/
def State.bind (s : State) (i p : Nat) (st : Station) (q : Pass) : State :=
  ((s.setPass p { q with state := .seated, station := some i }).censusMove q.cached (some .admitted)
    (some .seated)).bindStation i p st

/-- A transfer of a SEATED pass from its LAPSED holder, who is trimmed with no recompute (R130, R131). -/
def State.transfer (s : State) (i p holder : Nat) (st : Station) (q : Pass) : State :=
  let t := (s.setPass p { q with station := some i }).updateStation holder fun x => { x with pass := none }
  (t.trim holder).bindStation i p st

/-- A BIND-REQ that finds the pass bound to a live station (R132). -/
def State.conflict (s : State) (p : Nat) (q : Pass) : State :=
  if q.conflicts < 3 then
    let q' := { q with conflicts := q.conflicts + 1 }
    s.suspectIf p q' (decide (q'.conflicts = 3)) .conflict
  else s

/-- A BIND-REQ of a member, in R125's order of checks. -/
def State.bindRequest (s : State) (h : HeadId) (n : PassNumber) (i : Nat) (st : Station) : State :=
  let answer := fun (t : State) (c : Code) (d : Option BindDetail) => t.send h (.bindAnswer st.addr n c d)
  if st.state = .moving then answer s .busy none
  else
    match s.lookupPass n with
    | none => answer s .unknown none
    | some p =>
      match s.pass p with
      | none => answer s .unknown none
      | some q =>
        match q.state with
        | .void => answer s .void none
        | .issued | .out => answer s .notInside none
        | .admitted =>
          if st.pass.isSome then answer s .bound none
          else
            let t := s.bind i p st q
            answer t (t.bindCode h q) (t.bindDetail i p)
        | .seated =>
          if st.pass.isSome && st.pass != some p then answer s .bound none
          else if q.station = some i then answer s .ok (s.bindDetail i p)
          else
            match q.station with
            | none => answer s .duplicate none
            | some holder =>
              if (s.station holder).map Station.state = some .lapsed then
                let t := s.transfer i p holder st q
                answer t (t.bindCode h q) (t.bindDetail i p)
              else answer (s.conflict p q) .duplicate none

/-- BIND-REQ (R125). -/
def execBindReq (h : HeadId) (addr : StationAddress) (n : PassNumber) (s : State) : Result :=
  State.done <| s.handOn h fun s => s.forMember h addr (s.bindRequest h n)

/-- An UNBIND-REQ of a member (R133, R134). -/
def State.unbindRequest (s : State) (h : HeadId) (_i : Nat) (st : Station) : State :=
  match st.pass with
  | none => s.send h (.unbindAnswer st.addr none .ok)
  | some p => (s.unbind p .admitted).send h (.unbindAnswer st.addr ((s.pass p).map Pass.number) .ok)

/-- UNBIND-REQ (R133). -/
def execUnbindReq (h : HeadId) (addr : StationAddress) (s : State) : Result :=
  State.done <| s.handOn h fun s => s.forMember h addr (s.unbindRequest h)

end Sys2Proof.Machine
end

