-- ==== Sys2Proof/Machine/HeadRequests.lean ====
section
/-!
DEFINITION. The requests of the Seat Link Controller: HEAD-SETUP, HEAD-CONTROL, HEAD-LIMITS, HEAD-QUERY, HEAD-STATS (R8–R18).
-/
namespace Sys2Proof.Machine

/-! ## Setup -/

/-- Whether a radio channel and power step are in their ranges (R8). -/
def radioOk (radio step : Nat) : Bool := decide (1 ≤ radio) && decide (radio ≤ 200) && decide (step ≤ 15)

/-- Whether a cap and floor are in their ranges (R8, R17). -/
def limitsOk (cap floor : Nat) : Bool := decide (10000 ≤ cap) && decide (cap ≤ 90000) && decide (floor ≤ 7)

/-- A list of head numbers carried as numbers, if each is one of 0–95. -/
def headIds? (hs : List Nat) : Option (List HeadId) := hs.mapM headId?

/-- The neighbour list a part 3 carries for a head, if it holds at most 8 head numbers, none equal to the head and none
repeated (R8). -/
def neighboursOk (h : HeadId) (hs : List Nat) : Option (List HeadId) :=
  match headIds? hs with
  | none => none
  | some ks => if ks.length ≤ 8 ∧ h ∉ ks ∧ ks.Nodup then some ks else none

/-- Whether a head is STARTING, ON or DRAINING. -/
def Head.live (x : Head) : Bool := x.state == .starting || x.state == .on || x.state == .draining

/-- HEAD-SETUP part 1 (R8, R9). -/
def execHeadSetupPart1 (f : Req) (head radio step : Nat) (s : State) : Result :=
  .next <| s.serve f 0x07 fun s =>
    match headId? head with
    | none => .refuse s .range
    | some h =>
      if (s.head h).live then .refuse s .state
      else if radioOk radio step then
        ⟨s.setHead h { s.head h with radio := some radio, step := some step, complete := false, seqPos := 1 }, .ok, .none⟩
      else .refuse s .range

/-- HEAD-SETUP part 2 (R8, R10, R55). -/
def execHeadSetupPart2 (f : Req) (head cap floor : Nat) (s : State) : Result :=
  .next <| s.serve f 0x07 fun s =>
    match headId? head with
    | none => .refuse s .range
    | some h =>
      if (s.head h).seqPos ≠ 1 then .refuse s .state
      else if limitsOk cap floor then
        ⟨s.setHead h { s.head h with cap := cap, floor := floor, complete := true, seqPos := 2 }, .ok, .none⟩
      else .refuse s .range

/-- HEAD-SETUP part 3 (R8, R10). -/
def execHeadSetupPart3 (f : Req) (head : Nat) (neighbours : List Nat) (s : State) : Result :=
  .next <| s.serve f 0x07 fun s =>
    match headId? head with
    | none => .refuse s .range
    | some h =>
      if (s.head h).seqPos ≠ 2 then .refuse s .state
      else
        match neighboursOk h neighbours with
        | none => .refuse s .range
        | some ks => ⟨s.setHead h { s.head h with neighbours := ks, seqPos := 3 }, .ok, .none⟩

/-- The end of a head's setup sequence: at position 2 the neighbour list becomes the default (R11). -/
def State.endSequence (s : State) (h : HeadId) : State :=
  s.setHead h { s.head h with
    neighbours := if (s.head h).seqPos = 2 then powerOnNeighbours h else (s.head h).neighbours
    seqPos := 0 }

/-- A request naming a head: RANGE outside 0–95, else its work after the head's setup sequence is ended (R11). -/
def State.withHead (s : State) (head : Nat) (work : HeadId → State → Served) : Served :=
  match headId? head with
  | none => .refuse s .range
  | some h => work h (s.endSequence h)

/-! ## Control -/

/-- START (R13): SETUP is sent and the start timer started. -/
def State.startHead (s : State) (h : HeadId) : Served :=
  let x := s.head h
  if s.part = .run ∧ x.state = .dark ∧ x.complete then
    let t := s.setHead h { x with state := .starting, startTimer := some (s.now + ms 500) }
    ⟨t.send h (.setup x.radio x.step x.neighbours), .ok, .none⟩
  else .refuse s .state

/-- DRAIN (R15): each member in ASSOC or SEATED is weighed in ascending station index (R83), then the drain check is
made. -/
def State.drainHead (s : State) (h : HeadId) : Served :=
  if (s.head h).state = .on then
    let t := s.setHead h { s.head h with state := .draining }
    ⟨((t.members h).foldl State.weigh t).drainCheck h, .ok, .none⟩
  else .refuse s .state

/-- STOP (R16): the state is recorded first; members and holds go as at a head fault; no HEAD notice is produced. -/
def State.stopHead (s : State) (h : HeadId) : Served :=
  if (s.head h).live then
    ⟨(s.setHead h { s.head h with state := .dark, startTimer := none }).loseHead h, .ok, .none⟩
  else .refuse s .state

/-- HEAD-CONTROL START (R12, R13). An action not among the three draws RANGE after the sequence is ended (log 4). -/
def execHeadControlStart (f : Req) (head : Nat) (known : Bool) (s : State) : Result :=
  .next <| s.serve f 0x08 fun s => s.withHead head fun h t => if known then t.startHead h else .refuse t .range

/-- HEAD-CONTROL DRAIN (R12, R15). -/
def execHeadControlDrain (f : Req) (head : Nat) (known : Bool) (s : State) : Result :=
  .next <| s.serve f 0x08 fun s => s.withHead head fun h t => if known then t.drainHead h else .refuse t .range

/-- HEAD-CONTROL STOP (R12, R16). -/
def execHeadControlStop (f : Req) (head : Nat) (known : Bool) (s : State) : Result :=
  .next <| s.serve f 0x08 fun s => s.withHead head fun h t => if known then t.stopHead h else .refuse t .range

/-! ## Limits and queries -/

/-- HEAD-LIMITS (R17, R55), the state of the head before the values (log 17). -/
def execHeadLimits (f : Req) (head cap floor : Nat) (s : State) : Result :=
  .next <| s.serve f 0x09 fun s => s.withHead head fun h t =>
    if (t.head h).live then
      if limitsOk cap floor && decide (resSum (t.parties h) ≤ cap) then
        ⟨(t.setHead h { t.head h with cap := cap, floor := floor }).recompute h, .ok, .none⟩
      else .refuse t .range
    else .refuse t .state

/-- What HEAD-QUERY reports (R18). -/
def State.headReport (s : State) (h : HeadId) : HeadReport :=
  let x := s.head h
  { head := h, link := h.val / 4, position := h.val % 4, state := x.state, radio := x.radio, step := x.step
    complete := x.complete, seqPos := x.seqPos, neighbours := x.neighbours, cap := x.cap, floor := x.floor
    miss := x.miss, members := (s.members h).length, holds := (s.holdsAt h).length, late := x.late
    discards := s.discards[linkOf h] }

/-- What HEAD-STATS reports (R18): zero and empty for a head with no open account. -/
def State.headFigures (s : State) (h : HeadId) : HeadFigures :=
  let x := s.head h
  match x.account with
  | none => ⟨0, 0, [], [], x.late⟩
  | some a =>
    { committed := a.committed
      venue := a.venue
      counted := (List.finRange 8).filterMap fun c =>
        match a.entries[c] with
        | .counted k cost => some (c, k, cost)
        | _ => none
      shed := (List.finRange 8).filter fun c =>
        match a.entries[c] with
        | .shed _ _ => true
        | _ => false
      late := x.late }

/-- HEAD-QUERY (R18). -/
def execHeadQuery (f : Req) (head : Nat) (s : State) : Result :=
  .next <| s.serve f 0x0A fun s => s.withHead head fun h t => ⟨t, .ok, .head (t.headReport h)⟩

/-- HEAD-STATS (R18). -/
def execHeadStats (f : Req) (head : Nat) (s : State) : Result :=
  .next <| s.serve f 0x22 fun s => s.withHead head fun h t => ⟨t, .ok, .figures (t.headFigures h)⟩

end Sys2Proof.Machine
end

