-- ==== Sys2Proof/Machine/Cue.lean ====
section
/-!
DEFINITION. The Cue Controller's entries: requests, starts and choices (R175–R181, R184).
-/
namespace Sys2Proof.Machine

/-- The state with a clip's use count raised by 1 (R143). -/
def State.use (s : State) (clip : Nat) : State := s.updateClip clip fun x => { x with useCount := x.useCount + 1 }

/-- The state with a clip's use count lowered by 1 (R143). -/
def State.unuse (s : State) (clip : Nat) : State := s.updateClip clip fun x => { x with useCount := x.useCount - 1 }

/-- A channel whose current entry has changed: a read outstanding is no longer the current entry's (R166). -/
def Channel.readLost (x : Channel) : Channel := { x with read := x.read.map fun r => { r with valid := false } }

/-- Whether a pending entry may start: origin HOST, level 5, or the channel enabled (R177, step 2). -/
def Channel.startable (x : Channel) (l : Level) (p : Pending) : Bool :=
  p.origin == .host || l == venueLevel || x.enabled

/-- Whether a level is above every in-service level of a channel; it is for an IDLE channel (R177, step 3). -/
def Channel.above (x : Channel) (l : Level) : Bool :=
  match x.currentLevel with
  | none => true
  | some m => decide (m < l)

/-- The pending entry at a level becomes the in-service entry there, at its base (R178). -/
def Channel.promote (x : Channel) (l : Level) (p : Pending) : Channel :=
  { x.readLost with
    pending := x.pending.set l none
    inService := x.inService.set l (some ⟨p.clip, p.base, p.count, p.loop, p.base⟩) }

/-- The highest startable pending entry above every in-service level (R175, R179). -/
def Channel.nextPending (x : Channel) : Option (Level × Pending) :=
  levelsDown.findSome? fun l =>
    match x.waiting l with
    | none => none
    | some p => if x.startable l p && x.above l then some (l, p) else none

/-- A pending entry starts at an arrival or at an enable (R178): on an IDLE channel the pace timer starts and every open
account is recomputed; on a RUN channel a move to the venue level is reported, and then a PREEMPT notice produced (log 49). -/
def State.startEntry (s : State) (c : Chan) (l : Level) (p : Pending) : State :=
  let x := s.channel c
  match x.currentLevel with
  | none => (s.setChannel c { x.promote l p with timer := some ⟨s.now, 1⟩ }).recomputeAll
  | some m =>
    let t := (s.setChannel c (x.promote l p)).reportLevel c m l
    match x.entry m with
    | none => t
    | some e => t.note (.preempt c l p.clip m e.cursor)

/-- The entry of a request is made pending at its level, superseding one that stands there (R177, step 1). -/
def State.makePending (s : State) (c : Chan) (l : Level) (p : Pending) : State :=
  let x := s.channel c
  match x.waiting l with
  | none => (s.use p.clip).setChannel c { x with pending := x.pending.set l (some p) }
  | some old =>
    ((s.use p.clip).unuse old.clip).setChannel c
      { x with pending := x.pending.set l (some p), superseded := count16 x.superseded }

/-- Whether a request at a level starts at its arrival (R177, steps 2 and 3). -/
def Channel.startsNow (x : Channel) (l : Level) (p : Pending) : Bool := x.startable l p && x.above l

/-- A request for an entry at a level on a channel (R177). -/
def State.requestEntry (s : State) (c : Chan) (l : Level) (p : Pending) : State :=
  let t := s.makePending c l p
  if (s.channel c).startsNow l p then t.startEntry c l p else t

/-- A channel's pace timer and outstanding read as it goes IDLE: the timer stops, and the read runs on to be discarded
(R160). -/
def Channel.idled (x : Channel) : Channel := { x.readLost with timer := none }

/-- What the channel does next, after its current entry at a level has been removed (R179): a pending entry starts, a
suspended one resumes, or the channel goes IDLE. -/
def State.choose (s : State) (c : Chan) (before : Level) : State :=
  let x := s.channel c
  match x.nextPending with
  | some (l, p) => (s.setChannel c (x.promote l p)).reportLevel c before l
  | none =>
    match x.currentLevel with
    | some m => (s.setChannel c x.readLost).reportLevel c before m
    | none => (s.setChannel c x.idled).recomputeAll

/-- A channel newly enabled weighs its pending entries (R175). -/
def State.weighPending (s : State) (c : Chan) : State :=
  match (s.channel c).nextPending with
  | none => s
  | some (l, p) => s.startEntry c l p

/-- The auto-cue of a clip's opening: a request of origin CUE on each channel of its program's set (R181), in ascending channel
number (log 45). -/
def State.autoCue (s : State) (clip : Nat) (program : Program) : State :=
  let row := s.programs[program]
  ((List.finRange 8).filter fun c => hasChan row.auto c).foldl
    (fun t c => t.requestEntry c row.level ⟨clip, 0, none, row.loop, .cue⟩) s

end Sys2Proof.Machine
end

