-- ==== Sys2Proof/Machine/ClipStore.lean ====
section
/-!
DEFINITION. The Clip Store and the hold queues: slots, eviction, held entries, clip states, drain (R138, R141–R145, R148,
R151, R154, R155).
-/
namespace Sys2Proof.Machine

/-! ## Slots -/

/-- The number of free slots (R144). -/
def State.freeSlots (s : State) : Nat := 16384 - s.slots.length

/-- The number of vacant clip records. -/
def State.vacantClips (s : State) : Nat := 64 - s.clips.length

/-- Slots return to the pool (R144). -/
def State.freeSlotList (s : State) (xs : List Nat) : State := { s with slots := s.slots.filter fun p => !xs.contains p.1 }

/-- A payload is written into a slot, which is then in use (R144). -/
def State.fillSlot (s : State) (slot : Nat) (payload : List Byte) : State :=
  { s with
    slots := Table.put s.slots slot payload.length
    dram := Memory.writeBytes s.dram (slotAddress slot) payload }

/-! ## Vacating and eviction -/

/-- A clip's record is made vacant: its slots return to the pool and it leaves the age order (R141, R145). -/
def State.vacateClip (s : State) (i : Nat) : State :=
  match s.clip i with
  | none => s
  | some k =>
    { s.freeSlotList k.segments with clips := Table.drop s.clips i, ages := s.ages.filter fun j => j != i }

/-- Whether a clip may be evicted: READY or DAMAGED, not in use, not pinned, and holding a slot when one is wanted
(R145). -/
def Clip.evictable (k : Clip) (wantSlot : Bool) : Bool :=
  k.state != .filling && k.useCount == 0 && !k.pinned && (!wantSlot || !k.segments.isEmpty)

/-- The oldest clip that may be evicted (R145). -/
def State.evictionChoice (s : State) (wantSlot : Bool) : Option (Nat × Clip) :=
  s.ages.findSome? fun i =>
    match s.clip i with
    | none => none
    | some k => if k.evictable wantSlot then some (i, k) else none

/-- One clip is evicted if one may be: its slots or record become free, with an EVICTED notice (R145). -/
def State.evict (s : State) (wantSlot : Bool) : State :=
  match s.evictionChoice wantSlot with
  | none => s
  | some (i, k) => (s.vacateClip i).note (.clip (.index i) (.evicted k.segments.length))

/-- The state in which a slot is looked for: the pool's if it is non-empty, else after one eviction (R144). -/
def State.roomForSlot (s : State) : State :=
  if (Table.lowestFree s.slots 16384).isSome then s else s.evict true

/-- The state in which a record is looked for at an OPEN: as it is if one is vacant, else after one eviction (R146). -/
def State.roomForClip (s : State) : State :=
  if (Table.lowestFree s.clips 64).isSome then s else s.evict false

/-! ## Held entries -/

/-- The entries of a key held in a port's queue. -/
def State.heldOf (s : State) (p : Port) (k : Key) : List HeldSegment := (s.ingest p).queue.filter fun x => x.key == k

/-- Whether a key has a held entry in either queue. -/
def State.keyHeld (s : State) (k : Key) : Bool := !(s.heldOf .a k).isEmpty || !(s.heldOf .b k).isEmpty

/-- The hold timer of a key stops if the key has no held entry left (R155). -/
def State.stopIfEmpty (s : State) (k : Key) : State :=
  { s with holdTimers := if s.keyHeld k then s.holdTimers else s.holdTimers.filter fun t => t.1 != k }

/-- The entries of a port's queue that a condition picks leave it, their slots return to the pool, and a count of the port
rises by one for each (R154). -/
def State.releaseAt (s : State) (p : Port) (pick : HeldSegment → Bool) (f : Nat → PortCounts → PortCounts) : State :=
  let out := (s.ingest p).queue.filter pick
  (s.updateIngest p fun x => ⟨f out.length x.counts, x.queue.filter fun y => !pick y⟩).freeSlotList
    (out.map HeldSegment.slot)

/-- A count raised several times, saturating. -/
def raise16 (k n : Nat) : Nat := min 65535 (n + k)

/-- Entries are released and counted as released (R154). -/
def State.release (s : State) (k : Key) (pick : HeldSegment → Bool) : State :=
  let count := fun n (c : PortCounts) => { c with released := raise16 n c.released }
  let q := fun x : HeldSegment => x.key == k && pick x
  ((s.releaseAt .a q count).releaseAt .b q count).stopIfEmpty k

/-- Entries are released as duplicates by the drain (R151). -/
def State.releaseDuplicates (s : State) (k : Key) (below : Nat) : State :=
  let count := fun n (c : PortCounts) => { c with duplicate := raise16 n c.duplicate }
  let q := fun x : HeldSegment => x.key == k && decide (x.index < below)
  ((s.releaseAt .a q count).releaseAt .b q count).stopIfEmpty k

/-- Every held entry of a key is released and counted (R154). -/
def State.releaseKey (s : State) (k : Key) : State := s.release k fun _ => true

/-! ## Clip states -/

/-- A FILLING clip becomes DAMAGED: its held entries are released, its timer stops, and a notice is produced (R142). -/
def State.damage (s : State) (i : Nat) (k : Clip) (cause : DamageCause) : State :=
  ((s.updateClip i fun x => { x with state := .damaged }).releaseKey k.key).note
    (.clip (.index i) (.damaged cause k.segments.length))

/-- A segment is dropped and counted as unplaced (R138). -/
def State.dropUnplaced (s : State) (p : Port) : State := s.tally p fun c => { c with unplaced := count16 c.unplaced }

/-- A frame is dropped and counted as foreign (R138), a marker-only one too (log 44). -/
def State.dropForeign (s : State) (p : Port) : State := s.tally p fun c => { c with foreign := count16 c.foreign }

/-- A segment is dropped and counted as a duplicate (R153). -/
def State.dropDuplicate (s : State) (p : Port) : State := s.tally p fun c => { c with duplicate := count16 c.duplicate }

/-- The READY test: a FILLING clip whose last index is known and whose expected index is one above it becomes READY; what
it still holds is released and a notice is produced (R142). -/
def State.readyTest (s : State) (i : Nat) : State :=
  match s.clip i with
  | none => s
  | some k =>
    if k.state = .filling ∧ k.last.map (· + 1) = some k.segments.length then
      ((s.updateClip i fun x => { x with state := .ready }).releaseKey k.key).note
        (.clip (.index i) (.ready k.segments.length))
    else s

/-! ## The drain -/

/-- The held entry of a key that a drain takes next: one at the clip's expected index, in SPLIT from B only once handoff
seen is set (R151). -/
def State.nextHeld (s : State) (k : Clip) : Option (Port × HeldSegment) :=
  let at_ := fun x : HeldSegment => x.key == k.key && x.index == k.segments.length
  match s.portA.queue.find? at_ with
  | some x => some (.a, x)
  | none =>
    if s.mode = .split ∧ !k.handoff then none
    else (s.portB.queue.find? at_).map fun x => (.b, x)

/-- One entry is drained: its slot joins the segment list and the entry leaves its queue (R151). -/
def State.drainOne (s : State) (i : Nat) (p : Port) (x : HeldSegment) : State :=
  (s.updateClip i fun k => { k with segments := k.segments ++ [x.slot] }).updateIngest p
    fun q => { q with queue := q.queue.erase x }

/-- The drain, which takes at most as many entries as both queues hold (R151). -/
def State.drain (i : Nat) : Nat → State → State
  | 0, s => s
  | n + 1, s =>
    match s.clip i with
    | none => s
    | some k =>
      match s.nextHeld k with
      | none => s
      | some (p, x) => State.drain i n (s.drainOne i p x)

/-- After an append: the queues are drained, what lies below the new expected index is released as duplicate, and the
READY test is made (R151). -/
def State.settleClip (s : State) (i : Nat) : State :=
  let t := State.drain i (s.portA.queue.length + s.portB.queue.length) s
  match t.clip i with
  | none => t
  | some k => (t.releaseDuplicates k.key k.segments.length).readyTest i

end Sys2Proof.Machine
end

