-- ==== Sys2Proof/Machine/Playout.lean ====
section
/-!
DEFINITION. The Playout Unit: pace, reads and the arbiter, delivery, underrun, loop and end (R162–R170).
-/
namespace Sys2Proof.Machine

/-! ## Pace -/

/-- When the next expiry of a channel's pace timer falls: floor(n × 100,000 / pace) µs after its start (R162). -/
def PaceTimer.due (t : PaceTimer) (pace : Nat) : Micros := t.started + t.next * 100000 / pace

/-! ## The read arbiter -/

/-- Whether a channel's read waits for the port (R164). -/
def State.waitsRead (s : State) (c : Chan) : Bool := (s.channel c).read.isSome && s.port != .busy c

/-- The channels in the order the arbiter considers them: from 0 up, or from the one after the pointer, wrapping (R165). -/
def State.grantOrder (s : State) : List Chan :=
  match s.arbMode with
  | .fixed => List.finRange 8
  | .rotating => (List.finRange 8).map fun k => s.pointer + 1 + k

/-- The arbiter grants a waiting read when the port is free (R165). -/
def State.grant (s : State) : State :=
  match s.port with
  | .free =>
    match s.grantOrder.find? s.waitsRead with
    | none => s
    | some c => { s with port := .busy c, pointer := c }
  | _ => s

/-- A read of the segment at a cursor is requested for a channel's current entry (R164). -/
def State.requestRead (s : State) (c : Chan) (l : Level) (clip index : Nat) : State :=
  ((s.use clip).setChannel c { s.channel c with read := some ⟨clip, index, l, true⟩ }).grant

/-! ## Serving the current entry -/

/-- Whether a clip has ended at a cursor: READY or DAMAGED, or its last index known and the cursor above it (R163, case
4). -/
def clipEndsAt (k : Clip) (cursor : Nat) : Bool :=
  k.state != .filling || (match k.last with | some n => decide (n < cursor) | none => false)

/-- An underrun: FILLER to every carrying head, and the underrun count rises (R167). -/
def State.underrun (s : State) (c : Chan) (index : Nat) : State :=
  let t := s.deliver c fun rate => .filler c index rate
  t.setChannel c { t.channel c with underruns := count16 (t.channel c).underruns }

/-- An entry at its end without loop is ended (R169): end flag, removal with the clip's use count lowered (R180), the
choice of what comes next, and the END notice with the channel's state after it. -/
def State.endEntry (s : State) (c : Chan) (l : Level) (e : InService) : State :=
  let x := s.channel c
  let t := (s.setChannel c { x with
    endFlags := x.endFlags ||| (1#5 <<< l.val), inService := x.inService.set l none }).unuse e.clip
  let u := t.choose c l
  u.note (.ended c l e.clip (u.channel c).running)

/-- The current entry is served at its cursor by cases 3 to 5 of R163: what to do at case 4 is given. -/
def State.serveAt (s : State) (c : Chan) (l : Level) (e : InService) (k : Clip) (atEnd : State → State) : State :=
  if e.cursor < k.segments.length then s.requestRead c l e.clip e.cursor
  else if clipEndsAt k e.cursor then atEnd s
  else s.underrun c e.cursor

/-- An entry at its end (R168): with loop set its cursor returns to its base and the entry is served again, ended if the
base is itself at the end; else it is ended. -/
def State.atEntryEnd (c : Chan) (l : Level) (e : InService) (k : Clip) (s : State) : State :=
  if e.loop then
    let x := s.channel c
    let e' := { e with cursor := e.base }
    (s.setChannel c { x with inService := x.inService.set l (some e') }).serveAt c l e' k fun t => t.endEntry c l e'
  else s.endEntry c l e

/-- Whether an entry with a count is past it (R163, case 2). -/
def InService.pastCount (e : InService) : Bool :=
  match e.count with
  | none => false
  | some n => decide (e.base + n ≤ e.cursor)

/-- The current entry is served at a pace expiry that finds no read outstanding (R163, cases 2 to 5). -/
def State.serveCurrent (s : State) (c : Chan) : State :=
  match (s.channel c).currentLevel with
  | none => s
  | some l =>
    match (s.channel c).entry l with
    | none => s
    | some e =>
      match s.clip e.clip with
      | none => s
      | some k =>
        if e.pastCount then s.atEntryEnd c l e k else s.serveAt c l e k (State.atEntryEnd c l e k)

/-- An expiry of a channel's pace timer (R163); a stopped timer does not expire (log 2). -/
def execPaceTimerExpiry (c : Chan) (s : State) : Result :=
  State.done <|
    match (s.channel c).timer with
    | none => s
    | some tm =>
      let t := s.expireAt (tm.due (s.channel c).pace)
      let x := { t.channel c with timer := some { tm with next := tm.next + 1 } }
      match x.read with
      | some _ => t.setChannel c { x with late := count16 x.late }
      | none => (t.setChannel c x).serveCurrent c

/-! ## Completion -/

/-- The payload of a slot, as stored (R144). -/
def State.payload (s : State) (slot : Nat) : List Byte :=
  Memory.readBytes s.dram (slotAddress slot) ((Table.get s.slots slot).getD 0)

/-- A completed read of a channel's current entry is delivered and the entry's cursor rises by 1 (R166, R167). -/
def State.deliverSegment (s : State) (c : Chan) (r : Read) : State :=
  let x := s.channel c
  match s.clip r.clip, x.entry r.level with
  | some k, some e =>
    let payload := s.payload (k.segments.getD r.index 0)
    let t := s.deliver c fun rate => .segment c k.key r.index rate payload.length payload
    t.setChannel c { x with inService := x.inService.set r.level (some { e with cursor := e.cursor + 1 }) }
  | _, _ => s

/-- Completion of the read on the port (R166): the use count falls, the segment is delivered or discarded, and the next
waiting read is granted. A read that a RESTART withdrew completes with no other effect (R172, log 8); with no read on
the port there is nothing to complete (log 24). -/
def execReadCompletion (s : State) : Result :=
  State.done <|
    match s.port with
    | .free => s
    | .withdrawn => { s with port := .free }.grant
    | .busy c =>
      let x := s.channel c
      match x.read with
      | none => { s with port := .free }.grant
      | some r =>
        let t := ({ s with port := .free }.unuse r.clip).setChannel c { x with read := none }
        (if r.valid then t.deliverSegment c r else t).grant

end Sys2Proof.Machine
end

