-- ==== Sys2Proof/Machine/Ingest.lean ====
section
/-!
DEFINITION. Segment frames and the hold timer: frame checks, markers, placement and holding (R136–R139, R146–R155).
-/
namespace Sys2Proof.Machine

/-! ## The segment frame -/

/-- A segment frame's fields (R136). -/
structure SegmentFrame where
  key      : Key
  isOpen   : Bool
  isClose  : Bool
  handoff  : Bool
  index    : Nat
  last     : Nat
  payload  : List Byte
deriving DecidableEq, Repr

/-- A frame that carries no payload is marker-only (R136). -/
def SegmentFrame.markerOnly (f : SegmentFrame) : Bool := f.payload.isEmpty

/-- The fixed start pattern (R195). -/
def startPattern : BitVec 16 := 0xC3A6

/-- The check of the start pattern (R137, check 1): whether the frame is taken, and whether with a tolerated bit. -/
def patternCheck (strict : Bool) (bytes : List Byte) : Option Bool :=
  match popCount (word16 (bytes.getD 0 0) (bytes.getD 1 0) ^^^ startPattern) with
  | 0 => some false
  | 1 => if strict then none else some true
  | _ => none

/-- The payload and its check that follow a header whose length field is `n` (R137, check 4; R195): none when they do not
match. -/
def payloadCheck (n : Nat) (rest : List Byte) : Option (List Byte) :=
  if n = 0 then if rest.isEmpty then some [] else none
  else if rest.length = n + 4 ∧ rest.drop n = bytes32 (crc32 (rest.take n)) then some (rest.take n)
  else none

/-- The checks of R137 in order: the frame's fields, and whether its start pattern was tolerated; none when a check
fails. The header check is over bytes 0–10 as received (log 9). -/
def checkFrame (strict : Bool) (bytes : List Byte) : Option (SegmentFrame × Bool) :=
  let byte := fun i => bytes.getD i (0 : Byte)
  let field := fun i => (word16 (byte i) (byte (i + 1))).toNat
  let flags := byte 2
  let isOpen := flags.getLsbD 3
  let isClose := flags.getLsbD 2
  let index := field 5
  let last := field 7
  let n := field 9
  match patternCheck strict bytes with
  | none => none
  | some tolerated =>
    if bytes.length < 12 ∨ crc8 (bytes.take 11) ≠ byte 11 then none
    else if 4095 < index ∨ (isClose ∧ 4095 < last) ∨ 2048 < n ∨ (isOpen ∧ index ≠ 0)
        ∨ (isClose ∧ n ≠ 0 ∧ last < index) ∨ (n = 0 ∧ !isOpen ∧ !isClose) then none
    else
      match payloadCheck n (bytes.drop 12) with
      | none => none
      | some payload =>
        some (⟨⟨(flags.extractLsb' 4 4).toFin, word16 (byte 3) (byte 4)⟩, isOpen, isClose, flags.getLsbD 1, index, last,
          payload⟩, tolerated)

/-- The bytes of a segment frame: start pattern, program and markers (bit 0 clear), clip number, segment index, last index,
length, header check over bytes 0–10, then the payload and its check when there is one (R195). -/
def segmentBytes (f : SegmentFrame) : List Byte :=
  let markers : Byte := (if f.isOpen then 0x08#8 else 0) ||| (if f.isClose then 0x04#8 else 0) |||
    (if f.handoff then 0x02#8 else 0)
  let header := bytes16 startPattern ++ [BitVec.ofNat 8 f.key.program <<< (4 : Nat) ||| markers] ++ bytes16 f.key.clip
    ++ bytes16 (BitVec.ofNat 16 f.index) ++ bytes16 (BitVec.ofNat 16 f.last) ++ bytes16 (BitVec.ofNat 16 f.payload.length)
  header ++ [crc8 header] ++ if f.markerOnly then [] else f.payload ++ bytes32 (crc32 f.payload)

/-- Whether OPEN and CLOSE from a port are acted on in a mode: none from B in INTERLEAVE and SPLIT (R139). -/
def markersTaken (m : IngestMode) (p : Port) : Bool :=
  match m, p with
  | .interleave, .b => false
  | .split, .b => false
  | _, _ => true

/-- Whether HANDOFF from a port is acted on in a mode: only from A in SPLIT (R139). -/
def handoffTaken (m : IngestMode) (p : Port) : Bool :=
  match m, p with
  | .split, .a => true
  | _, _ => false

/-- A frame with the markers its port may not send made clear (R139). -/
def SegmentFrame.allowed (f : SegmentFrame) (m : IngestMode) (p : Port) : SegmentFrame :=
  { f with
    isOpen := f.isOpen && markersTaken m p
    isClose := f.isClose && markersTaken m p
    handoff := f.handoff && handoffTaken m p }

/-! ## Holding -/

/-- A segment that may be held is not, for want of a place or a slot: its clip becomes DAMAGED, or the entries of an
unopened key are released with a DISCARDED notice; the segment is counted as unplaced (R154). -/
def State.cannotHold (s : State) (p : Port) (key : Key) (clip : Option (Nat × Clip)) (cause : DamageCause) : State :=
  match clip with
  | some (i, k) => (s.dropUnplaced p).damage i k cause
  | none => ((s.dropUnplaced p).releaseKey key).note (.clip (.key key) (.discarded cause))

/-- A segment is held at the end of its port's queue in a slot, and the key's hold timer starts if the key had none held
(R154, R155). -/
def State.holdIn (s : State) (p : Port) (f : SegmentFrame) (slot : Nat) : State :=
  let t := { s with holdTimers := if s.keyHeld f.key then s.holdTimers else s.holdTimers ++ [(f.key, s.now + ms 2000)] }
  (t.fillSlot slot f.payload).updateIngest p fun q => { q with queue := q.queue ++ [⟨f.key, f.index, slot⟩] }

/-- A segment is held for a clip, or for a key not yet opened (R154). -/
def State.hold (s : State) (p : Port) (f : SegmentFrame) (clip : Option (Nat × Clip)) : State :=
  if 256 ≤ (s.ingest p).queue.length then s.cannotHold p f.key clip .holdFull
  else
    let t := s.roomForSlot
    match Table.lowestFree t.slots 16384 with
    | none => t.cannotHold p f.key clip .noSlot
    | some slot => t.holdIn p f slot

/-! ## Placement -/

/-- A segment at the expected index is appended (R151), HANDOFF acted on (R149); for want of a slot the clip becomes
DAMAGED. -/
def State.append (s : State) (p : Port) (f : SegmentFrame) (i : Nat) (k : Clip) : State :=
  let t := s.roomForSlot
  match Table.lowestFree t.slots 16384 with
  | none => (t.dropUnplaced p).damage i k .noSlot
  | some slot =>
    ((t.fillSlot slot f.payload).updateClip i fun x =>
      { x with segments := x.segments ++ [slot], handoff := x.handoff || f.handoff }).settleClip i

/-- Whether an early segment from a port is held in a mode (R152). -/
def holdsEarly (m : IngestMode) (p : Port) : Bool :=
  match m, p with
  | .interleave, _ => true
  | .split, .b => true
  | _, _ => false

/-- A segment above the expected index and not above a known last index (R152, R153). -/
def State.early (s : State) (p : Port) (f : SegmentFrame) (i : Nat) (k : Clip) : State :=
  if holdsEarly s.mode p then
    if ((s.heldOf .a f.key) ++ (s.heldOf .b f.key)).any fun x => x.index == f.index then s.dropDuplicate p
    else s.hold p f (some (i, k))
  else (s.dropUnplaced p).damage i k .gap

/-- A payload frame of a FILLING clip is placed by its index (R150, step 7; R151–R153). -/
def State.place (s : State) (p : Port) (f : SegmentFrame) (i : Nat) (k : Clip) : State :=
  if f.index = k.segments.length then s.append p f i k
  else if f.index < k.segments.length then s.dropDuplicate p
  else
    match k.last with
    | some n => if n < f.index then s.dropUnplaced p else s.early p f i k
    | none => s.early p f i k

/-! ## CLOSE -/

/-- A CLOSE that contradicts what stands: the clip becomes DAMAGED, and a payload is counted as unplaced (R142, R148, log
12). -/
def State.closeConflict (s : State) (p : Port) (f : SegmentFrame) (i : Nat) (k : Clip) : State :=
  (if f.markerOnly then s else s.dropUnplaced p).damage i k .closeConflict

/-- The frame's segment is placed in its clip as the clip now stands, and the READY test is made, as at every event that sets
the last index (R142, R148, R150, log 35). -/
def State.afterClose (s : State) (p : Port) (f : SegmentFrame) (i : Nat) : State :=
  match s.clip i with
  | none => s
  | some k => (if f.markerOnly then s else s.place p f i k).readyTest i

/-- A frame of a FILLING clip with its CLOSE acted on first (R148), then placed. -/
def State.closeAndPlace (s : State) (p : Port) (f : SegmentFrame) (i : Nat) (k : Clip) : State :=
  if f.isClose then
    match k.last with
    | some n => if n = f.last then s.afterClose p f i else s.closeConflict p f i k
    | none =>
      if f.last + 1 < k.segments.length then s.closeConflict p f i k
      else
        ((s.updateClip i fun x => { x with last := some f.last }).release f.key fun x => decide (f.last < x.index)).afterClose
          p f i
  else if f.markerOnly then s
  else s.place p f i k

/-! ## The frame's key -/

/-- Whether a payload frame that finds no record is held as a segment of an unopened key (R150, step 3). -/
def State.holdsUnopened (s : State) (p : Port) (f : SegmentFrame) : Bool :=
  p == .b && (s.mode == .interleave || s.mode == .split) && !f.markerOnly
    && s.marks[f.key.program] != some f.key.clip

/-- Whether a FILLING clip takes no frame from a port (R150, step 5). -/
def State.foreignTo (s : State) (p : Port) (f : SegmentFrame) (k : Clip) : Bool :=
  (s.mode == .dual && p != k.owner) || (s.mode == .split && p == .a && !f.markerOnly && k.handoff)

/-- Steps 3 to 7 of R150. -/
def State.handleFrame (s : State) (p : Port) (f : SegmentFrame) : State :=
  match s.lookupClip f.key with
  | none => if s.holdsUnopened p f then s.hold p f none else s.dropUnplaced p
  | some i =>
    match s.clip i with
    | none => s
    | some k =>
      if k.state ≠ .filling then s.dropUnplaced p
      else if s.foreignTo p f k then s.dropForeign p
      else s.closeAndPlace p f i k

/-! ## OPEN -/

/-- A new clip, as an OPEN creates it (R146). -/
def newClip (key : Key) (p : Port) : Clip where
  key := key
  owner := p
  state := .filling
  segments := []
  last := none
  handoff := false
  pinned := false
  useCount := 0

/-- An OPEN that no record can be had for is refused (R147). -/
def State.refuseOpen (s : State) (p : Port) (key : Key) : State :=
  let t := { s.dropUnplaced p with marks := s.marks.set key.program (some key.clip) }
  (t.releaseKey key).note (.clip (.key key) .refused)

/-- A clip is created in a vacant record, and a refused-key mark naming its key is cleared (R146). -/
def State.openClip (s : State) (i : Nat) (p : Port) (key : Key) : State :=
  { s with
    clips := Table.put s.clips i (newClip key p)
    ages := s.ages ++ [i]
    marks := if s.marks[key.program] = some key.clip then s.marks.set key.program none else s.marks }

/-- A frame with OPEN set and a key with no record (R146): the clip is created, the frame handled, and the opening reported
to the Cue Controller. -/
def State.openFrame (s : State) (p : Port) (f : SegmentFrame) : State :=
  let t := s.roomForClip
  match Table.lowestFree t.clips 64 with
  | none => t.refuseOpen p f.key
  | some i => ((t.openClip i p f.key).handleFrame p f).autoCue i f.key.program

/-- Step 2 of R150, by what the lookup finds for the key of an OPEN (R146). -/
def State.takeOpen (s : State) (p : Port) (f : SegmentFrame) : State :=
  match (s.lookupClip f.key).bind s.clip with
  | none => s.openFrame p f
  | some k =>
    if k.state ≠ .filling then s.dropUnplaced p
    else if k.owner ≠ p then s.dropForeign p
    else s.handleFrame p f

/-- Whether a payload frame's index is one its port does not carry in INTERLEAVE (R150, step 1). -/
def wrongParity (m : IngestMode) (p : Port) (f : SegmentFrame) : Bool :=
  m == .interleave && !f.markerOnly && (f.index % 2 == if p = .a then 1 else 0)

/-- A good frame at a port in use, its ignored markers cleared (R150). -/
def State.takeSegment (s : State) (p : Port) (f : SegmentFrame) : State :=
  if wrongParity s.mode p f then s.dropForeign p
  else if f.isOpen then s.takeOpen p f
  else s.handleFrame p f

/-- A good frame (R137, R139): counted, its ignored markers counted and cleared; a marker-only frame with none left ends
there. -/
def State.goodFrame (s : State) (p : Port) (f : SegmentFrame) (tolerated : Bool) : State :=
  let g := f.allowed s.mode p
  let t := s.tally p fun c =>
    { c with
      good := count16 c.good
      tolerated := if tolerated then count16 c.tolerated else c.tolerated
      ignored := if g = f then c.ignored else count16 c.ignored }
  if g.markerOnly && !g.isOpen && !g.isClose && !g.handoff then t else t.takeSegment p g

/-- Whether a port takes frames: in RUN, and not B in SINGLE (R139). -/
def State.portInUse (s : State) (p : Port) : Bool := s.part == .run && !(s.mode == .single && p == .b)

/-- SEGMENT_FRAME (R137, R139, R150). -/
def execSegmentFrame (p : Port) (bytes : List Byte) (s : State) : Result :=
  State.done <|
    if s.portInUse p then
      match checkFrame s.strict bytes with
      | none => s.tally p fun c => { c with failures := count16 c.failures }
      | some (f, tolerated) => s.goodFrame p f tolerated
    else s.tally p fun c => { c with idle := count16 c.idle }

/-- The work of a key's hold timer's expiry (R155). -/
def State.holdTimeout (s : State) (key : Key) : State :=
  match s.lookupClip key with
  | none => (s.releaseKey key).note (.clip (.key key) (.discarded .holdTimeout))
  | some i =>
    match s.clip i with
    | none => s
    | some k => if k.state = .filling then s.damage i k .holdTimeout else s

/-- Expiry of a key's hold timer (R155); a stopped timer does not expire (log 2). -/
def execHoldTimerExpiry (key : Key) (s : State) : Result :=
  State.done <|
    match s.holdTimers.find? fun t => t.1 == key with
    | none => s
    | some t => (s.expireAt t.2).holdTimeout key

end Sys2Proof.Machine
end

