-- ==== Sys2Proof/Machine/PartCommands.lean ====
section
/-!
DEFINITION. Commands of the part as a whole and of the Control Link Port: power-on, transactions, bad and unknown frames,
HELLO, START, RESTART, NOTICE-ENABLE, TIER-SET (R50, R186–R194).
-/
namespace Sys2Proof.Machine

/-! ## Power-on and transactions -/

/-- POWER_ON: every record at its power-on value. The queue of waiting commands and the counter of free values are the
model's own and stay (log 21). -/
def execPowerOn (s : State) : Result := .next { State.reset with pending := s.pending, free := s.free }

/-- The host asserts select: the link status byte and the outbound frame are fixed (R186, R187). A transaction in progress
goes on (log 5). -/
def execTransactionBegin (s : State) : Result :=
  .next <|
    match s.transaction with
    | some _ => s
    | none => { s with transaction := some ⟨s.statusByte, s.outbound.head?, s.lost, false⟩ }

/-- Whether a transaction in which the host clocked `n` bytes after the first delivers its outbound frame: one was fixed, a
RESTART did not end it, and all of its bytes were shifted out (R186, R194). -/
def Transaction.delivers (t : Transaction) (n : Nat) : Bool :=
  match t.frame with
  | none => false
  | some f => !t.cut && decide (f.bytes.length ≤ n)

/-- The bytes shifted out from the second on: the outbound frame, up to a RESTART, then bytes of 0x00 (R186, R194). -/
def State.shiftedOut (s : State) (t : Transaction) (n : Nat) : List Byte :=
  let frame := match t.frame with
    | none => []
    | some f => if t.cut then f.bytes.take (Config.bytesBeforeRestart s.free) else f.bytes
  (frame ++ List.replicate n 0).take n

/-- The inbound frame of a transaction: bytes clocked in from the second on, none when they begin with 0x00 (R186). With
no free place it is rejected; else it is stored, good or bad (R188). -/
def State.storeFrame (s : State) (bytes : List Byte) : State :=
  match bytes with
  | [] => s
  | type :: _ =>
    if type = 0 then s
    else if 4 ≤ s.inbound.length then { s with rejected := true }
    else { s with inbound := s.inbound ++ [readFrame bytes], rejected := !(readFrame bytes).good }

/-- The host deasserts select (R186–R188): the outbound frame is delivered if completely sent, notices lost is cleared by
the delivery that showed it, and the inbound frame is taken. -/
def State.endTransaction (s : State) (t : Transaction) (bytes : List Byte) : State :=
  let data := bytes.drop 1
  let delivered := t.delivers data.length
  { s with
    transaction := none
    outbound := if delivered then s.outbound.drop 1 else s.outbound
    lost := s.lost && !(delivered && t.lost)
    spiOut := (t.status :: s.shiftedOut t data.length).take bytes.length
    free := if t.cut then s.free + 1 else s.free }.storeFrame data

/-- TRANSACTION_END; with no transaction in progress there is nothing to end (log 5). -/
def execTransactionEnd (bytes : List Byte) (s : State) : Result :=
  .next <|
    match s.transaction with
    | none => s
    | some t => s.endTransaction t bytes

/-! ## Frames that are no request -/

/-- The frame at the head of the inbound queue is taken if it is one the condition picks and the outbound queue has a free
place (R189); with none there is nothing to take (log 24). -/
def State.takeFrame (s : State) (pick : InFrame → Bool) (work : InFrame → State → State) : State :=
  match s.inbound with
  | [] => s
  | f :: rest => if pick f ∧ s.outbound.length < 64 then work f { s with inbound := rest } else s

/-- A stored frame marked bad is answered BAD_FRAME with its tag as received; the reply's type is 0xFF and its body is the
code alone (R188, R192). -/
def execBadFrame (s : State) : Result :=
  .next <| s.takeFrame (fun f => !f.good) fun f t =>
    { t with outbound := t.outbound ++ [.reply 0xFF f.tag .badFrame .none] }

/-- A good frame whose type lies outside 0x01–0x22 draws RANGE with type 0xFE and the type received (R189, R192). -/
def execUnknownRequestType (s : State) : Result :=
  .next <| s.takeFrame (fun f => f.good && (f.type == 0 || decide (0x22#8 < f.type))) fun f t =>
    { t with outbound := t.outbound ++ [.reply 0xFE f.tag .range (.typeReceived f.type)] }

/-! ## HELLO, START, RESTART, NOTICE-ENABLE -/

/-- HELLO (R193). -/
def execHello (f : Req) (s : State) : Result :=
  .next <| s.serve f 0x01 fun s => ⟨s, .ok, .hello 0x2C71 7260 3 s.part⟩

/-- START (R193). -/
def execStart (f : Req) (s : State) : Result :=
  .next <| s.serve f 0x02 fun s =>
    match s.part with
    | .config => ⟨{ s with part := .run }, .ok, .none⟩
    | .run => .refuse s .state

/-- A head record after RESTART (R3): a present head is DARK with its supervision timer running, from now on for a whole 250 ms
even if it ran already (log 37). -/
def Head.restarted (x : Head) (now : Micros) : Head :=
  let present := x.state != .absent
  { x with
    state := if present then .dark else .absent
    miss := 0
    supervision := if present then some (now + ms 250) else none
    startTimer := none
    late := 0
    account := none }

/-- A pass record after RESTART: a SEATED pass becomes ADMITTED, unbound (R105). -/
def Pass.restarted (q : Pass) : Pass :=
  { q with state := if q.state = .seated then .admitted else q.state, station := none }

/-- A zone after RESTART: seated count 0, latch free, the rest kept (R107, R119, R120). -/
def Zone.restarted (z : Zone) : Zone := { z with seated := 0, latch := none }

/-- The re-zone pass after RESTART: a running one starts afresh (R117). -/
def Rezone.restarted (r : Rezone) : Rezone := if r.running then { r with cursor := 0, changed := 0, trimmed := 0 } else r

/-- A channel after RESTART: its setup is kept (R159, R172, R175, R176). -/
def Channel.restarted (x : Channel) : Channel := { powerOnChannel with pace := x.pace, rated := x.rated }

/-- A transaction in progress at RESTART: its outbound frame is gone (R194). -/
def Transaction.ended (t : Transaction) : Transaction := { t with cut := true }

/-- The read port after RESTART: a read on it is withdrawn (R172, log 8). -/
def ReadPort.restarted : ReadPort → ReadPort
  | .free => .free
  | .busy _ => .withdrawn
  | .withdrawn => .withdrawn

/-- RESTART's effect on every block (R194 and each block's values after RESTART). -/
def State.restarted (s : State) : State :=
  { s with
    held := []
    part := .config
    heads := s.heads.map fun x => x.restarted s.now
    discards := Vector.replicate 24 0
    stations := []
    holds := []
    passes := s.passes.map fun p => (p.1, p.2.restarted)
    zones := s.zones.map Zone.restarted
    rezone := s.rezone.restarted
    portA := ⟨{}, []⟩
    portB := ⟨{}, []⟩
    holdTimers := []
    marks := Vector.replicate 16 none
    clips := []
    ages := []
    slots := []
    channels := s.channels.map Channel.restarted
    pointer := 7
    port := s.port.restarted
    inbound := []
    outbound := []
    lost := false
    rejected := false
    transaction := s.transaction.map Transaction.ended }

/-- RESTART (R194): its reply, OK, is the first frame of the emptied outbound queue. -/
def execRestart (f : Req) (s : State) : Result :=
  .next <| s.serve f 0x03 fun s => ⟨s.restarted, .ok, .none⟩

/-- NOTICE-ENABLE (R191). -/
def execNoticeEnable (f : Req) (andMask orMask : ClassSet) (s : State) : Result :=
  .next <| s.serve f 0x04 fun s =>
    let e := (s.enables &&& andMask) ||| orMask
    ⟨{ s with enables := e }, .ok, .classes e⟩

/-! ## TIER-SET -/

/-- Whether a reservation is in its range, 50–5,000 (R49). -/
def reservationOk (r : Nat) : Bool := decide (50 ≤ r) && decide (r ≤ 5000)

/-- TIER-SET (R50). -/
def execTierSet (f : Req) (row : TierRow) (s : State) : Result :=
  .next <| s.serve f 0x05 fun s =>
    match row with
    | .tier n r limit chans =>
      if p : n < 4 then
        if s.part = .run then .refuse s .state
        else if reservationOk r && decide (limit ≤ 15) then
          ⟨{ s with tiers := s.tiers.set n ⟨r, limit, chans⟩ }, .ok, .none⟩
        else .refuse s .range
      else .refuse s .range
    | .unbound r =>
      if s.part = .run then .refuse s .state
      else if reservationOk r then ⟨{ s with unbound := r }, .ok, .none⟩
      else .refuse s .range

end Sys2Proof.Machine
end

