-- ==== Sys2Proof/Machine/PassRequests.lean ====
section
/-!
DEFINITION. The requests of the Pass Table: PASS-LOAD, PASS-AMEND, PASS-VOID, PASS-DROP, PASS-QUERY, GATE-SCAN (R89–R104).
-/
namespace Sys2Proof.Machine

/-- A tier number carried as a number, if it is one of 0–3. -/
def tier? (n : Nat) : Option Tier := if p : n < 4 then some ⟨n, p⟩ else none

/-- A declared zone carried as a number: none outside 0–31; inside, the optional field it gives. -/
def declared? : Option Nat → Option (Option ZoneId)
  | none => some none
  | some z => (zoneId? z).map some

/-! ## Loading -/

/-- A loaded pass, ISSUED, with every count 0 (R89). -/
def State.newPass (s : State) (n : PassNumber) (t : Tier) (seat : Option (BitVec 16)) (declared : Option ZoneId) : Pass where
  number := n
  tier := t
  seat := seat
  declared := declared
  cached := s.cachedZone seat declared
  state := .issued
  reentries := 0
  passbacks := 0
  conflicts := 0
  suspect := false
  station := none
  lastGate := none

/-- One entry of a PASS-LOAD, in R89's order of checks, with its result. -/
def State.loadEntry (s : State) (e : PassEntry) : State × Code × Option Nat :=
  match tier? e.tier, declared? e.declared with
  | some t, some z =>
    if e.number = 0 then (s, .range, none)
    else
      match s.lookupPass e.number, Table.lowestFree s.passes 8192 with
      | some _, _ => (s, .duplicate, none)
      | none, none => (s, .full, none)
      | none, some p => (s.setPass p (s.newPass e.number t e.seat z), .ok, some p)
  | _, _ => (s, .range, none)

/-- The entries of a PASS-LOAD, one after another (R89). -/
def State.loadEntries : State → List PassEntry → State × List (Code × Option Nat)
  | s, [] => (s, [])
  | s, e :: es =>
    let r := s.loadEntry e
    let more := r.1.loadEntries es
    (more.1, r.2 :: more.2)

/-- PASS-LOAD (R89). -/
def execPassLoad (f : Req) (entries : List PassEntry) (s : State) : Result :=
  .next <| s.serve f 0x0E fun s =>
    if 1 ≤ entries.length ∧ entries.length ≤ 16 then
      let r := s.loadEntries entries
      ⟨r.1, .ok, .loaded r.2⟩
    else .refuse s .range

/-! ## Amending -/

/-- A field of a PASS-AMEND written. -/
def Change.on {α : Type} (c : Change α) (old : Option α) : Option α :=
  match c with
  | .keep => old
  | .absent => none
  | .give v => some v

/-- The declared zone a PASS-AMEND gives, if it is in its range (R99). -/
def zoneChange? : Change Nat → Option (Change ZoneId)
  | .keep => some .keep
  | .absent => some .absent
  | .give z => (zoneId? z).map .give

/-- The tier a PASS-AMEND gives or leaves, if it is in its range (R99). -/
def tierChange? : Option Nat → Option (Option Tier)
  | none => some none
  | some n => (tier? n).map some

/-- The bound station of an amended pass is brought into line: reservation, then trim, then one recompute of its head and,
where the trim removes a channel, of a MOVING station's target (R101). -/
def State.bringIntoLine (s : State) (i : Nat) : State :=
  let t := s.setReservation i
  if t.overSubscribed i then (t.trim i).recomputeBoth i else t.recomputeOf i

/-- An accepted PASS-AMEND of a pass (R100). A changed tier or cached zone of a SEATED pass brings its station into line (R101);
with neither changed, its station's reservation alone is set toward its tier value, which is another try for a capped one (R51,
log 36). -/
def State.amend (s : State) (p : Nat) (q : Pass) (tier : Tier) (seat : Option (BitVec 16)) (declared : Option ZoneId) :
    State :=
  let z := s.cachedZone seat declared
  let q' := { q with tier := tier, seat := seat, declared := declared, cached := z }
  let t := (s.setPass p q').rezoneCounts q.state q.cached z
  match q.state, q.station with
  | .seated, some i => if q.tier = tier ∧ q.cached = z then t.settle i else t.bringIntoLine i
  | _, _ => t

/-- PASS-AMEND (R99). -/
def execPassAmend (f : Req) (number : PassNumber) (tier : Option Nat) (seat : Change (BitVec 16)) (declared : Change Nat)
    (s : State) : Result :=
  .next <| s.serve f 0x0F fun s =>
    match tierChange? tier, zoneChange? declared with
    | some t, some z =>
      match s.lookupPass number with
      | none => .refuse s .unknown
      | some p =>
        match s.pass p with
        | none => .refuse s .unknown
        | some q =>
          if q.state = .void then .refuse s .void
          else ⟨s.amend p q (t.getD q.tier) (Change.on seat q.seat) (Change.on z q.declared), .ok, .none⟩
    | _, _ => .refuse s .range

/-! ## Voiding and dropping -/

/-- PASS-VOID (R102): a pass already VOID stays as it is. -/
def execPassVoid (f : Req) (number : PassNumber) (s : State) : Result :=
  .next <| s.serve f 0x10 fun s =>
    match s.lookupPass number with
    | none => .refuse s .unknown
    | some p => ⟨s.unbind p .void, .ok, .none⟩

/-- PASS-DROP (R103): the binding is undone, the counts lowered, the record vacated. -/
def execPassDrop (f : Req) (number : PassNumber) (s : State) : Result :=
  .next <| s.serve f 0x11 fun s =>
    match s.lookupPass number with
    | none => .refuse s .unknown
    | some p =>
      let t := s.unbind p .void
      ⟨{ t with passes := Table.drop t.passes p }, .ok, .none⟩

/-! ## Query -/

/-- What PASS-QUERY reports of a record (R104). -/
def State.passReport (s : State) (q : Pass) : PassReport where
  number := q.number
  tier := q.tier
  seat := q.seat
  declared := q.declared
  cached := q.cached
  state := q.state
  reentries := q.reentries
  passbacks := q.passbacks
  conflicts := q.conflicts
  suspect := q.suspect
  station := q.station
  lastGate := q.lastGate
  standing := (q.station.bind s.station).map Station.state

/-- PASS-QUERY (R104). -/
def execPassQuery (f : Req) (pass : PassRef) (s : State) : Result :=
  .next <| s.serve f 0x12 fun s =>
    match pass with
    | .index p => if p < 8192 then ⟨s, .ok, .pass p ((s.pass p).map s.passReport)⟩ else .refuse s .range
    | .number n =>
      match s.lookupPass n with
      | none => .refuse s .unknown
      | some p => ⟨s, .ok, .pass p ((s.pass p).map s.passReport)⟩

/-! ## Gate scans -/

/-- A passback is counted, and the suspect flag set at 3 (R94, R95). -/
def State.passback (s : State) (p : Nat) (q : Pass) : State :=
  let q' := { q with passbacks := countUp 255 q.passbacks }
  s.suspectIf p q' (decide (3 ≤ q'.passbacks)) .passback

/-- A pass is admitted from outside (R91, R93). -/
def State.admitPass (s : State) (p gate : Nat) (q : Pass) : State :=
  (s.setPass p { q with state := .admitted, lastGate := some gate }).censusMove q.cached (some q.state) (some .admitted)

/-- An IN scan of a known pass (R91, R93). -/
def State.scanIn (s : State) (p gate : Nat) (q : Pass) : State × Code :=
  match q.state with
  | .issued => (s.admitPass p gate q, .ok)
  | .out =>
    if q.reentries < s.tiers[q.tier].reentryLimit then
      (s.admitPass p gate { q with reentries := q.reentries + 1 }, .ok)
    else (s, .reentryLimit)
  | .admitted | .seated => (s.passback p q, .passback)
  | .void => (s, .void)

/-- An OUT scan of a known pass (R92); a SEATED pass is unbound first (R96). -/
def State.scanOut (s : State) (p gate : Nat) (q : Pass) : State × Code :=
  match q.state with
  | .issued | .out => (s.passback p q, .notInside)
  | .admitted | .seated => ((s.unbind p .out).updatePass p fun x => { x with lastGate := some gate }, .ok)
  | .void => (s, .void)

/-- A scan of a known pass, with what every reply to one carries (R90). -/
def State.scan (s : State) (p gate : Nat) (q : Pass) (dir : ScanDirection) : Served :=
  let r := match dir with
    | .into => s.scanIn p gate q
    | .outOf => s.scanOut p gate q
  match r.1.pass p with
  | none => .refuse r.1 r.2
  | some x => ⟨r.1, r.2, .scan p x.tier x.state x.reentries x.suspect⟩

/-- GATE-SCAN (R90): the gate and direction are checked before the lookup (log 39), and RANGE is answered with the code alone
(log 40). -/
def execGateScan (f : Req) (number : PassNumber) (gate : Nat) (dir : Option ScanDirection) (s : State) : Result :=
  .next <| s.serve f 0x13 fun s =>
    match dir with
    | none => .refuse s .range
    | some d =>
      if 255 < gate then .refuse s .range
      else
        match s.lookupPass number with
        | none => .refuse s .unknown
        | some p =>
          match s.pass p with
          | none => .refuse s .unknown
          | some q => s.scan p gate q d

end Sys2Proof.Machine
end

