-- ==== Sys2Proof/Machine/ReplayRequests.lean ====
section
/-!
DEFINITION. The requests of the Ingest Unit, Clip Store, Playout Unit and Cue Controller (R140, R156–R158, R161, R171, R174,
R175, R182, R183).
-/
namespace Sys2Proof.Machine

/-- A channel number carried as a number, if it is one of 0–7. -/
def chan? (n : Nat) : Option Chan := if p : n < 8 then some ⟨n, p⟩ else none

/-! ## Ingest and clips -/

/-- What every INGEST-MODE reply carries (R140). -/
def State.ingestReport (s : State) : IngestReport where
  mode := s.mode
  strict := s.strict
  countsA := s.portA.counts
  countsB := s.portB.counts
  heldA := s.portA.queue.length
  heldB := s.portB.queue.length
  refused := s.marks.toList

/-- Whether any clip is FILLING or any hold queue holds an entry (R140). -/
def State.ingestBusy (s : State) : Bool :=
  s.clips.any (fun p => p.2.state == .filling) || !s.portA.queue.isEmpty || !s.portB.queue.isEmpty

/-- INGEST-MODE (R140): a mode outside the four draws RANGE before BUSY is weighed (log 46). A reply to a body that does not fit
carries the same contents (log 26). One accepted with the mode in force clears the marks too, and the reply carries
them as cleared (log 42). -/
def execIngestMode (f : Req) (mode : Option IngestMode) (strict : Bool) (s : State) : Result :=
  .next <| s.serve f 0x18
    (fun s =>
      match mode with
      | none => ⟨s, .range, .ingest s.ingestReport⟩
      | some m =>
        if s.ingestBusy then ⟨s, .busy, .ingest s.ingestReport⟩
        else
          let t := { s with mode := m, strict := strict, marks := Vector.replicate 16 none }
          ⟨t, .ok, .ingest t.ingestReport⟩)
    (fun s => .ingest s.ingestReport)

/-- What CLIP-QUERY reports of a record (R158). -/
def State.clipReport (s : State) (i : Nat) (k : Clip) : ClipReport where
  key := k.key
  owner := k.owner
  state := k.state
  expected := k.segments.length
  last := k.last
  handoff := k.handoff
  pinned := k.pinned
  useCount := k.useCount
  age := s.ages.idxOf i
  heldA := (s.heldOf .a k.key).length
  heldB := (s.heldOf .b k.key).length
  timeMs := (s.holdTimers.find? fun t => t.1 == k.key).map fun t => s.leftMs t.2

/-- A CLIP-QUERY answered OK for a record index (R158). -/
def State.clipAnswer (s : State) (i : Nat) : Served :=
  ⟨s, .ok, .clip (some i) ((s.clip i).map (s.clipReport i)) s.freeSlots s.vacantClips⟩

/-- CLIP-QUERY (R158): every reply carries the numbers of free slots and vacant records. A key whose program is no program has no
record, and draws UNKNOWN (log 43). -/
def execClipQuery (f : Req) (clip : ClipRef) (s : State) : Result :=
  .next <| s.serve f 0x1F
    (fun s =>
      match clip with
      | .index i => if i < 64 then s.clipAnswer i else ⟨s, .range, .clip none none s.freeSlots s.vacantClips⟩
      | .key program n =>
        let found := if p : program < 16 then s.lookupClip ⟨⟨program, p⟩, n⟩ else none
        match found with
        | none => ⟨s, .unknown, .clip none none s.freeSlots s.vacantClips⟩
        | some i => s.clipAnswer i)
    (fun s => .clip none none s.freeSlots s.vacantClips)

/-- CLIP-PIN (R156). -/
def execClipPin (f : Req) (clip : Nat) (pin : Bool) (s : State) : Result :=
  .next <| s.serve f 0x20 fun s =>
    if clip < 64 then
      match s.clip clip with
      | none => .refuse s .unknown
      | some k => ⟨s.updateClip clip fun x => { x with pinned := pin }, .ok, .clipState k.state⟩
    else .refuse s .range

/-- CLIP-RETIRE (R157): the number of slots freed counts those of held entries too (log 13). -/
def execClipRetire (f : Req) (clip : Nat) (s : State) : Result :=
  .next <| s.serve f 0x21 fun s =>
    if clip < 64 then
      match s.clip clip with
      | none => .refuse s .unknown
      | some k =>
        if 0 < k.useCount then .refuse s .busy
        else
          let t := if k.state = .filling then s.releaseKey k.key else s
          let u := t.vacateClip clip
          ⟨u, .ok, .retired (u.freeSlots - s.freeSlots)⟩
    else .refuse s .range

/-! ## Programs and channels -/

/-- Whether any channel is enabled (R174). -/
def State.anyEnabled (s : State) : Bool := (List.finRange 8).any fun c => (s.channel c).enabled

/-- The level a PROGRAM-SET carries, if the program may have it (R174, check 3). -/
def programLevel? (program : Program) (level : Nat) : Option Level :=
  if program = 15 then if level = 5 then some venueLevel else none
  else if p : 1 ≤ level ∧ level ≤ 4 then some ⟨level - 1, by omega⟩ else none

/-- PROGRAM-SET (R174). -/
def execProgramSet (f : Req) (program level : Nat) (auto : ChanSet) (loop : Bool) (s : State) : Result :=
  .next <| s.serve f 0x19 fun s =>
    if p : program < 16 then
      if s.anyEnabled then .refuse s .locked
      else
        match programLevel? ⟨program, p⟩ level with
        | none => .refuse s .range
        | some l => ⟨{ s with programs := s.programs.set program ⟨l, auto, loop⟩ }, .ok, .program l auto loop⟩
    else .refuse s .range

/-- Whether a pace and rated length are in their ranges (R161). -/
def paceOk (pace rated : Nat) : Bool :=
  decide (1 ≤ pace) && decide (pace ≤ 40) && decide (256 ≤ rated) && decide (rated ≤ 2048)

/-- CHANNEL-SETUP (R161). -/
def execChannelSetup (f : Req) (chan pace rated : Nat) (mode : Option ArbMode) (s : State) : Result :=
  .next <| s.serve f 0x1A fun s =>
    match chan? chan with
    | none => .refuse s .range
    | some c =>
      if (s.channel c).enabled || (s.channel c).running then .refuse s .busy
      else
        match mode with
        | none => .refuse s .range
        | some m =>
          if paceOk pace rated then
            ⟨{ s.setChannel c { s.channel c with pace := pace, rated := rated } with arbMode := m }, .ok,
              .channelSetup pace rated m⟩
          else .refuse s .range

/-- The set of enabled channels (R175). -/
def State.enabledChans (s : State) : ChanSet := setOf 8 fun c => (s.channel c).enabled

/-- CHANNEL-ENABLE (R175): each channel newly enabled is weighed apart; the ascending order is the model's (log 48). -/
def execChannelEnable (f : Req) (andMask orMask : ChanSet) (s : State) : Result :=
  .next <| s.serve f 0x1B fun s =>
    let before := s.enabledChans
    let now := (before &&& andMask) ||| orMask
    let t := { s with channels := Vector.ofFn fun c => { s.channel c with enabled := hasChan now c } }
    let u := ((List.finRange 8).filter fun c => hasChan now c && !hasChan before c).foldl State.weighPending t
    ⟨u, .ok, .enables now ((List.finRange 8).map fun c => (u.channel c).superseded)⟩

/-! ## PLAY and STOP -/

/-- Whether PLAY's numbers are in their ranges, apart from the channel's (R182, check 1). -/
def playOk (clip : Nat) (level : Option Nat) (base : Nat) (count : Option Nat) : Bool :=
  decide (clip < 64) && decide (base ≤ 4095)
    && (match level with | none => true | some l => decide (1 ≤ l) && decide (l ≤ 4))
    && (match count with | none => true | some n => decide (1 ≤ n) && decide (n ≤ 4096))

/-- The level of a PLAY's entry: 5 for the venue program's clips, else the level given, else the program's (R182). -/
def State.playLevel (s : State) (k : Clip) (level : Option Nat) : Level :=
  if k.key.program = 15 then venueLevel
  else (level.bind (programLevel? 0)).getD s.programs[k.key.program].level

/-- An accepted PLAY (R182). -/
def State.playEntry (s : State) (c : Chan) (l : Level) (p : Pending) : Served :=
  let x := s.channel c
  let t := s.requestEntry c l p
  ⟨t, .ok, .play l (x.startsNow l p) (x.waiting l).isSome (t.channel c).superseded⟩

/-- PLAY (R182). -/
def execPlay (f : Req) (chan clip : Nat) (level : Option Nat) (base : Nat) (count : Option Nat) (loop : Bool) (s : State) :
    Result :=
  .next <| s.serve f 0x1C fun s =>
    match chan? chan with
    | none => .refuse s .range
    | some c =>
      if playOk clip level base count then
        if s.part = .config then .refuse s .state
        else
          match s.clip clip with
          | none => .refuse s .unknown
          | some k =>
            if (k.last.map fun n => decide (n < base)).getD false then .refuse s .range
            else s.playEntry c (s.playLevel k level) ⟨clip, base, count, loop, .host⟩
      else .refuse s .range

/-- One level's entries are removed from a channel, the use counts of their clips falling (R183). -/
def State.stopLevel (c : Chan) (s : State) (l : Level) : State :=
  let x := s.channel c
  let t := match x.entry l with
    | none => s
    | some e => s.unuse e.clip
  let u := match x.waiting l with
    | none => t
    | some p => t.unuse p.clip
  u.setChannel c { x with inService := x.inService.set l none, pending := x.pending.set l none }

/-- The number of entries a STOP of some levels removes. -/
def Channel.entriesAt (x : Channel) (ls : List Level) : Nat :=
  (ls.filter fun l => (x.entry l).isSome).length + (ls.filter fun l => (x.waiting l).isSome).length

/-- STOP of the levels of a set on a channel: the entries go, and if the current one did the choice is made once (R179,
R183). -/
def State.stopLevels (s : State) (c : Chan) (levels : LevelSet) : Served :=
  let ls := (List.finRange 5).filter fun (l : Level) => levels.getLsbD l.val
  let t := ls.foldl (State.stopLevel c) s
  let u := match (s.channel c).currentLevel with
    | none => t
    | some m => if m ∈ ls then t.choose c m else t
  ⟨u, .ok, .stop ((s.channel c).entriesAt ls) (u.channel c).running⟩

/-- STOP (R183). -/
def execStop (f : Req) (chan : Nat) (levels : LevelSet) (s : State) : Result :=
  .next <| s.serve f 0x1D fun s =>
    match chan? chan with
    | none => .refuse s .range
    | some c => s.stopLevels c levels

/-! ## CHANNEL-STATUS -/

/-- What CHANNEL-STATUS reports (R171), in-service and pending levels from the highest down. -/
def State.channelReport (s : State) (c : Chan) : ChannelReport :=
  let x := s.channel c
  { running := x.running
    enabled := x.enabled
    pace := x.pace
    rated := x.rated
    mode := s.arbMode
    inService := levelsDown.filterMap fun l =>
      (x.entry l).map fun e => ⟨l, e.clip, e.base, e.count, e.loop, e.cursor, x.currentLevel == some l⟩
    pending := levelsDown.filterMap fun l => (x.waiting l).map fun p => (l, p.clip, p.origin)
    read := x.read.map fun r => (r.clip, r.index, s.port == .busy c)
    endFlags := x.endFlags
    underruns := x.underruns
    late := x.late }

/-- CHANNEL-STATUS (R171): the end flags are cleared after they are reported. -/
def execChannelStatus (f : Req) (chan : Nat) (s : State) : Result :=
  .next <| s.serve f 0x1E fun s =>
    match chan? chan with
    | none => .refuse s .range
    | some c => ⟨s.setChannel c { s.channel c with endFlags := 0 }, .ok, .channel (s.channelReport c)⟩

end Sys2Proof.Machine
end

