-- ==== Sys2Proof/Machine/StationRequests.lean ====
section
/-!
DEFINITION. The requests of the Station Table and the Roam Engine: ROAM-SET, STATION-QUERY, STATION-MOVE, STATION-EVICT (R31,
R32, R60, R81).
-/
namespace Sys2Proof.Machine

/-! ## ROAM-SET -/

/-- Whether ROAM-SET's values are in their ranges (R60). -/
def roamOk (hysteresis dwell lapse : Nat) : Bool :=
  decide (hysteresis ≤ 20) && decide (dwell ≤ 10000) && decide (5 ≤ lapse) && decide (lapse ≤ 120)

/-- The heads a trim of a station would have recomputed: its current head and a MOVING station's target (R38). -/
def Station.concerned (st : Station) : List HeadId := st.current.toList ++ st.target.toList

/-- Every non-vacant station is trimmed to its permitted set, and each head with a trimmed member or a trimmed hold is
recomputed after all the trims (R38, R60), in ascending head number (log 49). -/
def State.trimAll (s : State) : State :=
  let crowded := (s.stations.map Prod.fst).filter s.overSubscribed
  let heads := crowded.flatMap fun i => ((s.station i).map Station.concerned).getD []
  (crowded.foldl State.trim s).recomputeList ((List.finRange 96).filter fun h => h ∈ heads)

/-- ROAM-SET (R60). -/
def execRoamSet (f : Req) (hysteresis dwell lapse : Nat) (pub : ChanSet) (s : State) : Result :=
  .next <| s.serve f 0x06 fun s =>
    if roamOk hysteresis dwell lapse then
      let t := { s with roam := ⟨hysteresis, dwell, lapse, pub⟩ }
      ⟨if s.roam.pub &&& ~~~ pub = 0 then t else t.trimAll, .ok, .none⟩
    else .refuse s .range

/-! ## STATION-QUERY -/

/-- What STATION-QUERY reports of a record (R32). -/
def State.stationReport (s : State) (st : Station) : StationReport where
  addr := st.addr
  state := st.state
  current := st.current
  target := st.target
  rate := st.rate
  rssi := st.rssi
  candidates := st.candidates
  res := st.res
  capped := st.capped
  pass := st.pass
  chans := st.chans
  dwellMs := s.nowMs - st.dwell
  lapseMs := st.lapse.map s.leftMs
  handovers := st.handovers
  refused := st.refused

/-- STATION-QUERY (R32). -/
def execStationQuery (f : Req) (station : StationRef) (s : State) : Result :=
  .next <| s.serve f 0x0B fun s =>
    match station with
    | .index i => if i < 4096 then ⟨s, .ok, .station i ((s.station i).map s.stationReport)⟩ else .refuse s .range
    | .address a =>
      match s.lookupStation a with
      | none => .refuse s .unknown
      | some i => ⟨s, .ok, .station i ((s.station i).map s.stationReport)⟩

/-! ## STATION-MOVE and STATION-EVICT -/

/-- The entry of a head in a station's last candidates. -/
def Station.candidate (st : Station) (h : HeadId) : Option (HeadId × Int) := st.candidates.find? fun c => c.1 == h

/-- The last two checks of STATION-MOVE, and the move (R81). -/
def State.moveTo (s : State) (i : Nat) (st : Station) (here h : HeadId) : Served :=
  match st.candidate h with
  | none => .refuse s .range
  | some c =>
    if (s.head h).state = .on ∧ h ∈ (s.head here).neighbours then
      if s.admitsStation st c then ⟨s.startHandover i st here h c.2 .host, .started, .none⟩
      else .refuse (s.refuseRoam i) .airtime
    else .refuse s .range

/-- The checks of STATION-MOVE, in R81's order, once the target's setup sequence is ended. -/
def State.moveChecks (s : State) (i : Nat) (h : HeadId) : Served :=
  if 4096 ≤ i then .refuse s .range
  else
    match s.station i with
    | none => .refuse s .state
    | some st =>
      match st.state, st.current with
      | .moving, _ => .refuse s .busy
      | .assoc, some here | .seated, some here => s.moveTo i st here h
      | _, _ => .refuse s .state

/-- STATION-MOVE (R81). -/
def execStationMove (f : Req) (index target : Nat) (s : State) : Result :=
  .next <| s.serve f 0x0C fun s => s.withHead target fun h t => t.moveChecks index h

/-- STATION-EVICT (R31). -/
def execStationEvict (f : Req) (index : Nat) (s : State) : Result :=
  .next <| s.serve f 0x0D fun s =>
    if index < 4096 then
      match s.station index with
      | none => .refuse s .state
      | some _ => ⟨s.vacate index true true, .ok, .none⟩
    else .refuse s .range

end Sys2Proof.Machine
end

