-- ==== Sys2Proof/Machine/ZoneRequests.lean ====
section
/-!
DEFINITION. The requests of the Zone Map and Census and the re-zone pass: ZONE-SET, ZONE-QUERY, CENSUS-LATCH, CENSUS-READ,
REZONE_VISIT (R107–R122).
-/
namespace Sys2Proof.Machine

/-! ## ZONE-SET -/

/-- A carried hole as numbers. -/
def holeOf (h : Option (BitVec 16 × BitVec 16)) : Option (Nat × Nat) := h.map fun p => (p.1.toNat, p.2.toNat)

/-- Whether a hole, if present, is a sub-range of a range (R107). -/
def holeWithin (first last : Nat) (hole : Option (Nat × Nat)) : Bool :=
  match hole with
  | none => true
  | some (a, b) => decide (a ≤ b) && decide (first ≤ a) && decide (b ≤ last)

/-- Whether two holes, if both present, share no seat (R107). -/
def holesApart (x y : Option (Nat × Nat)) : Bool :=
  match x, y with
  | some (a, b), some (c, d) => decide (b < c) || decide (d < a)
  | _, _ => true

/-- The zone record a ZONE-SET carries, if it keeps the constraints of R107 (R108, check 3). -/
def zoneRecord? (z : ZoneSpec) : Option ZoneRecord :=
  let first := z.first.toNat
  let last := z.last.toNat
  let h1 := holeOf z.hole1
  let h2 := holeOf z.hole2
  match headIds? z.heads with
  | none => none
  | some hs =>
    if first ≤ last ∧ holeWithin first last h1 ∧ holeWithin first last h2 ∧ holesApart h1 h2 ∧ 1 ≤ hs.length
        ∧ hs.length ≤ 8 ∧ hs.Nodup then
      some ⟨first, last, h1, h2, hs, z.chans⟩
    else none

/-- An accepted ZONE-SET: the record is written, the zone's latch marked stale, and a re-zone pass started (R109, R113,
R121). -/
def State.writeZone (s : State) (z : ZoneId) (fields : Option ZoneRecord) : State :=
  { s.setZone z { (s.zone z).markStale with fields := fields } with rezone := ⟨true, 0, some z, 0, 0⟩ }

/-- ZONE-SET (R108, R109). -/
def execZoneSet (f : Req) (zone : Nat) (spec : Option ZoneSpec) (s : State) : Result :=
  .next <| s.serve f 0x14 fun s =>
    match zoneId? zone with
    | none => .refuse s .range
    | some z =>
      if s.rezone.running then .refuse s .busy
      else
        match spec with
        | none => ⟨s.writeZone z none, .ok, .none⟩
        | some d =>
          match zoneRecord? d with
          | none => .refuse s .range
          | some r => ⟨s.writeZone z (some r), .ok, .none⟩

/-! ## ZONE-QUERY -/

/-- What ZONE-QUERY reports (R110). -/
def State.zoneReport (s : State) (z : ZoneId) : ZoneReport where
  zone := z
  fields := (s.zone z).fields
  admitted := (s.zone z).admitted
  seated := (s.zone z).seated
  latched := (s.zone z).latch.isSome
  stale := ((s.zone z).latch.map Latch.stale).getD false
  running := s.rezone.running
  subject := s.rezone.subject
  cursor := s.rezone.cursor
  changed := s.rezone.changed
  trimmed := s.rezone.trimmed

/-- ZONE-QUERY (R110). -/
def execZoneQuery (f : Req) (zone : Nat) (s : State) : Result :=
  .next <| s.serve f 0x15 fun s =>
    match zoneId? zone with
    | none => .refuse s .range
    | some z => ⟨s, .ok, .zone (s.zoneReport z)⟩

/-! ## Latching and reading -/

/-- Whether a set of zones holds a zone. -/
def hasZone (zs : ZoneSet) (z : ZoneId) : Bool := zs.getLsbD z

/-- A zone latched if its latch is free (R120). -/
def Zone.latched (running : Bool) (z : Zone) : Zone :=
  { z with latch := match z.latch with
      | some l => some l
      | none => some ⟨z.admitted, z.seated, running⟩ }

/-- The zones whose latch is held, as a set. -/
def State.heldLatches (s : State) : ZoneSet := setOf 32 fun z => (s.zone z).latch.isSome

/-- CENSUS-LATCH (R120). -/
def execCensusLatch (f : Req) (zones : ZoneSet) (s : State) : Result :=
  .next <| s.serve f 0x16 fun s =>
    let already := zones &&& s.heldLatches
    ⟨{ s with zones := Vector.ofFn fun z =>
        if hasZone zones z then (s.zone z).latched s.rezone.running else s.zone z },
      .ok, .latched (zones &&& ~~~ s.heldLatches) already⟩

/-- CENSUS-READ (R122); RANGE is answered with the code alone (log 41). -/
def execCensusRead (f : Req) (zone : Nat) (s : State) : Result :=
  .next <| s.serve f 0x17 fun s =>
    match zoneId? zone with
    | none => .refuse s .range
    | some z =>
      match (s.zone z).latch with
      | some l =>
        ⟨s.setZone z { s.zone z with latch := none }, .ok, .census l.admitted l.seated l.stale true s.rezone.running⟩
      | none => ⟨s, .ok, .census (s.zone z).admitted (s.zone z).seated false false s.rezone.running⟩

/-! ## The re-zone pass -/

/-- The first half of a visit to a held pass: its cached zone is brought to the map, its counts moved, and the latches of
the zones whose counts move marked stale (R114). -/
def State.visitZone (s : State) (p : Nat) (q : Pass) : State :=
  let z := s.cachedZone q.seat q.declared
  if q.cached = z then s
  else
    let t := (s.setPass p { q with cached := z }).rezoneCounts q.state q.cached z
    let u := if passInside q.state then (t.markStale q.cached).markStale z else t
    { u with rezone := { u.rezone with changed := u.rezone.changed + 1 } }

/-- The second half of a visit: a SEATED pass's bound station is trimmed, and its heads are recomputed if a channel was
removed (R114). -/
def State.visitStation (s : State) (q : Pass) : State :=
  match q.state, q.station with
  | .seated, some i =>
    if s.overSubscribed i then
      let t := (s.trim i).recomputeBoth i
      { t with rezone := { t.rezone with trimmed := t.rezone.trimmed + 1 } }
    else s
  | _, _ => s

/-- A visit to the pass record at an index (R114). -/
def State.visitPass (s : State) (p : Nat) : State :=
  match s.pass p with
  | none => s
  | some q => (s.visitZone p q).visitStation q

/-- The cursor moves on; after the visit to index 8191 the pass completes (R113, R115). -/
def State.advanceCursor (s : State) : State :=
  let r := { s.rezone with cursor := s.rezone.cursor + 1 }
  if r.cursor < 8192 then { s with rezone := r }
  else
    let t := { s with rezone := { r with running := false } }
    match r.subject with
    | none => t
    | some z => t.note (.rezoneDone z r.changed r.trimmed)

/-- REZONE_VISIT (R114, R115); with no pass running there is no visit (log 24). -/
def execRezoneVisit (s : State) : Result :=
  State.done <| if s.rezone.running then (s.visitPass s.rezone.cursor).advanceCursor else s

end Sys2Proof.Machine
end

