-- ==== Sys2Proof/Machine/Dispatch.lean ====
section
/-!
DEFINITION. The effect of a command on everything but the queue of waiting commands: one arm per command.
-/
namespace Sys2Proof.Machine

def exec (i : Instr) (s : State) : Host.Outcome State Fault Refusal :=
  match i with
  | .powerOn => Sys2Proof.Machine.execPowerOn s
  | .announce h => Sys2Proof.Machine.execAnnounce h s
  | .heartbeat h => Sys2Proof.Machine.execHeartbeat h s
  | .supervisionTimerExpiry h => Sys2Proof.Machine.execSupervisionTimerExpiry h s
  | .setupDone h => Sys2Proof.Machine.execSetupDone h s
  | .startTimerExpiry h => Sys2Proof.Machine.execStartTimerExpiry h s
  | .seatLinkFrameDiscarded link => Sys2Proof.Machine.execSeatLinkFrameDiscarded link s
  | .assocReq h addr rssi => Sys2Proof.Machine.execAssocReq h addr rssi s
  | .disassoc h addr => Sys2Proof.Machine.execDisassoc h addr s
  | .lost h addr => Sys2Proof.Machine.execLost h addr s
  | .stationReport h addr rssi cands => Sys2Proof.Machine.execStationReport h addr rssi cands s
  | .joinReq h addr chan => Sys2Proof.Machine.execJoinReq h addr chan s
  | .leaveReq h addr chan => Sys2Proof.Machine.execLeaveReq h addr chan s
  | .bindReq h addr pass => Sys2Proof.Machine.execBindReq h addr pass s
  | .unbindReq h addr => Sys2Proof.Machine.execUnbindReq h addr s
  | .ready h addr index => Sys2Proof.Machine.execReady h addr index s
  | .decline h addr index => Sys2Proof.Machine.execDecline h addr index s
  | .lapseTimerExpiry index => Sys2Proof.Machine.execLapseTimerExpiry index s
  | .handoverTimerExpiry index => Sys2Proof.Machine.execHandoverTimerExpiry index s
  | .windowTimerExpiry h => Sys2Proof.Machine.execWindowTimerExpiry h s
  | .segmentFrame port bytes => Sys2Proof.Machine.execSegmentFrame port bytes s
  | .holdTimerExpiry key => Sys2Proof.Machine.execHoldTimerExpiry key s
  | .paceTimerExpiry c => Sys2Proof.Machine.execPaceTimerExpiry c s
  | .readCompletion => Sys2Proof.Machine.execReadCompletion s
  | .rezoneVisit => Sys2Proof.Machine.execRezoneVisit s
  | .transactionBegin => Sys2Proof.Machine.execTransactionBegin s
  | .transactionEnd bytes => Sys2Proof.Machine.execTransactionEnd bytes s
  | .badFrame => Sys2Proof.Machine.execBadFrame s
  | .unknownRequestType => Sys2Proof.Machine.execUnknownRequestType s
  | .hello f => Sys2Proof.Machine.execHello f s
  | .start f => Sys2Proof.Machine.execStart f s
  | .restart f => Sys2Proof.Machine.execRestart f s
  | .noticeEnable f andMask orMask => Sys2Proof.Machine.execNoticeEnable f andMask orMask s
  | .tierSet f row => Sys2Proof.Machine.execTierSet f row s
  | .roamSet f hysteresis dwell lapse pub => Sys2Proof.Machine.execRoamSet f hysteresis dwell lapse pub s
  | .headSetupPart1 f head radio step => Sys2Proof.Machine.execHeadSetupPart1 f head radio step s
  | .headSetupPart2 f head cap floor => Sys2Proof.Machine.execHeadSetupPart2 f head cap floor s
  | .headSetupPart3 f head neighbours => Sys2Proof.Machine.execHeadSetupPart3 f head neighbours s
  | .headControlStart f head known => Sys2Proof.Machine.execHeadControlStart f head known s
  | .headControlDrain f head known => Sys2Proof.Machine.execHeadControlDrain f head known s
  | .headControlStop f head known => Sys2Proof.Machine.execHeadControlStop f head known s
  | .headLimits f head cap floor => Sys2Proof.Machine.execHeadLimits f head cap floor s
  | .headQuery f head => Sys2Proof.Machine.execHeadQuery f head s
  | .headStats f head => Sys2Proof.Machine.execHeadStats f head s
  | .stationQuery f station => Sys2Proof.Machine.execStationQuery f station s
  | .stationMove f index target => Sys2Proof.Machine.execStationMove f index target s
  | .stationEvict f index => Sys2Proof.Machine.execStationEvict f index s
  | .passLoad f entries => Sys2Proof.Machine.execPassLoad f entries s
  | .passAmend f number tier seat declared => Sys2Proof.Machine.execPassAmend f number tier seat declared s
  | .passVoid f number => Sys2Proof.Machine.execPassVoid f number s
  | .passDrop f number => Sys2Proof.Machine.execPassDrop f number s
  | .passQuery f pass => Sys2Proof.Machine.execPassQuery f pass s
  | .gateScan f number gate dir => Sys2Proof.Machine.execGateScan f number gate dir s
  | .zoneSet f zone spec => Sys2Proof.Machine.execZoneSet f zone spec s
  | .zoneQuery f zone => Sys2Proof.Machine.execZoneQuery f zone s
  | .censusLatch f zones => Sys2Proof.Machine.execCensusLatch f zones s
  | .censusRead f zone => Sys2Proof.Machine.execCensusRead f zone s
  | .ingestMode f mode strict => Sys2Proof.Machine.execIngestMode f mode strict s
  | .programSet f program level auto loop => Sys2Proof.Machine.execProgramSet f program level auto loop s
  | .channelSetup f chan pace rated mode => Sys2Proof.Machine.execChannelSetup f chan pace rated mode s
  | .channelEnable f andMask orMask => Sys2Proof.Machine.execChannelEnable f andMask orMask s
  | .play f chan clip level base count loop => Sys2Proof.Machine.execPlay f chan clip level base count loop s
  | .stop f chan levels => Sys2Proof.Machine.execStop f chan levels s
  | .channelStatus f chan => Sys2Proof.Machine.execChannelStatus f chan s
  | .clipQuery f clip => Sys2Proof.Machine.execClipQuery f clip s
  | .clipPin f clip pin => Sys2Proof.Machine.execClipPin f clip pin s
  | .clipRetire f clip => Sys2Proof.Machine.execClipRetire f clip s

end Sys2Proof.Machine
end

