-- ==== Sys2Proof/Machine/Step.lean ====
section
/-!
DEFINITION. One step of the part: the command at the front of the queue, or a tick of the clock while nothing waits.
-/
namespace Sys2Proof.Machine

/-- The part with nothing to do: one microsecond passes (log 1). -/
def State.idle (s : State) : State := { s with now := s.now + 1 }

/-- One step: the command that has waited longest takes its effect on the state with the rest of the queue; with no
command waiting the part idles (logs 1, 32). -/
def step (s : State) : Host.Outcome State Fault Refusal :=
  match s.pending with
  | [] => .next s.idle
  | c :: rest => exec c { s with pending := rest }

/-- The state with a command put at the front of its queue. -/
def State.withCommand (s : State) (c : Instr) : State := { s with pending := c :: s.pending }

/-- The state with the command that a word spells put at the front of its queue; no row of the table has bits, so no word
spells one (log 33). -/
def State.withFetchWord (s : State) (nbits w : Nat) : State :=
  match decodeTableWord nbits w with
  | none => s
  | some c => s.withCommand c

end Sys2Proof.Machine
end

