-- ==== Sys2Proof/Catalogue.lean ====
section
/-!
DEFINITION. The request catalogue (section 11.6): which commands are requests of the host, and the type of each; and which
commands are seat-link frames that the link side hands on in RUN alone (R2).
-/
namespace Sys2Proof

/-- A request's type code in the catalogue, with what every request frame carries; none for a command that is no request of
the catalogue. -/
def Instr.request? : Instr → Option (Byte × Req)
  | .powerOn => none
  | .announce _ => none
  | .heartbeat _ => none
  | .supervisionTimerExpiry _ => none
  | .setupDone _ => none
  | .startTimerExpiry _ => none
  | .seatLinkFrameDiscarded _ => none
  | .assocReq _ _ _ => none
  | .disassoc _ _ => none
  | .lost _ _ => none
  | .stationReport _ _ _ _ => none
  | .joinReq _ _ _ => none
  | .leaveReq _ _ _ => none
  | .bindReq _ _ _ => none
  | .unbindReq _ _ => none
  | .ready _ _ _ => none
  | .decline _ _ _ => none
  | .lapseTimerExpiry _ => none
  | .handoverTimerExpiry _ => none
  | .windowTimerExpiry _ => none
  | .segmentFrame _ _ => none
  | .holdTimerExpiry _ => none
  | .paceTimerExpiry _ => none
  | .readCompletion => none
  | .rezoneVisit => none
  | .transactionBegin => none
  | .transactionEnd _ => none
  | .badFrame => none
  | .unknownRequestType => none
  | .hello f => some (0x01, f)
  | .start f => some (0x02, f)
  | .restart f => some (0x03, f)
  | .noticeEnable f _ _ => some (0x04, f)
  | .tierSet f _ => some (0x05, f)
  | .roamSet f _ _ _ _ => some (0x06, f)
  | .headSetupPart1 f _ _ _ => some (0x07, f)
  | .headSetupPart2 f _ _ _ => some (0x07, f)
  | .headSetupPart3 f _ _ => some (0x07, f)
  | .headControlStart f _ _ => some (0x08, f)
  | .headControlDrain f _ _ => some (0x08, f)
  | .headControlStop f _ _ => some (0x08, f)
  | .headLimits f _ _ _ => some (0x09, f)
  | .headQuery f _ => some (0x0A, f)
  | .headStats f _ => some (0x22, f)
  | .stationQuery f _ => some (0x0B, f)
  | .stationMove f _ _ => some (0x0C, f)
  | .stationEvict f _ => some (0x0D, f)
  | .passLoad f _ => some (0x0E, f)
  | .passAmend f _ _ _ _ => some (0x0F, f)
  | .passVoid f _ => some (0x10, f)
  | .passDrop f _ => some (0x11, f)
  | .passQuery f _ => some (0x12, f)
  | .gateScan f _ _ _ => some (0x13, f)
  | .zoneSet f _ _ => some (0x14, f)
  | .zoneQuery f _ => some (0x15, f)
  | .censusLatch f _ => some (0x16, f)
  | .censusRead f _ => some (0x17, f)
  | .ingestMode f _ _ => some (0x18, f)
  | .programSet f _ _ _ _ => some (0x19, f)
  | .channelSetup f _ _ _ _ => some (0x1A, f)
  | .channelEnable f _ _ => some (0x1B, f)
  | .play f _ _ _ _ _ _ => some (0x1C, f)
  | .stop f _ _ => some (0x1D, f)
  | .channelStatus f _ => some (0x1E, f)
  | .clipQuery f _ => some (0x1F, f)
  | .clipPin f _ _ => some (0x20, f)
  | .clipRetire f _ => some (0x21, f)

/-- The head of a seat-link frame of a kind that is handed on in RUN alone: every kind but ANNOUNCE, HEARTBEAT and ASSOC-REQ
(R2). -/
def Instr.frameHead? : Instr → Option HeadId
  | .powerOn => none
  | .announce _ => none
  | .heartbeat _ => none
  | .supervisionTimerExpiry _ => none
  | .setupDone h => some h
  | .startTimerExpiry _ => none
  | .seatLinkFrameDiscarded _ => none
  | .assocReq _ _ _ => none
  | .disassoc h _ => some h
  | .lost h _ => some h
  | .stationReport h _ _ _ => some h
  | .joinReq h _ _ => some h
  | .leaveReq h _ _ => some h
  | .bindReq h _ _ => some h
  | .unbindReq h _ => some h
  | .ready h _ _ => some h
  | .decline h _ _ => some h
  | .lapseTimerExpiry _ => none
  | .handoverTimerExpiry _ => none
  | .windowTimerExpiry _ => none
  | .segmentFrame _ _ => none
  | .holdTimerExpiry _ => none
  | .paceTimerExpiry _ => none
  | .readCompletion => none
  | .rezoneVisit => none
  | .transactionBegin => none
  | .transactionEnd _ => none
  | .badFrame => none
  | .unknownRequestType => none
  | .hello _ => none
  | .start _ => none
  | .restart _ => none
  | .noticeEnable _ _ _ => none
  | .tierSet _ _ => none
  | .roamSet _ _ _ _ _ => none
  | .headSetupPart1 _ _ _ _ => none
  | .headSetupPart2 _ _ _ _ => none
  | .headSetupPart3 _ _ _ => none
  | .headControlStart _ _ _ => none
  | .headControlDrain _ _ _ => none
  | .headControlStop _ _ _ => none
  | .headLimits _ _ _ _ => none
  | .headQuery _ _ => none
  | .headStats _ _ => none
  | .stationQuery _ _ => none
  | .stationMove _ _ _ => none
  | .stationEvict _ _ => none
  | .passLoad _ _ => none
  | .passAmend _ _ _ _ _ => none
  | .passVoid _ _ => none
  | .passDrop _ _ => none
  | .passQuery _ _ => none
  | .gateScan _ _ _ _ => none
  | .zoneSet _ _ _ => none
  | .zoneQuery _ _ => none
  | .censusLatch _ _ => none
  | .censusRead _ _ => none
  | .ingestMode _ _ _ => none
  | .programSet _ _ _ _ _ => none
  | .channelSetup _ _ _ _ _ => none
  | .channelEnable _ _ _ => none
  | .play _ _ _ _ _ _ _ => none
  | .stop _ _ _ => none
  | .channelStatus _ _ => none
  | .clipQuery _ _ => none
  | .clipPin _ _ _ => none
  | .clipRetire _ _ => none

end Sys2Proof
end

