-- ==== Sys2Proof/Machine/Views.lean ====
section
/-!
DEFINITION. Groups of the part's records, so that a frame can be said in one equation: what stands in a group is unchanged.
Every field of State but `now`, `held`, `linkOut`, `heads`, `discards`, `outbound` and `lost` is in one group.
-/
namespace Sys2Proof.Machine

/-- The part state and the Control Link Port, but for the outbound queue and the notices-lost flag, which every event that
produces notices may change (R190). -/
def State.linkView (s : State) :=
  (s.pending, s.free, s.spiOut, s.part, s.inbound, s.enables, s.rejected, s.transaction)

/-- What the host configures: tier table, roam settings, program table, ingest mode, arbiter mode. -/
def State.configView (s : State) := (s.tiers, s.unbound, s.roam, s.programs, s.mode, s.strict, s.arbMode)

/-- The station records and the holds. -/
def State.stationView (s : State) := (s.stations, s.holds)

/-- The pass records, the zones and the re-zone pass. -/
def State.passView (s : State) := (s.passes, s.zones, s.rezone)

/-- The ingest ports, the clips, the slots and the stacked DRAM. -/
def State.replayView (s : State) :=
  (s.portA, s.portB, s.holdTimers, s.marks, s.clips, s.ages, s.slots, s.dram)

/-- The playout channels, the rotation pointer and the read port. -/
def State.playView (s : State) := (s.channels, s.pointer, s.port)

/-- All that the work of a station, pass or zone command leaves alone: everything but the heads, the station, hold, pass and
zone records, the frames sent, the discard counts and the notices produced. -/
def State.besideBowl (s : State) :=
  (s.linkView, s.configView, s.replayView, s.playView, s.rezone, s.now, s.outbound, s.lost)

/-- All that the work of an ingest or playout command leaves alone: everything but the heads, the clips, slots, ingest ports,
channels and read port, the frames sent and the notices produced. -/
def State.besideReplay (s : State) :=
  (s.linkView, s.configView, s.stationView, s.passView, s.discards, s.now, s.outbound, s.lost)

/-- All that a command of the bowl leaves alone, the notices it offers apart: everything but the heads, the station, hold,
pass and zone records, the frames sent, and the outbound queue with its lost flag. -/
def State.outsideBowl (s : State) :=
  (s.linkView, s.configView, s.replayView, s.playView, s.rezone, s.now, s.discards, s.held)

/-- All that an ingest or playout command leaves alone, the notices it offers apart: everything but the heads, the clips,
slots, ingest ports, channels and read port, the frames sent, and the outbound queue with its lost flag. -/
def State.outsideReplay (s : State) :=
  (s.linkView, s.configView, s.stationView, s.passView, s.now, s.discards, s.held)

end Sys2Proof.Machine
end

