-- ==== Sys2Proof/Safety.lean ====
section
/-!
DEFINITION. What a sound state of the part is: the laws the manual says its records always keep; and the terms statements
are made in.
-/
namespace Sys2Proof.Machine

/-! ## The control link and the heads -/

/-- The queues keep their bounds (R188, R190), and no notice is left over between commands (log 23). -/
def State.LinkInv (s : State) : Prop := s.outbound.length ≤ 64 ∧ s.inbound.length ≤ 4 ∧ s.held = []

/-- Whether a head is ON or DRAINING: it serves stations. -/
def Head.serving (x : Head) : Bool := x.state == .on || x.state == .draining

/-- A head record is in order: its timers run in the states that R5 and R14 name, its account is open in those that R44
names, its values keep their ranges (R3, R8, R44), and no setup sequence is open while it is live (R10). -/
def HeadInOrder (h : HeadId) (x : Head) : Prop :=
  x.account.isSome = x.serving
    ∧ x.supervision.isSome = (x.state == .dark || x.live)
    ∧ x.startTimer.isSome = (x.state == .starting)
    ∧ 10000 ≤ x.cap ∧ x.cap ≤ 90000 ∧ x.floor ≤ 7 ∧ x.miss ≤ 3 ∧ x.seqPos ≤ 3
    ∧ h ∉ x.neighbours ∧ x.neighbours.length ≤ 8 ∧ x.neighbours.Nodup
    ∧ (x.live = true → x.seqPos = 0)

/-- Every head record is in order. -/
def State.HeadsInv (s : State) : Prop := ∀ h, HeadInOrder h (s.head h)

/-- In CONFIG no head is live, every station record is vacant, no clip is held and every channel is idle (R23, R139, R160,
R194). -/
def State.ConfigInv (s : State) : Prop :=
  s.part = .config →
    (∀ h, (s.head h).live = false) ∧ s.stations = [] ∧ s.holds = [] ∧ s.clips = []
      ∧ s.portA.queue = [] ∧ s.portB.queue = [] ∧ ∀ c, (s.channel c).running = false

/-! ## The tables -/

/-- The station records: indices rising within 0–4095, no address held twice (R19, R20). -/
def State.StationsInv (s : State) : Prop :=
  Table.wf s.stations ∧ (∀ p ∈ s.stations, p.1 < 4096) ∧ (s.stations.map fun p => p.2.addr).Nodup

/-- The pass records: indices rising within 0–8191, no number held twice and none zero (R85, R86). -/
def State.PassesInv (s : State) : Prop :=
  Table.wf s.passes ∧ (∀ p ∈ s.passes, p.1 < 8192 ∧ p.2.number ≠ 0) ∧ (s.passes.map fun p => p.2.number).Nodup

/-- The clip records and slots: indices rising within 0–63 and 0–16383, no key held twice (R141, R144). -/
def State.ClipsInv (s : State) : Prop :=
  Table.wf s.clips ∧ (∀ p ∈ s.clips, p.1 < 64) ∧ (s.clips.map fun p => p.2.key).Nodup
    ∧ Table.wf s.slots ∧ ∀ p ∈ s.slots, p.1 < 16384

/-- The stored records keep their canonical form, the stacked DRAM among them. -/
def State.StoreInv (s : State) : Prop := s.StationsInv ∧ s.PassesInv ∧ s.ClipsInv ∧ Memory.wf s.dram

/-! ## The bowl -/

/-- A station record stands as its state says (R19, R21, R123): a member of a head that is ON or DRAINING unless LAPSED,
with a target while MOVING alone, with its lapse timer running while LAPSED alone, with a pass when SEATED and none when
ASSOC; LAPSED it holds no airtime; capped, it holds less than its tier value. -/
def StationStands (s : State) (st : Station) : Prop :=
  (st.current = none ↔ st.state = .lapsed) ∧ (st.target.isSome ↔ st.state = .moving)
    ∧ (st.lapse.isSome ↔ st.state = .lapsed)
    ∧ (∀ h, st.current = some h → (s.head h).serving = true)
    ∧ (st.state = .assoc → st.pass = none) ∧ (st.state = .seated → st.pass.isSome)
    ∧ (st.state = .lapsed → st.res = 0 ∧ st.capped = false) ∧ (st.capped = true → st.res < s.tierValue st)

/-- A hold belongs to a station in MOVING whose current head is its source and whose target is its target, another head
that is ON or DRAINING; its channel set is the station's (R61). -/
def HoldStands (s : State) (x : Hold) : Prop :=
  x.source ≠ x.target ∧ (s.head x.target).serving = true
    ∧ ∃ st, s.station x.station = some st ∧ st.state = .moving ∧ st.current = some x.source
      ∧ st.target = some x.target ∧ x.chans = st.chans

/-- Every station and every hold stands as it should, every MOVING station has exactly one hold, and members plus holds
never exceed 64 at a head (R21, R61). -/
def State.MovesInv (s : State) : Prop :=
  (∀ i st, s.station i = some st → StationStands s st) ∧ (∀ x ∈ s.holds, HoldStands s x)
    ∧ (s.holds.map Hold.station).Nodup
    ∧ (∀ i st, s.station i = some st → st.state = .moving → ∃ x ∈ s.holds, x.station = i)
    ∧ ∀ h, (s.members h).length + (s.holdsAt h).length ≤ 64

/-- A pass names a bound station exactly when that station names the pass, and a pass holds a station exactly when it is
SEATED (R123). -/
def State.BindingInv (s : State) : Prop :=
  (∀ p q i, s.pass p = some q → q.station = some i → ∃ st, s.station i = some st ∧ st.pass = some p)
    ∧ (∀ i st p, s.station i = some st → st.pass = some p → ∃ q, s.pass p = some q ∧ q.station = some i)
    ∧ ∀ p q, s.pass p = some q → (q.station.isSome ↔ q.state = .seated)

/-- How many passes satisfy a condition. -/
def State.passCount (s : State) (f : Pass → Bool) : Nat := s.passes.countP fun p => f p.2

/-- Each zone's counts are the number of its passes inside the bowl and the number of those that are SEATED (R118). -/
def State.CensusInv (s : State) : Prop :=
  ∀ z, (s.zone z).admitted = s.passCount (fun q => q.cached == some z && passInside q.state)
    ∧ (s.zone z).seated = s.passCount (fun q => q.cached == some z && passSeated q.state)

/-- Whether the re-zone pass leaves a pass record's cached zone as the map has it: no pass runs, or the record's index is below
the cursor (R113). -/
def State.Visited (s : State) (p : Nat) : Prop := s.rezone.running = true → p < s.rezone.cursor

/-- The re-zone pass is in order: while it runs its cursor is below 8,192 and it has a subject; its tallies stay within its cursor
(R113). Every record it has visited, and every record while none runs, holds the cached zone the map gives it (R115). -/
def State.RezoneInv (s : State) : Prop :=
  (s.rezone.running = true → s.rezone.cursor < 8192 ∧ s.rezone.subject.isSome) ∧ s.rezone.cursor ≤ 8192
    ∧ s.rezone.changed ≤ s.rezone.cursor ∧ s.rezone.trimmed ≤ s.rezone.cursor
    ∧ ∀ p q, s.pass p = some q → s.Visited p → q.cached = s.cachedZone q.seat q.declared

/-- Every station's channel set is contained in its permitted set, but for a bound station whose pass a re-zone pass in progress
has yet to visit (R35). -/
def State.ChansInv (s : State) : Prop :=
  ∀ i st, s.station i = some st → (∀ p, st.pass = some p → s.Visited p) → st.chans &&& ~~~ s.permitted st = 0

/-- An accounting entry is what R43 says of its channel for some parties: NOT COUNTED unless the channel is RUN and has
subscribers; else COUNTED or SHED at the planned rate and the cost of that rate (R41, R42). -/
def EntryTrue (x : Channel) (ps : List Party) (floor : Nat) (c : Chan) (e : Entry) : Prop :=
  match x.running, plannedRate ps floor c with
  | true, some k => e = .counted k (x.pace * frameAirtime x.rated k) ∨ e = .shed k (x.pace * frameAirtime x.rated k)
  | _, _ => e = .notCounted

/-- A head's account is true: each entry is what R43 says, the totals are the sums of R45, and no venue-level channel is
SHED (R47). -/
def State.AccountTrue (s : State) (h : HeadId) (a : Account) : Prop :=
  (∀ c, EntryTrue (s.channel c) (s.parties h) (s.head h).floor c a.entries[c])
    ∧ a.committed = s.committedOf (s.parties h) a.entries ∧ a.venue = s.venueOf a.entries
    ∧ ∀ c, s.atVenue c = true → ∀ k cost, a.entries[c] ≠ .shed k cost

/-- Every open account is true and within its head's cap: the committed total, and the reservations by themselves (R45,
R46). -/
def State.AirtimeInv (s : State) : Prop :=
  ∀ h a, (s.head h).account = some a →
    s.AccountTrue h a ∧ a.committed ≤ (s.head h).cap ∧ resSum (s.parties h) ≤ (s.head h).cap

/-! ## Replay -/

/-- The slots of all clips' segment lists and of both hold queues. -/
def State.slotsHeld (s : State) : List Nat :=
  (s.clips.flatMap fun p => p.2.segments) ++ (s.portA.queue ++ s.portB.queue).map HeldSegment.slot

/-- No slot is held twice, and the slots in use are those that are held (R144). -/
def State.SlotsInv (s : State) : Prop :=
  s.slotsHeld.Nodup ∧ ∀ n, n ∈ s.slotsHeld ↔ n ∈ s.slots.map Prod.fst

/-- The clips that a channel's entries and outstanding read name, one for each (R143). -/
def Channel.names (x : Channel) : List Nat :=
  ((levelsDown.filterMap x.entry).map InService.clip) ++ ((levelsDown.filterMap x.waiting).map Pending.clip)
    ++ x.read.toList.map Read.clip

/-- The clips that every channel's entries and reads name. -/
def State.named (s : State) : List Nat := (List.finRange 8).flatMap fun c => (s.channel c).names

/-- A clip's use count is the number of entries and reads that name it, and no clip so named is vacant (R143). -/
def State.UseInv (s : State) : Prop :=
  (∀ i k, s.clip i = some k → k.useCount = s.named.count i) ∧ ∀ i ∈ s.named, (s.clip i).isSome

/-- A clip record is in order: a READY clip holds every segment up to its last index (R142), a clip that is not FILLING has no
held entry, and the held entries of one that is lie between what it has appended and its last index (R148, R151). -/
def ClipInOrder (s : State) (k : Clip) : Prop :=
  k.segments.length ≤ 4096
    ∧ (k.state ≠ .filling → s.keyHeld k.key = false)
    ∧ (k.state = .ready → k.last.map (· + 1) = some k.segments.length)
    ∧ (k.state = .filling → ∀ n, k.last = some n → k.segments.length ≤ n)
    ∧ (k.state = .filling → ∀ x ∈ s.portA.queue ++ s.portB.queue, x.key = k.key →
        k.segments.length ≤ x.index ∧ ∀ n, k.last = some n → x.index ≤ n)

/-- The clips are in order, the age order lists each clip present once (R141), the hold queues and their indices keep their
bounds (R136, R154), and the keys with a running hold timer are those with a held entry (R155). -/
def State.IngestInv (s : State) : Prop :=
  (∀ i k, s.clip i = some k → ClipInOrder s k)
    ∧ s.ages.Nodup ∧ (∀ i, i ∈ s.ages ↔ (s.clip i).isSome)
    ∧ s.portA.queue.length ≤ 256 ∧ s.portB.queue.length ≤ 256
    ∧ (∀ x ∈ s.portA.queue ++ s.portB.queue, x.index ≤ 4095)
    ∧ (s.holdTimers.map Prod.fst).Nodup ∧ ∀ k, k ∈ s.holdTimers.map Prod.fst ↔ s.keyHeld k = true

/-- A channel is in order: its pace timer runs exactly while it is RUN (R160); its setup keeps its ranges (R159); a read
still its current entry's is of that entry at that entry's cursor (R164, R166). -/
def ChannelInOrder (x : Channel) : Prop :=
  x.timer.isSome = x.running ∧ 1 ≤ x.pace ∧ x.pace ≤ 40 ∧ 256 ≤ x.rated ∧ x.rated ≤ 2048
    ∧ ∀ r, x.read = some r → r.valid = true →
      x.currentLevel = some r.level ∧ ∃ e, x.entry r.level = some e ∧ e.clip = r.clip ∧ e.cursor = r.index

/-- Every channel is in order, the segment a read names is in its clip (R164), and the read on the port is a channel's
outstanding read; while the port is free no read waits (R165). -/
def State.PlayInv (s : State) : Prop :=
  (∀ c, ChannelInOrder (s.channel c))
    ∧ (∀ c r, (s.channel c).read = some r → ∃ k, s.clip r.clip = some k ∧ r.index < k.segments.length)
    ∧ (∀ c, s.port = .busy c → (s.channel c).read.isSome)
    ∧ (s.port = .free → ∀ c, (s.channel c).read = none)

/-- A sound state: every law above. -/
structure State.Sound (s : State) : Prop where
  link     : s.LinkInv
  heads    : s.HeadsInv
  config   : s.ConfigInv
  store    : s.StoreInv
  moves    : s.MovesInv
  binding  : s.BindingInv
  census   : s.CensusInv
  rezone   : s.RezoneInv
  chans    : s.ChansInv
  airtime  : s.AirtimeInv
  slots    : s.SlotsInv
  use      : s.UseInv
  ingest   : s.IngestInv
  play     : s.PlayInv

/-! ## Terms for statements -/

/-- A request of a type is taken from a state, and leaves another for its work (R189): its body fits, and no notice is left
over from an earlier command. -/
def State.Takes (s : State) (type : Byte) (f : Req) (u : State) : Prop :=
  s.takeRequest type f.tag = some u ∧ f.fits = true ∧ s.held = []

/-- A seat-link frame from a head is handed on in RUN (R2): the head is neither ABSENT nor in FAULT; and no notice is left
over from an earlier command. -/
def State.Hears (s : State) (h : HeadId) : Prop :=
  s.part = .run ∧ (s.head h).state ≠ .absent ∧ (s.head h).state ≠ .fault ∧ s.held = []

/-- An address is that of the station at an index, which is a member of a head (R20, R22). -/
def State.Member (s : State) (h : HeadId) (addr : StationAddress) (i : Nat) (st : Station) : Prop :=
  s.lookupStation addr = some i ∧ s.station i = some st ∧ st.addr = addr ∧ st.current = some h

/-- From one state to another, notices have been offered: those of an enabled class, in order, as many as find the outbound
queue below 60 frames; the flag notices lost is set if one did not (R190, R191). -/
def State.Offered (s t : State) (ns : List Notice) : Prop :=
  let wanted := ns.filter fun n => s.classEnabled (noticeClass n)
  t.outbound = s.outbound ++ (wanted.take (60 - s.outbound.length)).map .notice
    ∧ t.lost = (s.lost || decide (60 - s.outbound.length < wanted.length))

/-- All a bowl command leaves alone is as it was, and it has offered some notices. -/
def State.InBowl (s t : State) (ns : List Notice) : Prop := t.outsideBowl = s.outsideBowl ∧ s.Offered t ns

/-- All an ingest or playout command leaves alone is as it was, and it has offered some notices. -/
def State.InReplay (s t : State) (ns : List Notice) : Prop := t.outsideReplay = s.outsideReplay ∧ s.Offered t ns

/-- The zones after counts have moved: at one zone, if one is named, each count by its function; elsewhere nothing (R88,
R118). -/
def State.CountsMoved (s t : State) (z : Option ZoneId) (admitted seated : Nat → Nat) : Prop :=
  ∀ k, t.zone k =
    if z = some k then { s.zone k with admitted := admitted (s.zone k).admitted, seated := seated (s.zone k).seated }
    else s.zone k

/-- The head record of a head is the same in both states but for the entries and totals of its account. -/
def SameButAccount (x y : Head) : Prop := { x with account := none } = { y with account := none }

/-- The heads outside a set of heads are the same in both states; those in it, but for their accounts. -/
def State.HeadsKept (s t : State) (touched : List HeadId) : Prop :=
  ∀ g, (g ∈ touched → SameButAccount (s.head g) (t.head g)) ∧ (g ∉ touched → t.head g = s.head g)

/-- A member's record with its reservation in force set toward a goal at its head: the goal if that is at or below it, or if the
raise fits; else capped at the old value. A station that is a member of no head keeps its reservation (R51, R52). -/
def State.SetToward (s : State) (st : Station) (goal : Nat) (x : Station) : Prop :=
  (st.current = none → x = st)
    ∧ ∀ h, st.current = some h →
      (goal ≤ st.res ∨ resSum (s.parties h) - st.res + goal ≤ (s.head h).cap → x = { st with res := goal, capped := false })
      ∧ (st.res < goal → (s.head h).cap < resSum (s.parties h) - st.res + goal → x = { st with capped := true })

/-- A station's record has become another, its hold has taken the channel set, and no other station or hold has changed; of the
heads only the station's own and its target have, in their accounts, which are true (R38, R97, R101). -/
def State.StationBecomes (s t : State) (i : Nat) (st x : Station) : Prop :=
  t.station i = some x ∧ (∀ j, j ≠ i → t.station j = s.station j)
    ∧ t.holds = s.holds.map (fun y => if y.station = i then { y with chans := x.chans } else y)
    ∧ s.HeadsKept t (st.current.toList ++ st.target.toList)
    ∧ ∀ g a, (st.current = some g ∨ st.target = some g) → (t.head g).account = some a → t.AccountTrue g a

/-- The station side of an unbinding (R97): without a bound station nothing changes; with one, it is left as an unbound station.
-/
def State.StationUnbound (s t : State) (q : Pass) : Prop :=
  (q.station = none → t.stations = s.stations ∧ t.holds = s.holds ∧ t.heads = s.heads)
    ∧ ∀ i st, q.station = some i → s.station i = some st →
      ∃ x, s.SetToward st s.unbound x
        ∧ s.StationBecomes t i st { x with
            pass := none, state := if st.state = .seated then .assoc else st.state, chans := st.chans &&& s.roam.pub }

/-- The pass side of an unbinding, with the pass left as a record or vacant: no other pass changes, and its zone's counts lose
what the pass no longer counts as (R88, R96). -/
def State.PassLeaves (s t : State) (p : Nat) (q : Pass) (after : Option Pass) : Prop :=
  t.pass p = after ∧ (∀ k, k ≠ p → t.pass k = s.pass k)
    ∧ s.CountsMoved t q.cached
      (fun n => if passInside q.state ∧ !((after.map fun x => passInside x.state).getD false) then n - 1 else n)
      (fun n => if q.state = .seated then n - 1 else n)

/-- A good segment frame is taken at a port in use: its fields, with the markers its port may not send clear, and the state with the
frame counted (R137, R138, R139); no notice is left over from an earlier command. -/
def State.TakesFrame (s : State) (p : Port) (bytes : List Byte) (f : SegmentFrame) (v : State) : Prop :=
  s.part = .run ∧ (s.mode = .single → p = .a) ∧ s.held = []
    ∧ ∃ (raw : SegmentFrame) (tolerated : Bool), checkFrame s.strict bytes = some (raw, tolerated)
      ∧ f = { raw with
          isOpen := raw.isOpen && (p == .a || s.mode == .dual), isClose := raw.isClose && (p == .a || s.mode == .dual)
          handoff := raw.handoff && (p == .a && s.mode == .split) }
      ∧ v = s.updateIngest p fun x => { x with counts := { x.counts with
          good := min 65535 (x.counts.good + 1)
          tolerated := if tolerated then min 65535 (x.counts.tolerated + 1) else x.counts.tolerated
          ignored := if f = raw then x.counts.ignored else min 65535 (x.counts.ignored + 1) } }

/-- Held entries of a key at some indices have left both queues, the others keeping their order; their slots are free but for those a
clip keeps; the key's hold timer has stopped if none is left (R154, R155). -/
def State.HeldLeave (s t : State) (key : Key) (gone : Nat → Bool) (kept : List Nat) : Prop :=
  let freed := fun n => n ∉ kept ∧ ∃ p x, x ∈ (s.ingest p).queue ∧ x.key = key ∧ gone x.index = true ∧ x.slot = n
  (∀ p, (t.ingest p).queue = (s.ingest p).queue.filter fun x => !(x.key == key && gone x.index))
    ∧ (∀ n, (freed n → Table.get t.slots n = none) ∧ (¬ freed n → Table.get t.slots n = Table.get s.slots n))
    ∧ t.holdTimers = if t.keyHeld key then s.holdTimers else s.holdTimers.filter fun x => x.1 != key

/-- The released counts of both ports have risen by the held entries of a key at some indices (R138). -/
def State.CountsReleased (s t : State) (key : Key) (gone : Nat → Bool) : Prop :=
  ∀ p, (t.ingest p).counts = { (s.ingest p).counts with
    released := min 65535 ((s.ingest p).counts.released
      + ((s.ingest p).queue.filter fun x => x.key == key && gone x.index).length) }

/-- A FILLING clip has become DAMAGED, and nothing else has happened (R142). -/
def State.ClipDamaged (s t : State) (i : Nat) (k : Clip) (cause : DamageCause) : Prop :=
  t.clip i = some { k with state := .damaged } ∧ (∀ j, j ≠ i → t.clip j = s.clip j)
    ∧ s.HeldLeave t k.key (fun _ => true) [] ∧ s.CountsReleased t k.key (fun _ => true)
    ∧ t.ages = s.ages ∧ t.marks = s.marks ∧ t.dram = s.dram ∧ t.playView = s.playView ∧ t.heads = s.heads
    ∧ t.linkOut = s.linkOut ∧ s.InReplay t [.clip (.index i) (.damaged cause k.segments.length)]

/-- A port's count of segments dropped as unplaced is raised (R138). -/
def State.unplacedAt (s : State) (p : Port) : State :=
  s.updateIngest p fun x => { x with counts := { x.counts with unplaced := min 65535 (x.counts.unplaced + 1) } }

/-- A port's count of segments dropped as duplicates is raised (R138). -/
def State.duplicateAt (s : State) (p : Port) : State :=
  s.updateIngest p fun x => { x with counts := { x.counts with duplicate := min 65535 (x.counts.duplicate + 1) } }

/-- A port's count of segments dropped as foreign is raised (R138). -/
def State.foreignAt (s : State) (p : Port) : State :=
  s.updateIngest p fun x => { x with counts := { x.counts with foreign := min 65535 (x.counts.foreign + 1) } }

/-- The lowest vacant index of a table of a size (R20, R86, R141, R144). -/
def LowestVacant {α : Type} (t : Table α) (size i : Nat) : Prop :=
  i < size ∧ Table.get t i = none ∧ ∀ j, j < i → (Table.get t j).isSome

/-- No index of a table of a size is vacant. -/
def NoneVacant {α : Type} (t : Table α) (size : Nat) : Prop := ∀ i, i < size → (Table.get t i).isSome

/-- A clip is a candidate for eviction; when a slot is wanted, it holds one (R145). -/
def State.Candidate (s : State) (wantSlot : Bool) (i : Nat) (k : Clip) : Prop :=
  s.clip i = some k ∧ k.state ≠ .filling ∧ k.useCount = 0 ∧ k.pinned = false ∧ (wantSlot = true → k.segments ≠ [])

/-! ## Weighing -/

/-- The score of a station at a head where its RSSI is as given: the RSSI, its zone term and the head's load penalty (R59, R63,
R64). -/
def State.scoreAt (s : State) (st : Station) (g : HeadId) (rssi : Int) : Int :=
  rssi + (match (st.pass.bind s.pass).bind Pass.cached with
    | none => 0
    | some z => if g ∈ s.zoneHeads z then 6 else -10) - s.penalty g

/-- A candidate is kept in a weighing at a current head (R66). -/
def State.Kept (s : State) (st : Station) (here : HeadId) (c : HeadId × Int) : Prop :=
  c ∈ st.candidates ∧ c.1 ≠ here ∧ c.1 ∈ (s.head here).neighbours ∧ (s.head c.1).state = .on

/-- A kept candidate is the best: the highest score, the lower head number on equal scores (R67). -/
def State.Best (s : State) (st : Station) (here : HeadId) (c : HeadId × Int) : Prop :=
  s.Kept st here c ∧ ∀ d, s.Kept st here d → s.scoreAt st d.1 d.2 < s.scoreAt st c.1 c.2
    ∨ s.scoreAt st d.1 d.2 = s.scoreAt st c.1 c.2 ∧ c.1 ≤ d.1

/-- A hold fits at a head: a place is left, and the committed total with it stays within the cap (R58). -/
def State.HoldFits (s : State) (g : HeadId) (p : Party) : Prop :=
  (s.members g).length + (s.holdsAt g).length < 64
    ∧ ∃ a, (s.head g).account = some a ∧ s.committedWith g a p ≤ (s.head g).cap

/-- One member of a head that enters DRAINING has been weighed, and nothing else has happened: one that is MOVING, or keeps no
candidate, is as it was; refused by its best candidate, it has one more refused roam and its dwell start now; admitted there, it is
MOVING, its hold stands last with origin DRAIN, OFFER is sent and the target's account is up to date (R66–R69, R83). -/
def State.DrainWeighed (v w : State) (h : HeadId) (i : Nat) : Prop :=
  ∀ st, v.station i = some st →
    let others := ∀ j, j ≠ i → w.station j = v.station j
    (st.state ≠ .assoc → st.state ≠ .seated → w = v)
      ∧ ((st.state = .assoc ∨ st.state = .seated) →
        ((∀ c, ¬ v.Kept st h c) → w = v)
        ∧ ∀ c, v.Best st h c →
          let party : Party := ⟨st.res, st.chans, rateClass c.2⟩
          (¬ v.HoldFits c.1 party → w = { v with stations := w.stations } ∧ others
            ∧ w.station i = some { st with refused := min 65535 (st.refused + 1), dwell := v.now / 1000 })
          ∧ (v.HoldFits c.1 party → others ∧ v.HeadsKept w [c.1]
            ∧ w = { v with
                stations := w.stations, heads := w.heads
                holds := v.holds ++ [⟨i, h, c.1, st.res, st.chans, c.2, rateClass c.2, .drain, v.now + 50000⟩]
                linkOut := v.linkOut ++ [(c.1, .offer st.addr i)] }
            ∧ w.station i = some { st with state := .moving, target := some c.1 }
            ∧ ∀ a, (v.head c.1).account = some a →
              ∃ b, (w.head c.1).account = some b ∧ w.AccountTrue c.1 b ∧ b.committed = v.committedWith c.1 a party))

/-! ## Handovers that are aborted -/

/-- The holds that a condition picks, in ascending station index. -/
def State.holdsBy (s : State) (pick : Hold → Bool) : List Hold :=
  s.stations.filterMap fun p => s.holds.find? fun y => y.station == p.1 && pick y

/-- The ROAM notices of the end of aborted handovers: one for each hold of origin HOST (R82). -/
def abortNotices (xs : List Hold) : List Notice :=
  (xs.filter fun x => x.origin == .host).map fun x => .roam x.station .aborted x.source x.target x.origin

/-- A head at which a member or hold has ended: its drain check has brought it to DARK if it is DRAINING and has none left (R15);
else it keeps everything but its account, which is true. -/
def State.HeadLeft (s t : State) (g : HeadId) : Prop :=
  if (s.head g).state = .draining ∧ t.members g = [] ∧ t.holdsAt g = [] then
    t.head g = { s.head g with state := .dark, account := none }
  else SameButAccount (s.head g) (t.head g) ∧ ∀ a, (t.head g).account = some a → t.AccountTrue g a

/-! ## Entries -/

/-- A pending entry may start at a level of a channel: it is startable, and its level is above every in-service one (R177). -/
def Channel.MayStart (x : Channel) (l : Level) (p : Pending) : Prop :=
  (p.origin = .host ∨ l = 4 ∨ x.enabled = true) ∧ ∀ j, (x.entry j).isSome → j < l

/-- A channel whose pending entry at a level has started there, at its base, its pace timer as given (R166, R178). -/
def Channel.withStarted (x : Channel) (l : Level) (p : Pending) (timer : Option PaceTimer) : Channel :=
  { x with
    read := x.read.map fun r => { r with valid := false }
    pending := x.pending.set l none
    inService := x.inService.set l (some ⟨p.clip, p.base, p.count, p.loop, p.base⟩)
    timer := timer }

/-- The highest pending entry of a channel that may start (R175, R179). -/
def Channel.Next (x : Channel) (l : Level) (p : Pending) : Prop :=
  x.waiting l = some p ∧ x.MayStart l p ∧ ∀ m q, x.waiting m = some q → x.MayStart m q → m ≤ l

/-- A channel after the choice made of the entries left (R179): the highest pending entry that may start does; else the highest
in-service one resumes; else the channel goes IDLE, its timer stopped. A read in progress is no longer the current entry's (R166).
-/
def Channel.Chosen (x y : Channel) : Prop :=
  (∀ l p, x.Next l p → y = x.withStarted l p x.timer)
    ∧ ((∀ l p, x.waiting l = some p → ¬ x.MayStart l p) →
      y = { x with
        read := x.read.map fun r => { r with valid := false }
        timer := if ∃ j, (x.entry j).isSome then x.timer else none })

/-- The heads keep everything but their accounts, which are true (R56, R57). -/
def State.HeadsFollow (s t : State) : Prop :=
  ∀ g, SameButAccount (s.head g) (t.head g) ∧ ∀ a, (t.head g).account = some a → t.AccountTrue g a

/-- The clips keep everything but their use counts, which have moved by the numbers of times some clips are listed (R143). -/
def State.UseMoved (s t : State) (up down : List Nat) : Prop :=
  ∀ i, t.clip i = (s.clip i).map fun k => { k with useCount := k.useCount + up.count i - down.count i }

/-- Of the ingest ports and the Clip Store, all but the use counts of the clips is as it was. -/
def State.StoreKept (s t : State) : Prop :=
  t.portA = s.portA ∧ t.portB = s.portB ∧ t.holdTimers = s.holdTimers ∧ t.marks = s.marks ∧ t.ages = s.ages
    ∧ t.slots = s.slots ∧ t.dram = s.dram

/-- The frames of a delivery: one to every head that carries a channel, in ascending head number, made of the planned rate there
(R43, R167). -/
def State.sentTo (s : State) (c : Chan) (f : Nat → LinkFrame) : List (HeadId × LinkFrame) :=
  (List.finRange 96).filterMap fun g => (s.carries g c).map fun rate => (g, f rate)

/-! ## Segments -/

/-- One clip has been evicted, the oldest candidate, and nothing else has happened (R145). -/
def State.Evicts (v w : State) (wantSlot : Bool) : Prop :=
  ∃ pre post j y, v.ages = pre ++ j :: post ∧ v.Candidate wantSlot j y ∧ (∀ i ∈ pre, ∀ z, ¬ v.Candidate wantSlot i z)
    ∧ w = { v with clips := w.clips, ages := pre ++ post, slots := w.slots, outbound := w.outbound, lost := w.lost }
    ∧ (∀ n, w.clip n = if n = j then none else v.clip n)
    ∧ (∀ n, Table.get w.slots n = if n ∈ y.segments then none else Table.get v.slots n)
    ∧ v.Offered w [.clip (.index j) (.evicted y.segments.length)]

/-- No slot can be had: none is free, and no clip that holds one may be evicted (R144). -/
def State.NoSlot (v : State) : Prop := NoneVacant v.slots 16384 ∧ ∀ j y, ¬ v.Candidate true j y

/-- The lowest free slot, as the pool stands or after one eviction (R144). -/
def State.SlotHad (v w : State) (slot : Nat) : Prop :=
  LowestVacant w.slots 16384 slot
    ∧ (LowestVacant v.slots 16384 slot ∧ w = v ∨ NoneVacant v.slots 16384 ∧ v.Evicts w true)

/-- The lowest vacant clip record, as the records stand or after one eviction (R141, R146). -/
def State.RecordHad (v w : State) (i : Nat) : Prop :=
  LowestVacant w.clips 64 i ∧ (LowestVacant v.clips 64 i ∧ w = v ∨ NoneVacant v.clips 64 ∧ v.Evicts w false)

/-- A payload stands in a slot's bytes, and no other byte has changed (R144). -/
def State.Written (w t : State) (slot : Nat) (payload : List Byte) : Prop :=
  ∀ a, Memory.read t.dram a =
    if slotAddress slot ≤ a ∧ a < slotAddress slot + payload.length then payload.getD (a - slotAddress slot) 0
    else Memory.read w.dram a

/-- A frame's segment is held at the end of its port's queue in a slot, its key's hold timer started if none of it was held, and
nothing else has happened (R154, R155). -/
def State.HeldIn (w t : State) (p : Port) (f : SegmentFrame) (slot : Nat) : Prop :=
  t = { w.updateIngest p (fun x => { x with queue := x.queue ++ [⟨f.key, f.index, slot⟩] }) with
      slots := t.slots, dram := t.dram
      holdTimers := if w.keyHeld f.key then w.holdTimers else w.holdTimers ++ [(f.key, w.now + 2000000)] }
    ∧ (∀ n, Table.get t.slots n = if n = slot then some f.payload.length else Table.get w.slots n)
    ∧ w.Written t slot f.payload

/-- Every held entry of a key is released and counted, with a notice, and no clip changes (R147, R154, R155). -/
def State.KeyReleased (s t : State) (key : Key) (event : ClipEvent) : Prop :=
  s.HeldLeave t key (fun _ => true) [] ∧ s.CountsReleased t key (fun _ => true)
    ∧ t.clips = s.clips ∧ t.ages = s.ages ∧ t.marks = s.marks ∧ t.dram = s.dram ∧ t.playView = s.playView ∧ t.heads = s.heads
    ∧ t.linkOut = s.linkOut ∧ s.InReplay t [.clip (.key key) event]

/-- A FILLING clip has become READY, and nothing else has happened (R142). -/
def State.BecomesReady (s t : State) (i : Nat) (k : Clip) : Prop :=
  t.clip i = some { k with state := .ready } ∧ (∀ j, j ≠ i → t.clip j = s.clip j)
    ∧ s.HeldLeave t k.key (fun _ => true) [] ∧ s.CountsReleased t k.key (fun _ => true)
    ∧ t.ages = s.ages ∧ t.marks = s.marks ∧ t.dram = s.dram ∧ t.playView = s.playView ∧ t.heads = s.heads
    ∧ t.linkOut = s.linkOut ∧ s.InReplay t [.clip (.index i) (.ready k.segments.length)]

/-- A frame's segment is appended to its clip in a slot: HANDOFF is acted on (R149), the queues are drained in order of index, what
then lies below the expected index is released as a duplicate and counted at its port, and the READY test is made (R142, R151). -/
def State.Appended (w t : State) (f : SegmentFrame) (i : Nat) (k : Clip) (slot : Nat) : Prop :=
  ∃ (ready : Bool) (drained : List (Port × HeldSegment)),
    let seen := k.handoff || f.handoff
    let segments := k.segments ++ slot :: drained.map fun x => x.2.slot
    let filled := { w with slots := Table.put w.slots slot f.payload.length }
    let drains := fun (q : Port) (x : HeldSegment) => x ∈ (w.ingest q).queue ∧ x.key = f.key
      ∧ (w.mode = .split → q = .b → seen = true)
    let below := fun q : Port => ((w.ingest q).queue.filter fun x => x.key == f.key && decide (x.index < segments.length)).length
    t.clip i = some { k with segments := segments, handoff := seen, state := if ready then .ready else .filling }
      ∧ (ready = true ↔ k.last.map (· + 1) = some segments.length)
      ∧ (∀ n q x, drained[n]? = some (q, x) → drains q x ∧ x.index = k.segments.length + 1 + n)
      ∧ (∀ q x, drains q x → x.index ≠ segments.length)
      ∧ (∀ j, j ≠ i → t.clip j = w.clip j)
      ∧ filled.HeldLeave t f.key (fun n => decide (n < segments.length)) segments
      ∧ (∀ q, (t.ingest q).counts = { (w.ingest q).counts with
          duplicate := min 65535 ((w.ingest q).counts.duplicate
            + (below q - (drained.filter fun x => x.1 == q).length)) })
      ∧ w.Written t slot f.payload
      ∧ t.ages = w.ages ∧ t.marks = w.marks ∧ t.playView = w.playView ∧ t.heads = w.heads ∧ t.linkOut = w.linkOut
      ∧ w.InReplay t (if ready then [.clip (.index i) (.ready segments.length)] else [])

/-- A payload frame is placed by its index in a FILLING clip that takes it. Below the expected index, or held already, it is a
duplicate; above the last index it is unplaced; early, it is held where its port may and damages the clip elsewhere, or when the
queue is full or no slot can be had; at the expected index it is appended, and damages the clip for want of a slot (R142, R144,
R151–R154). -/
def State.Placed (v t : State) (p : Port) (f : SegmentFrame) (i : Nat) (k : Clip) : Prop :=
  let next := k.segments.length
  let beyond := ∃ n, k.last = some n ∧ n < f.index
  let already := ∃ q x, x ∈ (v.ingest q).queue ∧ x.key = f.key ∧ x.index = f.index
  let holds := v.mode = .interleave ∨ v.mode = .split ∧ p = .b
  let damaged := (v.unplacedAt p).ClipDamaged t i k
  (f.index < next → t = v.duplicateAt p)
    ∧ (next < f.index → beyond → t = v.unplacedAt p)
    ∧ (next < f.index → ¬ beyond → ¬ holds → damaged .gap)
    ∧ (next < f.index → ¬ beyond → holds →
      (already → t = v.duplicateAt p)
      ∧ (¬ already → (v.ingest p).queue.length = 256 → damaged .holdFull)
      ∧ (¬ already → (v.ingest p).queue.length < 256 → v.NoSlot → damaged .noSlot)
      ∧ (¬ already → (v.ingest p).queue.length < 256 → ¬ v.NoSlot → ∃ w slot, v.SlotHad w slot ∧ w.HeldIn t p f slot))
    ∧ (f.index = next → v.NoSlot → damaged .noSlot)
    ∧ (f.index = next → ¬ v.NoSlot → ∃ w slot, v.SlotHad w slot ∧ w.Appended t f i k slot)

/-- A CLOSE has set a clip's last index and released the held entries above it, and nothing else has happened (R148). -/
def State.LastSet (v w : State) (i : Nat) (k : Clip) (last : Nat) : Prop :=
  w = { v with clips := w.clips, portA := w.portA, portB := w.portB, slots := w.slots, holdTimers := w.holdTimers }
    ∧ w.clip i = some { k with last := some last } ∧ (∀ j, j ≠ i → w.clip j = v.clip j)
    ∧ v.HeldLeave w k.key (fun n => decide (last < n)) [] ∧ v.CountsReleased w k.key (fun n => decide (last < n))

/-- A frame of a FILLING clip that takes it is handled: its CLOSE first (R148), then its segment (R150). A CLOSE that contradicts
damages the clip, and the payload of its frame is counted as unplaced (log 12). One that sets the last index where all is appended
already makes the clip READY, the frame's own segment a duplicate (log 35). -/
def State.Handled (v t : State) (p : Port) (f : SegmentFrame) (i : Nat) (k : Clip) : Prop :=
  let conflict := (if f.payload = [] then v else v.unplacedAt p).ClipDamaged t i k .closeConflict
  let placed := fun (w : State) (x : Clip) => if f.payload = [] then t = w else w.Placed t p f i x
  let closed := { k with last := some f.last }
  (f.isClose = false → placed v k)
    ∧ (f.isClose = true →
      (∀ n, k.last = some n → n ≠ f.last → conflict) ∧ (k.last = none → f.last + 1 < k.segments.length → conflict)
      ∧ (k.last = some f.last → placed v k)
      ∧ (k.last = none → f.last + 1 = k.segments.length → ∃ w, v.LastSet w i k f.last
        ∧ (if f.payload = [] then w else w.duplicateAt p).BecomesReady t i closed)
      ∧ (k.last = none → k.segments.length < f.last + 1 → ∃ w, v.LastSet w i k f.last ∧ placed w closed))

/-- A clip's opening is cued on every channel of its program's set, in ascending channel number (log 45): a CUE entry stands at the
row's level, superseding a pending one there, and starts where it may, with its PREEMPT notice on a RUN channel. The other channels
are as they were; use counts follow, and the heads' accounts (R143, R177, R178, R181). -/
def State.Cued (v t : State) (i : Nat) (row : ProgramRow) : Prop :=
  let cue : Pending := ⟨i, 0, none, row.loop, .cue⟩
  let picked := (List.finRange 8).filter fun c => hasChan row.auto c
  let old := fun c : Chan => (v.channel c).waiting row.level
  let made := fun c : Chan => { v.channel c with
    pending := (v.channel c).pending.set row.level (some cue)
    superseded := if (old c).isSome then min 65535 ((v.channel c).superseded + 1) else (v.channel c).superseded }
  let starts := fun c : Chan => hasChan row.auto c = true ∧ (v.channel c).MayStart row.level cue
  (∀ c, hasChan row.auto c = false → t.channel c = v.channel c)
    ∧ (∀ c, hasChan row.auto c = true → ¬ starts c → t.channel c = made c)
    ∧ (∀ c, starts c → t.channel c = (made c).withStarted row.level cue
        (if ∃ j, ((v.channel c).entry j).isSome then (v.channel c).timer else some ⟨v.now, 1⟩))
    ∧ v.UseMoved t (picked.map fun _ => i) (picked.filterMap fun c => (old c).map Pending.clip)
    ∧ v.StoreKept t ∧ v.HeadsFollow t ∧ ((∀ c, ¬ starts c) → t.heads = v.heads)
    ∧ t.linkOut = v.linkOut ∧ t.port = v.port ∧ t.pointer = v.pointer
    ∧ ∃ ns, v.InReplay t ns
      ∧ (∀ c m e, starts c → (v.channel c).currentLevel = some m → (v.channel c).entry m = some e →
        Notice.preempt c row.level i m e.cursor ∈ ns)
      ∧ (∀ n ∈ ns, noticeClass n = .airtime ∨ ∃ c m e, starts c ∧ (v.channel c).currentLevel = some m
        ∧ (v.channel c).entry m = some e ∧ n = .preempt c row.level i m e.cursor)
      ∧ (ns.filterMap fun n => match n with | .preempt c .. => some c | _ => none).Pairwise (· < ·)

end Sys2Proof.Machine
end

