-- ==== Sys2Proof/WellFormed.lean ====
section
/-!
DEFINITION. Which commands the part can be given: those whose operands name a record the part has, where the operand's
type does not say so already. An operand of a request may hold any number, since the part itself answers RANGE.
-/
namespace Sys2Proof

/-- Whether a station index names one of the 4,096 records (R19). -/
def stationIndexOk (i : Nat) : Bool := decide (i < 4096)

/-- Whether a report's body is no longer than its kind allows: at most 4 candidates (section 2.5). -/
def candidatesOk (cands : List (Nat × Int)) : Bool := decide (cands.length ≤ 4)

/-- Well-formedness of a command. A STATION-REPORT of more than 4 candidates is the row SEAT_LINK_FRAME_DISCARDED
(section 2.5), and a timer belongs to one of the records (00_scope.md, Time). -/
def Instr.wf : Instr → Bool
  | .stationReport _ _ _ cands => candidatesOk cands
  | .lapseTimerExpiry i => stationIndexOk i
  | .handoverTimerExpiry i => stationIndexOk i
  | .powerOn => true
  | .announce _ => true
  | .heartbeat _ => true
  | .supervisionTimerExpiry _ => true
  | .setupDone _ => true
  | .startTimerExpiry _ => true
  | .seatLinkFrameDiscarded _ => true
  | .assocReq _ _ _ => true
  | .disassoc _ _ => true
  | .lost _ _ => true
  | .joinReq _ _ _ => true
  | .leaveReq _ _ _ => true
  | .bindReq _ _ _ => true
  | .unbindReq _ _ => true
  | .ready _ _ _ => true
  | .decline _ _ _ => true
  | .windowTimerExpiry _ => true
  | .segmentFrame _ _ => true
  | .holdTimerExpiry _ => true
  | .paceTimerExpiry _ => true
  | .readCompletion => true
  | .rezoneVisit => true
  | .transactionBegin => true
  | .transactionEnd _ => true
  | .badFrame => true
  | .unknownRequestType => true
  | .hello _ => true
  | .start _ => true
  | .restart _ => true
  | .noticeEnable _ _ _ => true
  | .tierSet _ _ => true
  | .roamSet _ _ _ _ _ => true
  | .headSetupPart1 _ _ _ _ => true
  | .headSetupPart2 _ _ _ _ => true
  | .headSetupPart3 _ _ _ => true
  | .headControlStart _ _ _ => true
  | .headControlDrain _ _ _ => true
  | .headControlStop _ _ _ => true
  | .headLimits _ _ _ _ => true
  | .headQuery _ _ => true
  | .headStats _ _ => true
  | .stationQuery _ _ => true
  | .stationMove _ _ _ => true
  | .stationEvict _ _ => true
  | .passLoad _ _ => true
  | .passAmend _ _ _ _ _ => true
  | .passVoid _ _ => true
  | .passDrop _ _ => true
  | .passQuery _ _ => true
  | .gateScan _ _ _ _ => true
  | .zoneSet _ _ _ => true
  | .zoneQuery _ _ => true
  | .censusLatch _ _ => true
  | .censusRead _ _ => true
  | .ingestMode _ _ _ => true
  | .programSet _ _ _ _ _ => true
  | .channelSetup _ _ _ _ _ => true
  | .channelEnable _ _ _ => true
  | .play _ _ _ _ _ _ _ => true
  | .stop _ _ _ => true
  | .channelStatus _ _ => true
  | .clipQuery _ _ => true
  | .clipPin _ _ _ => true
  | .clipRetire _ _ => true

end Sys2Proof
end

