-- ==== Sys2Proof/Certificates/Slice0/Obligations.lean ====
section
/-!
DEFINITION. The statements for the provers: what the rules of the manual say the commands and the part do.
-/
open Sys2Proof Sys2Proof.Machine

/-! ## The part and its laws -/

/-- Log 1, log 32 (the model's choice). The command at the front of the queue takes its effect on the state with the rest of
the queue; with no command waiting one microsecond of the part's clock passes. -/
def Obligations.StepTakesTheFrontCommand : Prop :=
  (∀ (s : State) (c : Instr) (rest : List Instr), s.pending = c :: rest → step s = exec c { s with pending := rest })
    ∧ ∀ s : State, s.pending = [] → step s = .next { s with now := s.now + 1 }

/-- Power-on values: R1, R3, R19, R44, R49, R60, R61, R85 (records vacant), R107, R113, R119, R120, R138, R140, R141, R144,
R147, R154, R155, R159, R161, R165, R173, R175, R176, R186–R191, R193. POWER_ON leaves them, the model's own queue of
commands and counter of free values apart (log 21). -/
def Obligations.PowerOnLeavesResetValues : Prop :=
  let r := State.reset
  (∀ s : State, exec .powerOn s = .next { r with pending := s.pending, free := s.free })
    ∧ (∀ h : HeadId, r.head h =
        { state := .absent, radio := none, step := none, complete := false, seqPos := 0
          neighbours := (List.finRange 96).filter fun k => k.val / 4 == h.val / 4 && k != h
          miss := 0, supervision := none, startTimer := none, late := 0, cap := 60000, floor := 2, account := none })
    ∧ (∀ l : LinkId, r.discards[l] = 0)
    ∧ r.tiers.toList = [⟨300, 0, 0xFF⟩, ⟨600, 1, 0xFF⟩, ⟨1200, 3, 0xFF⟩, ⟨2000, 15, 0xFF⟩] ∧ r.unbound = 150
    ∧ (∀ i, r.station i = none) ∧ r.roam = ⟨4, 2000, 30, oneChan 0⟩ ∧ r.holds = []
    ∧ (∀ p, r.pass p = none) ∧ (∀ z : ZoneId, r.zone z = ⟨none, 0, 0, none⟩) ∧ r.rezone = ⟨false, 0, none, 0, 0⟩
    ∧ r.mode = .single ∧ r.strict = false ∧ (∀ p : Port, r.ingest p = ⟨⟨0, 0, 0, 0, 0, 0, 0, 0, 0⟩, []⟩)
    ∧ r.holdTimers = [] ∧ (∀ p : Program, r.marks[p] = none) ∧ (∀ i, r.clip i = none) ∧ r.ages = [] ∧ r.freeSlots = 16384
    ∧ (∀ c : Chan, let x := r.channel c
        x.pace = 10 ∧ x.rated = 1400 ∧ x.timer = none ∧ x.read = none ∧ x.endFlags = 0 ∧ x.underruns = 0 ∧ x.late = 0
          ∧ x.enabled = false ∧ x.superseded = 0 ∧ ∀ l : Level, x.entry l = none ∧ x.waiting l = none)
    ∧ r.arbMode = .fixed ∧ r.pointer = 7 ∧ r.port = .free
    ∧ (∀ p : Program, r.programs[p] = ⟨if p = 15 then 4 else 0, 0, false⟩)
    ∧ r.part = .config ∧ r.inbound = [] ∧ r.outbound = [] ∧ r.attention = false ∧ r.enables = 0 ∧ r.lost = false
    ∧ r.rejected = false ∧ r.transaction = none ∧ r.statusByte = 4

/-- The state right after reset is sound. -/
def Obligations.ResetStateIsSound : Prop := State.reset.Sound

/-- R188, R190: the outbound queue holds up to 64 frames and the inbound queue up to 4; no notice is left between commands
(log 23). -/
def Obligations.EveryStepKeepsQueueBounds : Prop :=
  ∀ s t : State, s.LinkInv → step s = .next t → t.LinkInv

/-- R19, R20, R85, R86, R141, R144: the records keep their indices and share no address, number or key; the tables and the
stacked DRAM keep their canonical form. -/
def Obligations.EveryStepKeepsTables : Prop :=
  ∀ s t : State, s.StoreInv → step s = .next t → t.StoreInv

/-- R3, R5, R14, R44: each head's timers run and its account is open in the states the rules name, and its values keep their
ranges; in CONFIG nothing is live (R23, R139, R160). -/
def Obligations.EveryStepKeepsHeadsInOrder : Prop :=
  ∀ s t : State, s.Sound → step s = .next t → t.HeadsInv ∧ t.ConfigInv

/-- R21, R61: every station stands as its state says, a member only of a head that is ON or DRAINING, and below its tier value while
capped; every MOVING station has exactly one hold, at another head; members plus holds never exceed 64. -/
def Obligations.EveryStepKeepsMembersAndHolds : Prop :=
  ∀ s t : State, s.Sound → step s = .next t → t.MovesInv

/-- R123: a pass names a bound station exactly when that station names the pass, and only a SEATED pass holds one. -/
def Obligations.EveryStepKeepsBindingLaw : Prop :=
  ∀ s t : State, s.Sound → step s = .next t → t.BindingInv

/-- R118, R113, R115, R35: each zone's counts equal the numbers of its passes inside the bowl and of those that are SEATED; while a
re-zone pass runs its cursor is below 8,192 and it has a subject, and every record it has visited, or every record while none runs, holds
the zone the map gives it; every station's channel set is within its permitted set, but for one whose pass is yet to be visited. -/
def Obligations.EveryStepKeepsCensusTrue : Prop :=
  ∀ s t : State, s.Sound → step s = .next t → t.CensusInv ∧ t.RezoneInv ∧ t.ChansInv

/-- R45, R46: every open account is true of the members, holds and channels as they stand, and the committed total of every
head never exceeds that head's cap. -/
def Obligations.EveryStepKeepsAirtimeWithinCap : Prop :=
  ∀ s t : State, s.Sound → step s = .next t → t.AirtimeInv

/-- R141, R142, R144, R154, R155: no slot is held twice and those in use are those held; the clips, the age order, the hold
queues and the hold timers are in order. -/
def Obligations.EveryStepKeepsSlotsAndClips : Prop :=
  ∀ s t : State, s.Sound → step s = .next t → t.SlotsInv ∧ t.IngestInv

/-- R143, R160, R164, R165: a clip's use count is the number of entries and reads that name it; the pace timer runs exactly
while the channel is RUN; the one read on the port is a channel's, and none waits while the port is free. -/
def Obligations.EveryStepKeepsUseCounts : Prop :=
  ∀ s t : State, s.Sound → step s = .next t → t.UseInv ∧ t.PlayInv

/-! ## The control link -/

/-- R189, R192, logs 3 and 4. A request waits, with no effect, while the outbound queue holds 64 frames and behind another
inbound frame. Taken, it leaves the inbound queue, and one reply of its type plus 0x80 with its tag is placed last in the
outbound queue, which RESTART alone empties first; the notices of its own work stand behind the reply. A body that does not
fit draws RANGE and has no other effect. -/
def Obligations.EachRequestDrawsOneReply : Prop :=
  ∀ (i : Instr) (type : Byte) (f : Req) (s : State), i.request? = some (type, f) → s.held = [] →
    (64 ≤ s.outbound.length → exec i s = .next s)
      ∧ (∀ g rest, s.inbound = g :: rest → ¬ (g.good = true ∧ g.type = type ∧ g.tag = f.tag) → exec i s = .next s)
      ∧ ∀ u : State, s.outbound.length < 64 →
          (s.inbound = [] ∧ u = s ∨ ∃ g rest, s.inbound = g :: rest ∧ g.good = true ∧ g.type = type ∧ g.tag = f.tag
            ∧ u = { s with inbound := rest }) →
          (f.fits = false → ∃ content, exec i s = .next (u.reply type f.tag .range content))
            ∧ ∃ (t : State) (code : Code) (content : Content) (ns : List Notice), exec i s = .next t
              ∧ t.outbound = (if type = 0x03 ∧ f.fits = true then [] else u.outbound)
                  ++ .reply (type + 0x80) f.tag code content :: ns.map .notice
              ∧ t.inbound = (if type = 0x03 ∧ f.fits = true then [] else u.inbound) ∧ t.held = []


/-- R186, R187, R188, R194, R195. As a transaction begins, the link status byte shows the port as it stands, bit by bit, and the frame
at the head of the outbound queue is fixed; one that begins while another runs has no effect (log 5). At the end of one that no RESTART
cut, the part has shifted out its status byte and then the outbound frame followed by bytes of 0x00; a frame whose bytes were all shifted
out leaves the queue, and notices lost is cleared if it was set as the transaction began (log 34); the host's frame from its second byte
on is stored, marked good or bad, or rejected for want of a place. After a RESTART nothing is delivered. Nothing else changes. -/
def Obligations.TransactionsMoveFrames : Prop :=
  ((∀ s : State, s.transaction = none →
    exec .transactionBegin s = .next { s with transaction := some ⟨s.statusByte, s.outbound.head?, s.lost, false⟩ })
    ∧ (∀ s : State, s.transaction.isSome → exec .transactionBegin s = .next s)
    ∧ ∀ s : State, s.statusByte.getLsbD 7 = false ∧ s.statusByte.getLsbD 6 = s.rejected
        ∧ s.statusByte.getLsbD 5 = (s.part == .run) ∧ s.statusByte.getLsbD 4 = s.lost
        ∧ s.statusByte.getLsbD 3 = !s.outbound.isEmpty ∧ s.statusByte.toNat % 8 = 4 - s.inbound.length)
    ∧ ∀ (s : State) (x : Transaction) (bytes : List Byte), s.transaction = some x →
      ∃ t, exec (.transactionEnd bytes) s = .next t
        ∧ t = { s with
            transaction := none, outbound := t.outbound, lost := t.lost, inbound := t.inbound, rejected := t.rejected
            spiOut := t.spiOut, free := t.free }
        ∧ (∀ g, x.frame = some g → x.cut = false → g.bytes.length + 1 ≤ bytes.length →
            t.outbound = s.outbound.drop 1 ∧ t.lost = (s.lost && !x.lost))
        ∧ ((x.frame = none ∨ x.cut = true ∨ ∃ g, x.frame = some g ∧ bytes.length < g.bytes.length + 1) →
            t.outbound = s.outbound ∧ t.lost = s.lost)
        ∧ (x.cut = false → t.free = s.free
            ∧ t.spiOut = (x.status :: ((x.frame.map OutFrame.bytes).getD [] ++ List.replicate bytes.length 0)).take bytes.length)
        ∧ (∀ (first : Byte) (data : List Byte), bytes = first :: data →
            if data = [] ∨ data.head? = some 0 then t.inbound = s.inbound ∧ t.rejected = s.rejected
            else if 4 ≤ s.inbound.length then t.inbound = s.inbound ∧ t.rejected = true
            else t.inbound = s.inbound ++ [readFrame data] ∧ t.rejected = !(readFrame data).good)
        ∧ (bytes = [] → t.inbound = s.inbound ∧ t.rejected = s.rejected)

/-- R188, R195: a control frame's bytes, with a body of at most 1,024 bytes and whatever the host clocks after its CRC, are read
as that frame, good; the same bytes cut short before the last CRC byte are a bad frame. -/
def Obligations.ControlFrameReadsBack : Prop :=
  ∀ (type tag : Byte) (body extra : List Byte), body.length ≤ 1024 →
    readFrame (controlFrame type tag body ++ extra) = { type := type, tag := tag, body := body, good := true }
      ∧ ∀ n, n < (controlFrame type tag body).length → (readFrame ((controlFrame type tag body).take n)).good = false

/-- R136, R137, R195: the bytes of a segment frame whose fields are in range and do not contradict one another pass every check,
and are read as that frame, not tolerated. -/
def Obligations.SegmentFrameReadsBack : Prop :=
  ∀ (strict : Bool) (f : SegmentFrame), f.index ≤ 4095 → f.last ≤ 65535 → (f.isClose = true → f.last ≤ 4095) →
    f.payload.length ≤ 2048 → (f.isOpen = true → f.index = 0) →
    (f.isClose = true → f.payload ≠ [] → f.index ≤ f.last) → (f.payload = [] → f.isOpen = true ∨ f.isClose = true) →
    checkFrame strict (segmentBytes f) = some (f, false)

/-- R188, R189, R192. A bad frame at the head of the inbound queue is answered BAD_FRAME, type 0xFF, with its tag as received
(0x00 when it ended before its tag byte) and the code alone; a good frame of unknown type is answered RANGE, type 0xFE, with
the type received behind the code. -/
def Obligations.BadAndUnknownFramesAreAnswered : Prop :=
  (∀ (s : State) (g : InFrame) (rest : List InFrame), s.inbound = g :: rest → s.outbound.length < 64 →
    (g.good = false → exec .badFrame s =
        .next { s with inbound := rest, outbound := s.outbound ++ [.reply 0xFF g.tag .badFrame .none] })
      ∧ (g.good = true → (g.type = 0 ∨ 0x22 < g.type) → exec .unknownRequestType s =
        .next { s with inbound := rest, outbound := s.outbound ++ [.reply 0xFE g.tag .range (.typeReceived g.type)] }))
    ∧ (∀ tag : Byte, (OutFrame.reply 0xFF tag .badFrame .none).parts = (0xFF, tag, [0x11]))
    ∧ (∀ tag type : Byte, (OutFrame.reply 0xFE tag .range (.typeReceived type)).parts = (0xFE, tag, [0x05, type]))
    ∧ ∀ bytes : List Byte, bytes.length < 2 → (readFrame bytes).tag = 0 ∧ (readFrame bytes).good = false

/-- R50, R191, R193. HELLO reports the identity and changes nothing; START moves CONFIG to RUN and draws STATE in RUN;
NOTICE-ENABLE keeps the classes of the AND mask and adds those of the OR mask; TIER-SET replaces a row in CONFIG, with its
checks in order. -/
def Obligations.PartRequestsDoTheirWork : Prop :=
  (∀ (s u : State) (f : Req), s.Takes 0x01 f u →
    exec (.hello f) s = .next (u.reply 0x01 f.tag .ok (.hello 0x2C71 7260 3 u.part)))
    ∧ (∀ (s u : State) (f : Req), s.Takes 0x02 f u → exec (.start f) s =
        .next (if u.part = .config then { u with part := .run }.reply 0x02 f.tag .ok .none
          else u.reply 0x02 f.tag .state .none))
    ∧ (∀ (s u : State) (f : Req) (andMask orMask : ClassSet), s.Takes 0x04 f u →
        exec (.noticeEnable f andMask orMask) s =
          .next ({ u with enables := u.enables &&& andMask ||| orMask }.reply 0x04 f.tag .ok
            (.classes (u.enables &&& andMask ||| orMask))))
    ∧ (∀ (s u : State) (f : Req) (n r limit : Nat) (chans : ChanSet), s.Takes 0x05 f u →
        exec (.tierSet f (.tier n r limit chans)) s = .next (
          if h : n < 4 then
            if u.part = .run then u.reply 0x05 f.tag .state .none
            else if r < 50 ∨ 5000 < r ∨ 15 < limit then u.reply 0x05 f.tag .range .none
            else { u with tiers := u.tiers.set n ⟨r, limit, chans⟩ }.reply 0x05 f.tag .ok .none
          else u.reply 0x05 f.tag .range .none))
    ∧ ∀ (s u : State) (f : Req) (r : Nat), s.Takes 0x05 f u →
        exec (.tierSet f (.unbound r)) s = .next (
          if u.part = .run then u.reply 0x05 f.tag .state .none
          else if r < 50 ∨ 5000 < r then u.reply 0x05 f.tag .range .none
          else { u with unbound := r }.reply 0x05 f.tag .ok .none)

/-- R194 and each block's values after RESTART (R1, R3, R19, R44, R61, R105, R107, R117, R119, R120, R138, R141, R144, R147,
R154, R155, R159, R172, R175, R176). The clock, the frames already sent, the setup and every setting the host made are kept. A
transaction in progress is cut; a read on the port is withdrawn (log 8). A present head's supervision timer runs 250 ms from now, even
if it ran already (log 37). -/
def Obligations.RestartClearsDynamicRecords : Prop :=
  ∀ (s u : State) (f : Req), s.Takes 0x03 f u → ∃ t, exec (.restart f) s = .next t
    ∧ t.part = .config ∧ t.outbound = [.reply 0x83 f.tag .ok .none] ∧ t.inbound = [] ∧ t.lost = false ∧ t.rejected = false
    ∧ t.enables = u.enables ∧ t.configView = u.configView ∧ t.dram = u.dram ∧ t.now = u.now ∧ t.linkOut = u.linkOut
    ∧ t.pending = u.pending ∧ t.free = u.free ∧ t.spiOut = u.spiOut ∧ t.held = []
    ∧ t.transaction = u.transaction.map (fun x => { x with cut := true })
    ∧ (∀ h, let x := u.head h
        t.head h = { x with
          state := if x.state = .absent then .absent else .dark
          miss := 0, startTimer := none, late := 0, account := none
          supervision := if x.state = .absent then none else some (u.now + 250000) })
    ∧ (∀ l : LinkId, t.discards[l] = 0) ∧ (∀ i, t.station i = none) ∧ t.holds = []
    ∧ (∀ p, t.pass p = (u.pass p).map fun q =>
        { q with state := if q.state = .seated then .admitted else q.state, station := none })
    ∧ (∀ z, t.zone z = { u.zone z with seated := 0, latch := none })
    ∧ t.rezone = (if u.rezone.running then { u.rezone with cursor := 0, changed := 0, trimmed := 0 } else u.rezone)
    ∧ (∀ p : Port, t.ingest p = ⟨⟨0, 0, 0, 0, 0, 0, 0, 0, 0⟩, []⟩) ∧ t.holdTimers = []
    ∧ (∀ p : Program, t.marks[p] = none) ∧ (∀ i, t.clip i = none) ∧ t.ages = [] ∧ t.freeSlots = 16384
    ∧ (∀ c, t.channel c =
        { (State.reset.channel c) with pace := (u.channel c).pace, rated := (u.channel c).rated })
    ∧ t.pointer = 7 ∧ (u.port = .free → t.port = .free) ∧ (u.port ≠ .free → t.port = .withdrawn)
/-! ## Heads -/

/-- R4, R5. An ANNOUNCE or HEARTBEAT from a head in ABSENT, DARK or FAULT brings it to DARK with its setup kept, its miss count
at 0 and its supervision timer started; so does a HEARTBEAT in STARTING, ON or DRAINING, the state kept. At an expiry of the
running timer the miss count rises by 1: below 3 the timer restarts; at 3 it stops, and a DARK head enters ABSENT. A stopped
timer does not expire (log 2). -/
def Obligations.HeadIsHeardOrMissed : Prop :=
  ∀ (s : State) (h : HeadId), s.held = [] →
    let x := s.head h
    let heard := fun st => s.setHead h { x with state := st, miss := 0, supervision := some (s.now + 250000) }
    ((x.state = .absent ∨ x.state = .dark ∨ x.state = .fault) →
        exec (.announce h) s = .next (heard .dark) ∧ exec (.heartbeat h) s = .next (heard .dark))
      ∧ ((x.state = .starting ∨ x.state = .on ∨ x.state = .draining) → exec (.heartbeat h) s = .next (heard x.state))
      ∧ (x.supervision = none → exec (.supervisionTimerExpiry h) s = .next s)
      ∧ ∀ due, x.supervision = some due →
          let now := max s.now due
          (x.miss < 2 → exec (.supervisionTimerExpiry h) s =
            .next { s.setHead h { x with miss := x.miss + 1, supervision := some (now + 250000) } with now := now })
          ∧ (2 ≤ x.miss → x.state = .dark → exec (.supervisionTimerExpiry h) s =
            .next { s.setHead h { x with state := .absent, miss := 3, supervision := none } with now := now })

/-- R4, R5, R6, R14, R16, R28, R76, R77, R82, log 16. A live head that announces, misses its third heartbeat or lets its start timer run
out enters FAULT with the reason named in a HEAD notice, which comes last; one that is stopped enters DARK with OK and no HEAD notice.
Its account is closed. Its members go to LAPSED; the stations on their way to it are back at their sources; the holds at it and of its
members are gone. CANCEL goes to the target of each departing hold, in ascending station index, and that target is recomputed and makes
its drain check; a ROAM notice of kind ABORTED is produced for each hold of origin HOST, those at the head first, then those of its
members, each in ascending station index. Passes, zones, discard counts and everything outside the bowl are unchanged, and so is every
other head. -/
def Obligations.LosingAHeadReleasesItsStations : Prop :=
  ∀ (s u : State) (h : HeadId) (f : Req), s.Sound →
    let x := s.head h
    let arriving := s.holdsBy fun y => y.target == h
    let departing := s.holdsBy fun y => y.source == h
    let left := fun g => ∃ y ∈ s.holds, y.source = h ∧ y.target = g
    let gone := fun (v t : State) (head : Head) (ns : List Notice) =>
      t.head h = head
        ∧ (∀ i, t.station i = (s.station i).map fun st =>
            if st.current = some h then
              { st with
                state := .lapsed, current := none, target := none, res := 0, capped := false
                lapse := some (v.now + 1000000 * s.roam.lapse) }
            else if st.target = some h then
              { st with
                state := if st.pass.isSome then .seated else .assoc
                target := none, refused := min 65535 (st.refused + 1), dwell := v.now / 1000 }
            else st)
        ∧ t.holds = s.holds.filter (fun y => y.source != h && y.target != h)
        ∧ t.passes = s.passes ∧ t.zones = s.zones
        ∧ (∀ g, g ≠ h → (left g → s.HeadLeft t g) ∧ (¬ left g → t.head g = s.head g))
        ∧ t.linkOut = s.linkOut ++ departing.filterMap (fun y =>
            (s.station y.station).map fun st => (y.target, .cancel st.addr y.station))
        ∧ ∃ more, (more.filter fun n => noticeClass n == .roam) = abortNotices (arriving ++ departing)
            ∧ (∀ g, Notice.head g .drained .dark ∈ more ↔ left g ∧ (s.head g).state = .draining ∧ (t.head g).state = .dark)
            ∧ (∀ n ∈ more, noticeClass n = .roam ∨ noticeClass n = .airtime ∨ ∃ g, n = .head g .drained .dark)
            ∧ v.InBowl t (more ++ ns)
    (x.live = true → ∃ t, exec (.announce h) s = .next t ∧ gone s t
        { x with state := .fault, miss := 0, supervision := none, startTimer := none, account := none }
        [.head h (.fault .restarted) .fault])
      ∧ (∀ due, x.live = true → x.supervision = some due → x.miss = 2 →
          ∃ t, exec (.supervisionTimerExpiry h) s = .next t ∧ gone { s with now := max s.now due } t
            { x with state := .fault, miss := 3, supervision := none, startTimer := none, account := none }
            [.head h (.fault .missed) .fault])
      ∧ (∀ due, x.startTimer = some due →
          ∃ t, exec (.startTimerExpiry h) s = .next t ∧ gone { s with now := max s.now due } t
            { x with state := .fault, supervision := none, startTimer := none, account := none }
            [.head h (.fault .startTimeout) .fault])
      ∧ (s.Takes 0x08 f u → x.live = true →
          ∃ t, exec (.headControlStop f h true) s = .next t ∧ gone (u.reply 0x08 f.tag .ok .none) t
            { x with state := .dark, startTimer := none, account := none } [])
      ∧ (s.Takes 0x08 f u → x.live = false →
          exec (.headControlStop f h true) s = .next ((u.endSequence h).reply 0x08 f.tag .state .none))

/-- R14, R44, R7. A SETUP-DONE handed on from a head in STARTING stops the start timer and brings the head to ON with an open
account, nothing counted and its window timer started, and a HEAD notice of kind STARTED is offered; from DARK, ON or DRAINING
it has no effect. A stopped start timer does not expire (log 2). -/
def Obligations.SetupDoneBringsAHeadOn : Prop :=
  (∀ (s : State) (h : HeadId), s.Hears h →
    ((s.head h).state ≠ .starting → exec (.setupDone h) s = .next s)
      ∧ ((s.head h).state = .starting → ∃ t, exec (.setupDone h) s = .next t
        ∧ t.heads = s.heads.set h { s.head h with
            state := .on, startTimer := none
            account := some ⟨Vector.replicate 8 .notCounted, 0, 0, s.now + 100000⟩ }
        ∧ t.stationView = s.stationView ∧ t.passView = s.passView ∧ t.linkOut = s.linkOut
        ∧ s.InBowl t [.head h .started .on]))
    ∧ ∀ (s : State) (h : HeadId), s.held = [] → (s.head h).startTimer = none → exec (.startTimerExpiry h) s = .next s

/-- R1, R2, R22, log 25. A frame that fails the link's checks, a report of more than 4 candidates, a frame other than ANNOUNCE
and HEARTBEAT from a head in ABSENT or FAULT, and in CONFIG a frame other than those and ASSOC-REQ: each is discarded, and adds
1 to its link's count, which stops at 65,535. A station frame for one that is no member of the sending head is discarded
uncounted; a DISASSOC is acted on from a MOVING station's target too (R27). -/
def Obligations.FramesNotActedOnAreDiscarded : Prop :=
  let counted := fun (s : State) (l : LinkId) => { s with discards := s.discards.set l (min 65535 (s.discards[l] + 1)) }
  (∀ (s : State) (l : LinkId), s.held = [] →
    exec (.seatLinkFrameDiscarded l) s = .next (counted s l))
    ∧ (∀ (s : State) (i : Instr) (h : HeadId), s.held = [] → i.frameHead? = some h → i.wf = true →
        (s.part = .config ∨ (s.head h).state = .absent ∨ (s.head h).state = .fault) →
        exec i s = .next (counted s (linkOf h)))
    ∧ (∀ (s : State) (h : HeadId) (a : StationAddress) (r : Int), s.held = [] →
        ((s.head h).state = .absent ∨ (s.head h).state = .fault) →
        exec (.assocReq h a r) s = .next (counted s (linkOf h)))
    ∧ (∀ (s : State) (h : HeadId) (a : StationAddress) (r : Int) (cs : List (Nat × Int)), s.held = [] → 4 < cs.length → exec (.stationReport h a r cs) s = .next (counted s (linkOf h)))
    ∧ ∀ (s : State) (h : HeadId) (a : StationAddress), s.Hears h →
        (s.lookupStation a = none ∨ ∃ i st, s.lookupStation a = some i ∧ s.station i = some st ∧ st.current ≠ some h) →
        (∀ (r : Int) (cs : List (Nat × Int)) (c : Nat) (n : PassNumber), cs.length ≤ 4 →
          exec (.lost h a) s = .next s ∧ exec (.stationReport h a r cs) s = .next s ∧ exec (.joinReq h a c) s = .next s
            ∧ exec (.leaveReq h a c) s = .next s ∧ exec (.bindReq h a n) s = .next s ∧ exec (.unbindReq h a) s = .next s)
        ∧ ((∀ i st, s.lookupStation a = some i → s.station i = some st → st.state = .moving → st.target ≠ some h) →
          exec (.disassoc h a) s = .next s)

/-- R8, R9, R10, R55. HEAD-SETUP, by part, with its checks in order: the head number, the head's state or sequence position,
the values. A refused part changes nothing. -/
def Obligations.HeadSetupWritesItsPart : Prop :=
  ∀ (s u : State) (f : Req), s.Takes 0x07 f u →
    let answer := fun (v : State) (c : Code) => Host.Outcome.next (φ := Fault) (ρ := Refusal) (v.reply 0x07 f.tag c .none)
    (∀ head radio step, 96 ≤ head → exec (.headSetupPart1 f head radio step) s = answer u .range)
      ∧ (∀ head cap floor, 96 ≤ head → exec (.headSetupPart2 f head cap floor) s = answer u .range)
      ∧ (∀ head ns, 96 ≤ head → exec (.headSetupPart3 f head ns) s = answer u .range)
      ∧ ∀ h : HeadId,
          let x := u.head h
          (∀ radio step, exec (.headSetupPart1 f h radio step) s =
            if x.state = .starting ∨ x.state = .on ∨ x.state = .draining then answer u .state
            else if radio < 1 ∨ 200 < radio ∨ 15 < step then answer u .range
            else answer (u.setHead h
              { x with radio := some radio, step := some step, complete := false, seqPos := 1 }) .ok)
          ∧ (∀ cap floor, exec (.headSetupPart2 f h cap floor) s =
            if x.seqPos ≠ 1 then answer u .state
            else if cap < 10000 ∨ 90000 < cap ∨ 7 < floor then answer u .range
            else answer (u.setHead h { x with cap := cap, floor := floor, complete := true, seqPos := 2 }) .ok)
          ∧ (∀ ns, x.seqPos ≠ 2 → exec (.headSetupPart3 f h ns) s = answer u .state)
          ∧ (∀ ns : List Nat, x.seqPos = 2 → (8 < ns.length ∨ (∃ n ∈ ns, 96 ≤ n) ∨ h.val ∈ ns ∨ ¬ ns.Nodup) →
            exec (.headSetupPart3 f h ns) s = answer u .range)
          ∧ ∀ ks : List HeadId, x.seqPos = 2 → ks.length ≤ 8 → h ∉ ks → ks.Nodup →
            exec (.headSetupPart3 f h (ks.map Fin.val)) s = answer (u.setHead h { x with neighbours := ks, seqPos := 3 }) .ok

/-- R11, R12, R13, log 4. HEAD-CONTROL START: a head number out of range draws RANGE; else the setup sequence is ended, at
position 2 with the default neighbour list; an unknown action then draws RANGE; START is taken in RUN of a DARK head whose setup
is complete, which enters STARTING, is sent SETUP and has its 500 ms start timer started; else it draws STATE. -/
def Obligations.HeadControlStartsAHead : Prop :=
  ∀ (s u : State) (f : Req) (known : Bool), s.Takes 0x08 f u →
    (∀ head, 96 ≤ head → exec (.headControlStart f head known) s = .next (u.reply 0x08 f.tag .range .none)
        ∧ exec (.headControlDrain f head known) s = .next (u.reply 0x08 f.tag .range .none)
        ∧ exec (.headControlStop f head known) s = .next (u.reply 0x08 f.tag .range .none))
      ∧ ∀ h : HeadId,
          let x := { u.head h with
            seqPos := 0
            neighbours := if (u.head h).seqPos = 2 then powerOnNeighbours h else (u.head h).neighbours }
          let ended := u.setHead h x
          (exec (.headControlStart f h false) s = .next (ended.reply 0x08 f.tag .range .none)
            ∧ exec (.headControlDrain f h false) s = .next (ended.reply 0x08 f.tag .range .none)
            ∧ exec (.headControlStop f h false) s = .next (ended.reply 0x08 f.tag .range .none))
          ∧ (¬ (u.part = .run ∧ x.state = .dark ∧ x.complete = true) →
            exec (.headControlStart f h true) s = .next (ended.reply 0x08 f.tag .state .none))
          ∧ (u.part = .run → x.state = .dark → x.complete = true →
            exec (.headControlStart f h true) s = .next
              { (u.setHead h { x with state := .starting, startTimer := some (u.now + 500000) }).reply 0x08 f.tag .ok .none with
                linkOut := u.linkOut ++ [(h, .setup x.radio x.step x.neighbours)] })

/-- R15, R58, R66, R67, R68, R69, R83. HEAD-CONTROL DRAIN draws STATE unless the head is ON. A head with no members and no holds enters
DARK at the request, its account closed, and a HEAD notice of kind DRAINED is offered behind the reply OK. Any other enters DRAINING
with its account kept; its members are weighed one after another in ascending station index, each on the state the one before left: one
that is MOVING or keeps no candidate is as it was; else the kept candidate of the highest score is tried, and the station is sent on with
a hold of origin DRAIN and an OFFER, or has one more refused roam and its dwell start now. Nothing else changes. -/
def Obligations.HeadControlDrainsAHead : Prop :=
  ∀ (s u : State) (f : Req) (h : HeadId), s.Sound → s.Takes 0x08 f u →
    let ended := u.endSequence h
    let x := ended.head h
    (x.state ≠ .on → exec (.headControlDrain f h true) s = .next (ended.reply 0x08 f.tag .state .none))
      ∧ (x.state = .on → s.members h = [] → s.holdsAt h = [] → ∃ t, exec (.headControlDrain f h true) s = .next t
          ∧ t.heads = u.heads.set h { x with state := .dark, account := none }
          ∧ t.stationView = s.stationView ∧ t.passView = s.passView ∧ t.linkOut = s.linkOut
          ∧ (u.reply 0x08 f.tag .ok .none).InBowl t [.head h .drained .dark])
      ∧ (x.state = .on → ¬ (s.members h = [] ∧ s.holdsAt h = []) → ∃ mid : Nat → State,
          mid 0 = ended.setHead h { x with state := .draining }
          ∧ (∀ k i, (s.members h)[k]? = some i → (mid k).DrainWeighed (mid (k + 1)) h i)
          ∧ exec (.headControlDrain f h true) s = .next ((mid (s.members h).length).reply 0x08 f.tag .ok .none))
      ∧ (x.state = .on → ¬ (s.members h = [] ∧ s.holdsAt h = []) → ∃ t ns, exec (.headControlDrain f h true) s = .next t
          ∧ t.head h = { x with state := .draining }
          ∧ (∀ i, t.station i = s.station i ∨ ∃ st g, s.station i = some st ∧ st.current = some h
              ∧ (st.state = .assoc ∨ st.state = .seated)
              ∧ (t.station i = some { st with refused := min 65535 (st.refused + 1), dwell := s.now / 1000 }
                ∨ (t.station i = some { st with state := .moving, target := some g } ∧ (s.head g).state = .on ∧ g ≠ h
                  ∧ ∃ y ∈ t.holds, y.station = i ∧ y.source = h ∧ y.target = g ∧ y.res = st.res ∧ y.chans = st.chans
                    ∧ y.origin = .drain ∧ y.due = s.now + 50000)))
          ∧ (∀ g, g ≠ h → SameButAccount (s.head g) (t.head g)) ∧ t.passes = s.passes ∧ t.zones = s.zones
          ∧ (∀ n ∈ ns, noticeClass n = .airtime) ∧ (u.reply 0x08 f.tag .ok .none).InBowl t ns)

/-- R11, R17, R55, log 17. HEAD-LIMITS, once the head's setup sequence is ended: STATE unless the head is STARTING, ON or DRAINING;
RANGE for a cap outside 10,000–90,000, a floor above 7 or a cap below the head's member and hold reservations; else the new cap and
floor stand together and the head is recomputed. -/
def Obligations.HeadLimitsRecomputeTheHead : Prop :=
  ∀ (s u : State) (f : Req) (head cap floor : Nat), s.Takes 0x09 f u →
    (96 ≤ head → exec (.headLimits f head cap floor) s = .next (u.reply 0x09 f.tag .range .none))
      ∧ ∀ h : HeadId, head = h.val →
          let ended := u.endSequence h
          let x := ended.head h
          let w := (ended.setHead h { x with cap := cap, floor := floor }).recompute h
          (¬ (x.state = .starting ∨ x.state = .on ∨ x.state = .draining) →
            exec (.headLimits f head cap floor) s = .next (ended.reply 0x09 f.tag .state .none))
          ∧ ((x.state = .starting ∨ x.state = .on ∨ x.state = .draining) →
            (cap < 10000 ∨ 90000 < cap ∨ 7 < floor ∨ cap < resSum (u.parties h)) →
            exec (.headLimits f head cap floor) s = .next (ended.reply 0x09 f.tag .range .none))
          ∧ ((x.state = .starting ∨ x.state = .on ∨ x.state = .draining) →
            10000 ≤ cap → cap ≤ 90000 → floor ≤ 7 → resSum (u.parties h) ≤ cap →
            ∃ t, exec (.headLimits f head cap floor) s = .next t ∧ t.heads = w.heads
              ∧ (t.head h).cap = cap ∧ (t.head h).floor = floor
              ∧ (∀ a, (t.head h).account = some a → a.committed ≤ cap)
              ∧ t.stationView = u.stationView ∧ t.passView = u.passView ∧ t.linkOut = u.linkOut
              ∧ (u.reply 0x09 f.tag .ok .none).InBowl t w.held)

/-- R11, R18. HEAD-QUERY and HEAD-STATS end the head's setup sequence, change nothing else, and report the record as the end
leaves it; for a head with no open account the totals are zero and the channel sets empty. -/
def Obligations.HeadQueriesReportTheRecord : Prop :=
  (∀ (s u : State) (f : Req) (head : Nat), s.Takes 0x0A f u →
    (96 ≤ head → exec (.headQuery f head) s = .next (u.reply 0x0A f.tag .range .none))
      ∧ ∀ h : HeadId, head = h.val →
          let x := { u.head h with
            seqPos := 0
            neighbours := if (u.head h).seqPos = 2 then powerOnNeighbours h else (u.head h).neighbours }
          exec (.headQuery f head) s = .next ((u.setHead h x).reply 0x0A f.tag .ok (.head
            { head := h, link := h.val / 4, position := h.val % 4, state := x.state, radio := x.radio, step := x.step
              complete := x.complete, seqPos := 0, neighbours := x.neighbours, cap := x.cap, floor := x.floor
              miss := x.miss, members := (u.members h).length, holds := (u.holdsAt h).length, late := x.late
              discards := u.discards[linkOf h] })))
    ∧ ∀ (s u : State) (f : Req) (head : Nat), s.Takes 0x22 f u →
        (96 ≤ head → exec (.headStats f head) s = .next (u.reply 0x22 f.tag .range .none))
          ∧ ∀ h : HeadId, head = h.val →
              let x := { u.head h with
                seqPos := 0
                neighbours := if (u.head h).seqPos = 2 then powerOnNeighbours h else (u.head h).neighbours }
              ∃ r : HeadFigures, exec (.headStats f head) s = .next ((u.setHead h x).reply 0x22 f.tag .ok (.figures r))
                ∧ r.late = x.late
                ∧ (x.account = none → r.committed = 0 ∧ r.venue = 0 ∧ r.counted = [] ∧ r.shed = [])
                ∧ ∀ a, x.account = some a → r.committed = a.committed ∧ r.venue = a.venue
                    ∧ (∀ c k cost, (c, k, cost) ∈ r.counted ↔ a.entries[c] = .counted k cost)
                    ∧ ∀ c, c ∈ r.shed ↔ ∃ k cost, a.entries[c] = .shed k cost
/-! ## Airtime -/

/-- R40. The airtime of one frame of L payload bytes at class k is 44 µs and 8 × L over the class's rate, rounded up; the shortest
and the longest, and the table for the default rated length. With it, the ranges of clamped RSSI on which the rate classes fall
(R39's table). -/
def Obligations.FrameAirtimeFollowsRateClass : Prop :=
  (∀ bytes k, k < 8 → 1 ≤ bytes → bytes ≤ 2048 →
    let rate := airRate k
    let t := frameAirtime bytes k
    44 ≤ t ∧ 8 * bytes ≤ (t - 44) * rate ∧ ∀ n, 8 * bytes ≤ n * rate → t - 44 ≤ n)
    ∧ (List.range 8).map airRate = [6, 9, 12, 18, 24, 36, 48, 54]
    ∧ frameAirtime 1 7 = 45 ∧ frameAirtime 2048 0 = 2775
    ∧ (List.range 8).map (frameAirtime 1400) = [1911, 1289, 978, 667, 511, 356, 278, 252]
    ∧ ∀ r : Int, -100 ≤ clampRssi r ∧ clampRssi r ≤ -20 ∧ (-100 ≤ r → r ≤ -20 → clampRssi r = r)
        ∧ (r < -100 → clampRssi r = -100) ∧ (-20 < r → clampRssi r = -20) ∧ rateClass r ≤ 7
        ∧ (rateClass r = 0 ↔ r ≤ -85) ∧ (rateClass r = 1 ↔ -84 ≤ r ∧ r ≤ -79) ∧ (rateClass r = 2 ↔ -78 ≤ r ∧ r ≤ -73)
        ∧ (rateClass r = 3 ↔ -72 ≤ r ∧ r ≤ -67) ∧ (rateClass r = 4 ↔ -66 ≤ r ∧ r ≤ -61)
        ∧ (rateClass r = 5 ↔ -60 ≤ r ∧ r ≤ -55) ∧ (rateClass r = 6 ↔ -54 ≤ r ∧ r ≤ -49) ∧ (rateClass r = 7 ↔ -48 ≤ r)

/-- R41, R42, R43, R45, R46, R47. A recompute of a head with an open account leaves every entry what R43 says of its channel and
both totals the sums of R45; a channel that was SHED is not restored; what it newly sheds is below the venue level and, of any two
channels, the one of lower current level or of higher number on equal levels goes first; it sheds no more than it must, and is
within the cap when the reservations alone are; each shed is a notice. It changes nothing else; with no open account, nothing. -/
def Obligations.RecomputeBringsTheAccountUpToDate : Prop :=
  (∀ (s : State) (h : HeadId), (s.head h).account = none → s.recompute h = s)
    ∧ ∀ (s : State) (h : HeadId) (a : Account), (s.head h).account = some a →
        ∃ (b : Account) (ns : List Notice),
          let cap := (s.head h).cap
          let wasShed := fun c : Chan => ∃ k cost, a.entries[c] = .shed k cost
          let sheds := fun (c : Chan) (cost : Nat) => ¬ wasShed c ∧ ∃ k, b.entries[c] = .shed k cost
          s.recompute h = { s with heads := s.heads.set h { s.head h with account := some b }, held := s.held ++ ns }
            ∧ b.window = a.window
            ∧ (∀ c, EntryTrue (s.channel c) (s.parties h) (s.head h).floor c b.entries[c])
            ∧ b.committed = s.committedOf (s.parties h) b.entries ∧ b.venue = s.venueOf b.entries
            ∧ (∀ c, wasShed c → b.entries[c].countedCost = 0)
            ∧ (∀ c cost, sheds c cost → s.atVenue c = false ∧ ∀ (d : Chan) (k n : Nat), b.entries[d] = .counted k n →
                s.atVenue d = false → ∃ l m, (s.channel c).currentLevel = some l ∧ (s.channel d).currentLevel = some m
                  ∧ (l < m ∨ l = m ∧ d < c))
            ∧ ((∃ c cost, sheds c cost) → ∃ c cost, sheds c cost ∧ cap < b.committed + cost)
            ∧ (resSum (s.parties h) ≤ cap → b.committed ≤ cap)
            ∧ (∀ n ∈ ns, ∃ c cost, sheds c cost ∧ n = .shed h c cost)
            ∧ (s.classEnabled .airtime = true → ∀ c cost, sheds c cost → Notice.shed h c cost ∈ ns)

/-- R51, R52, R53, R54. At the expiry of a head's window timer the timer restarts. The capped members are retried in ascending station
index: one whose tier value fits, with what those before it have gained, stands at it with its capped flag clear; any other is unchanged,
and does not fit at the end either. Then every channel still SHED no longer fits under the cap, and the account is true and within it. No
other station, head or record changes. A stopped timer does not expire (log 2). -/
def Obligations.WindowExpiryRetriesThenRestores : Prop :=
  (∀ (s : State) (h : HeadId), s.held = [] → (s.head h).account = none → exec (.windowTimerExpiry h) s = .next s)
    ∧ ∀ (s : State) (h : HeadId) (a : Account), s.Sound → (s.head h).account = some a →
        ∃ t b ns, exec (.windowTimerExpiry h) s = .next t ∧ (t.head h).account = some b
          ∧ t.now = max s.now a.window ∧ b.window = t.now + 100000 ∧ s.HeadsKept t [h]
          ∧ (∀ i, s.station i = none → t.station i = none)
          ∧ (∀ i st, s.station i = some st → ¬ (st.current = some h ∧ st.capped = true) → t.station i = some st)
          ∧ (∀ i st, s.station i = some st → st.current = some h → st.capped = true →
              let res := fun (v : State) (j : Nat) => ((v.station j).map Station.res).getD 0
              let gained := (((s.members h).filter (· < i)).map fun j => res t j - res s j).sum
              let fits := resSum (s.parties h) + gained - st.res + s.tierValue st ≤ (s.head h).cap
              (fits → t.station i = some { st with res := s.tierValue st, capped := false })
              ∧ (¬ fits → t.station i = some st ∧ (s.head h).cap < resSum (t.parties h) - st.res + s.tierValue st))
          ∧ t.AccountTrue h b ∧ b.committed ≤ (s.head h).cap
          ∧ (∀ (c : Chan) (k cost : Nat), b.entries[c] = .shed k cost → (s.head h).cap < b.committed + cost)
          ∧ t.holds = s.holds ∧ t.passView = s.passView ∧ t.linkOut = s.linkOut
          ∧ (∀ n ∈ ns, ∃ c cost, n = .shed h c cost ∨ n = .restored h c cost)
          ∧ { s with now := max s.now a.window }.InBowl t ns
/-! ## Stations -/

/-- R23, R24, R20, R48. An ASSOC-REQ is checked in R23's order. A new association takes the lowest vacant record, fills it with
R24's values, joins the head and recomputes it, and is answered ACCEPT; with no vacant record, or 64 members and holds, it is
declined FULL, and with no room for the unbound reservation AIRTIME. A declined one changes no record. -/
def Obligations.AssocReqTakesANewRecord : Prop :=
  ∀ (s : State) (h : HeadId) (addr : StationAddress) (rssi : Int), s.held = [] → s.StationsInv →
    (s.head h).state ≠ .absent → (s.head h).state ≠ .fault →
    let answer := fun f : LinkFrame =>
      exec (.assocReq h addr rssi) s = .next { s with linkOut := s.linkOut ++ [(h, f)] }
    (s.part = .config → answer (.decline addr .state))
      ∧ (s.part = .run →
        (∀ i st, s.lookupStation addr = some i → s.station i = some st →
          (st.state = .moving → answer (.decline addr .busy))
            ∧ ((st.state = .assoc ∨ st.state = .seated) → st.current = some h → answer (.accept addr i))
            ∧ (st.state ≠ .moving → st.current ≠ some h → (s.head h).state ≠ .on → answer (.decline addr .state)))
        ∧ (s.lookupStation addr = none → (s.head h).state ≠ .on → answer (.decline addr .state))
        ∧ (s.lookupStation addr = none → (s.head h).state = .on →
          ((∀ i, i < 4096 → (s.station i).isSome) → answer (.decline addr .full))
            ∧ ∀ i, i < 4096 → s.station i = none → (∀ j, j < i → (s.station j).isSome) →
              (64 ≤ (s.members h).length + (s.holdsAt h).length → answer (.decline addr .full))
              ∧ ((s.members h).length + (s.holdsAt h).length < 64 →
                (s.head h).cap < resSum (s.parties h) + s.unbound → answer (.decline addr .airtime))
              ∧ ((s.members h).length + (s.holdsAt h).length < 64 →
                resSum (s.parties h) + s.unbound ≤ (s.head h).cap →
                let v := s.setStation i
                  { addr := addr, state := .assoc, current := some h, target := none, rate := rateClass rssi
                    rssi := clampRssi rssi, candidates := [], res := s.unbound, capped := false, pass := none, chans := 0
                    dwell := s.now / 1000, lapse := none, handovers := 0, refused := 0 }
                ∃ t, exec (.assocReq h addr rssi) s = .next t
                  ∧ t.stations = v.stations ∧ t.holds = s.holds ∧ t.passView = s.passView
                  ∧ t.heads = (v.recompute h).heads ∧ t.linkOut = s.linkOut ++ [(h, .accept addr i)]
                  ∧ s.InBowl t (v.recompute h).held)))

/-- R25, R26, R48, R51, R52. At a head that is ON, a LAPSED record returns: declined FULL or AIRTIME, else it joins the head with its
lapse timer stopped, at the unbound reservation and then, with a bound pass, at its tier value if that fits and else capped. A station
in ASSOC or SEATED at another head is moved directly at its reservation in force: its old head is sent DISASSOC, which names the
station by its address alone (log 47), and is recomputed, and makes its drain check. Pass, channel set and counts are kept. -/
def Obligations.AssocReqReturnsOrMovesAStation : Prop :=
  ∀ (s : State) (h : HeadId) (addr : StationAddress) (rssi : Int) (i : Nat) (st : Station), s.Sound → s.part = .run →
    (s.head h).state = .on → s.lookupStation addr = some i → s.station i = some st → st.addr = addr →
    let declined := fun c : Code =>
      exec (.assocReq h addr rssi) s = .next { s with linkOut := s.linkOut ++ [(h, .decline addr c)] }
    let crowd := (s.members h).length + (s.holdsAt h).length
    let heard := { st with
      current := some h, rssi := clampRssi rssi, rate := rateClass rssi, candidates := [], dwell := s.now / 1000 }
    (st.state = .lapsed →
      (64 ≤ crowd → declined .full)
        ∧ (crowd < 64 → (s.head h).cap < resSum (s.parties h) + s.unbound → declined .airtime)
        ∧ (crowd < 64 → resSum (s.parties h) + s.unbound ≤ (s.head h).cap →
          let back := { heard with
            state := if st.pass.isSome then .seated else .assoc, res := s.unbound, lapse := none }
          let v := (s.setStation i back).recompute h
          let w := if st.pass.isSome then v.settle i else v
          let goal := s.tierValue st
          ∃ t, exec (.assocReq h addr rssi) s = .next t
            ∧ t.station i = some (
                if st.pass = none then back
                else if goal ≤ s.unbound then { back with res := goal, capped := false }
                else if resSum (s.parties h) + goal ≤ (s.head h).cap then { back with res := goal, capped := false }
                else { back with capped := true })
            ∧ (∀ j, j ≠ i → t.station j = s.station j) ∧ t.holds = s.holds ∧ t.passView = s.passView
            ∧ t.heads = w.heads ∧ s.HeadsKept t [h] ∧ t.linkOut = s.linkOut ++ [(h, .accept addr i)]
            ∧ s.InBowl t w.held))
      ∧ ∀ g, st.current = some g → g ≠ h → (st.state = .assoc ∨ st.state = .seated) →
        (64 ≤ crowd → declined .full)
        ∧ (crowd < 64 → (s.head h).cap < resSum (s.parties h) + st.res → declined .airtime)
        ∧ (crowd < 64 → resSum (s.parties h) + st.res ≤ (s.head h).cap →
          let w := (((s.setStation i heard).recompute g).recompute h).drainCheck g
          ∃ t, exec (.assocReq h addr rssi) s = .next t
            ∧ t.station i = some heard ∧ (∀ j, j ≠ i → t.station j = s.station j)
            ∧ t.holds = s.holds ∧ t.passView = s.passView ∧ t.heads = w.heads
            ∧ (∀ k, k ≠ g → k ≠ h → t.head k = s.head k) ∧ SameButAccount (s.head h) (t.head h)
            ∧ ((s.head g).state = .on → SameButAccount (s.head g) (t.head g))
            ∧ ((s.head g).state = .draining → s.members g = [i] → s.holdsAt g = [] →
                t.head g = { s.head g with state := .dark, account := none })
            ∧ t.linkOut = s.linkOut ++ [(g, .disassoc addr), (h, .accept addr i)] ∧ s.InBowl t w.held)

/-- R27, R28, R29, R30, R31, R76, R78, R82, R96, R98. DISASSOC, the lapse timer's expiry and STATION-EVICT vacate a record: its hold and
the hold's place are gone, its pass returns to ADMITTED with its zone's seated count one lower, its head and its target are recomputed
and make their drain checks. LOST takes it to LAPSED with its pass, channel set and counts kept. CANCEL goes to the target of a MOVING
station unless it left by the target itself, DISASSOC, with the address alone (log 47), to the head unless the station left by a DISASSOC; a ROAM notice of kind ABORTED is
produced for a hold of origin HOST, and for no other. STATION-EVICT draws RANGE outside 0–4095 and STATE for a vacant record; a stopped
lapse timer does not expire (log 2). -/
def Obligations.StationsLeaveTheirHeads : Prop :=
  ∀ (s : State) (i : Nat), s.Sound →
    let heads := fun (t : State) (st : Station) =>
      (∀ g, st.current ≠ some g → st.target ≠ some g → t.head g = s.head g)
        ∧ ∀ g, (st.current = some g ∨ st.target = some g) → s.HeadLeft t g
    let rest := fun (v t : State) (frames : List (HeadId × LinkFrame)) =>
      (∀ j, j ≠ i → t.station j = s.station j) ∧ t.holds = s.holds.filter (fun x => x.station != i)
        ∧ t.linkOut = s.linkOut ++ frames
        ∧ ∃ ns, (ns.filter fun n => noticeClass n == .roam) = abortNotices (s.holds.filter fun x => x.station == i)
          ∧ (∀ g, Notice.head g .drained .dark ∈ ns ↔ (s.head g).state = .draining ∧ (t.head g).state = .dark)
          ∧ (∀ n ∈ ns, noticeClass n = .roam ∨ noticeClass n = .airtime ∨ ∃ g, n = .head g .drained .dark)
          ∧ v.InBowl t ns
    let vacated := fun (v t : State) (st : Station) (frames : List (HeadId × LinkFrame)) =>
      t.station i = none ∧ heads t st ∧ rest v t frames
        ∧ (∀ p, t.pass p = if st.pass = some p then
            (s.pass p).map (fun q => { q with state := .admitted, station := none }) else s.pass p)
        ∧ s.CountsMoved t ((st.pass.bind s.pass).bind Pass.cached) id (· - 1)
    let cancels := fun st : Station => st.target.toList.map fun g => (g, LinkFrame.cancel st.addr i)
    let leaves := fun st : Station => st.current.toList.map fun g => (g, LinkFrame.disassoc st.addr)
    (∀ (h : HeadId) (st : Station), s.Hears h → s.Member h st.addr i st →
      (∃ t, exec (.disassoc h st.addr) s = .next t ∧ vacated s t st (cancels st))
        ∧ ∃ t, exec (.lost h st.addr) s = .next t
          ∧ t.station i = some { st with
              state := .lapsed, current := none, target := none, res := 0, capped := false
              lapse := some (s.now + 1000000 * s.roam.lapse) }
          ∧ heads t st ∧ rest s t (cancels st) ∧ t.passes = s.passes ∧ t.zones = s.zones)
      ∧ (∀ (h g : HeadId) (st : Station), s.Hears h → s.Member g st.addr i st → st.state = .moving → st.target = some h →
        ∃ t, exec (.disassoc h st.addr) s = .next t ∧ vacated s t st [])
      ∧ (∀ st, s.station i = some st → st.lapse = none → exec (.lapseTimerExpiry i) s = .next s)
      ∧ (s.station i = none → exec (.lapseTimerExpiry i) s = .next s)
      ∧ (∀ st due, s.station i = some st → st.lapse = some due → ∃ t, exec (.lapseTimerExpiry i) s = .next t
        ∧ vacated { s with now := max s.now due } t st [])
      ∧ ∀ (u : State) (f : Req), s.Takes 0x0D f u →
        (4096 ≤ i → exec (.stationEvict f i) s = .next (u.reply 0x0D f.tag .range .none))
          ∧ (i < 4096 → s.station i = none → exec (.stationEvict f i) s = .next (u.reply 0x0D f.tag .state .none))
          ∧ ∀ st, i < 4096 → s.station i = some st → ∃ t, exec (.stationEvict f i) s = .next t
            ∧ vacated (u.reply 0x0D f.tag .ok .none) t st (cancels st ++ leaves st)

/-- R33, R34, R39. A STATION-REPORT of a member stores its clamped RSSI and rate class, and recomputes its head if the class has
changed; of a MOVING station nothing more. For one in ASSOC or SEATED each candidate at a head that exists is kept, the first of each
head, its RSSI clamped; with no such candidate in the head's neighbour list at a head that is ON, the report ends there. -/
def Obligations.StationReportStoresTheSignal : Prop :=
  (∀ cands : List (Nat × Int), ((reportCandidates cands).map Prod.fst).Nodup
    ∧ ∀ c, c ∈ reportCandidates cands ↔ (cands.find? fun x => x.1 == c.1.val).map (fun x => clampRssi x.2) = some c.2)
    ∧ ∀ (s : State) (h : HeadId) (rssi : Int) (cands : List (Nat × Int)) (i : Nat) (st : Station), s.Sound → s.Hears h →
        s.Member h st.addr i st → cands.length ≤ 4 →
        let r := { st with rssi := clampRssi rssi, rate := rateClass rssi }
        let v := s.setStation i r
        let w := if rateClass rssi = st.rate then v else v.recompute h
        let stored := fun x : Station => ∃ t, exec (.stationReport h st.addr rssi cands) s = .next t
          ∧ t.station i = some x ∧ (∀ j, j ≠ i → t.station j = s.station j) ∧ t.heads = w.heads ∧ s.HeadsKept t [h]
          ∧ t.holds = s.holds ∧ t.passView = s.passView ∧ t.linkOut = s.linkOut ∧ s.InBowl t w.held
        (st.state = .moving → stored r)
          ∧ ((st.state = .assoc ∨ st.state = .seated) →
            (∀ c ∈ reportCandidates cands, c.1 ∉ (s.head h).neighbours ∨ (s.head c.1).state ≠ .on) →
            stored { r with candidates := reportCandidates cands })

/-- R58, R63, R64, R66, R67, R68, R69, R84. A report of a station in ASSOC or SEATED is weighed against the kept candidate of the
highest score, the lower head number on equal scores. At a head that is ON it is tried when the margin is at or above the hysteresis
and the dwell has run, else the report ends with no more effect; at a DRAINING head it is tried always. Tried, it is admitted, and
then the station is MOVING, its hold stands last with origin REPORT or DRAIN, OFFER is sent and the target's committed total is the one
the test computed; or it is refused, with one more refused roam and the dwell start now. -/
def Obligations.ReportStartsAHandover : Prop :=
  ∀ (s : State) (h : HeadId) (rssi : Int) (cands : List (Nat × Int)) (i : Nat) (st : Station) (best : HeadId × Int),
    s.Sound → s.Hears h → s.Member h st.addr i st → (st.state = .assoc ∨ st.state = .seated) → cands.length ≤ 4 →
    let r := { st with rssi := clampRssi rssi, rate := rateClass rssi, candidates := reportCandidates cands }
    let w := if rateClass rssi = st.rate then s.setStation i r else (s.setStation i r).recompute h
    let kept := fun c : HeadId × Int =>
      c ∈ r.candidates ∧ c.1 ∈ (s.head h).neighbours ∧ (s.head c.1).state = .on
    let score := fun (g : HeadId) (x : Int) => x + (match (st.pass.bind s.pass).bind Pass.cached with
      | none => 0
      | some z => if g ∈ s.zoneHeads z then 6 else -10) - w.penalty g
    kept best → (∀ c, kept c → score c.1 c.2 < score best.1 best.2
      ∨ score c.1 c.2 = score best.1 best.2 ∧ best.1 ≤ c.1) →
    let tried := (s.head h).state = .draining ∨ (s.roam.hysteresis : Int) ≤ score best.1 best.2 - score h (clampRssi rssi)
      ∧ s.roam.dwell ≤ s.now / 1000 - st.dwell
    let party : Party := ⟨st.res, st.chans, rateClass best.2⟩
    let a := (w.head best.1).account
    let fits := (w.members best.1).length + (w.holdsAt best.1).length < 64
      ∧ ∀ x, a = some x → w.committedWith best.1 x party ≤ (s.head best.1).cap
    ∃ t, exec (.stationReport h st.addr rssi cands) s = .next t
      ∧ (∀ j, j ≠ i → t.station j = s.station j) ∧ t.passView = s.passView
      ∧ s.InBowl t w.held
      ∧ (¬ tried → t.station i = some r ∧ t.holds = s.holds ∧ t.heads = w.heads ∧ t.linkOut = s.linkOut)
      ∧ (tried → ¬ fits → t.station i = some { r with refused := min 65535 (st.refused + 1), dwell := s.now / 1000 }
        ∧ t.holds = s.holds ∧ t.heads = w.heads ∧ t.linkOut = s.linkOut)
      ∧ (tried → fits → t.station i = some { r with state := .moving, target := some best.1 }
        ∧ t.holds = s.holds ++ [⟨i, h, best.1, st.res, st.chans, best.2, rateClass best.2,
            if (s.head h).state = .draining then .drain else .report, s.now + 50000⟩]
        ∧ w.HeadsKept t [best.1] ∧ t.linkOut = s.linkOut ++ [(best.1, .offer st.addr i)]
        ∧ ∀ x, a = some x → (t.head best.1).account.map Account.committed = some (w.committedWith best.1 x party))

/-- R11, R58, R69, R81. STATION-MOVE, once the target's setup sequence is ended: RANGE for an index or a head out of range, STATE for a
record vacant or LAPSED, BUSY for a MOVING station, RANGE for a target that is not ON, not a neighbour or no candidate, AIRTIME with one
more refused roam for a hold that is not admitted; else the handover is started with origin HOST and the reply is STARTED. -/
def Obligations.StationMoveIsOrderedByTheHost : Prop :=
  ∀ (s u : State) (f : Req) (i target : Nat), s.Sound → s.Takes 0x0C f u →
    (96 ≤ target → exec (.stationMove f i target) s = .next (u.reply 0x0C f.tag .range .none))
      ∧ ∀ h : HeadId, target = h.val →
        let v := u.endSequence h
        let answer := fun c : Code => exec (.stationMove f i target) s = .next (v.reply 0x0C f.tag c .none)
        (4096 ≤ i → answer .range)
          ∧ (i < 4096 → s.station i = none → answer .state)
          ∧ ∀ st, s.station i = some st →
            (st.state = .lapsed → answer .state) ∧ (st.state = .moving → answer .busy)
            ∧ ∀ here, st.current = some here → (st.state = .assoc ∨ st.state = .seated) →
              (((s.head h).state ≠ .on ∨ h ∉ (v.head here).neighbours ∨ h ∉ st.candidates.map Prod.fst) → answer .range)
              ∧ ∀ x a, (s.head h).state = .on → h ∈ (v.head here).neighbours → st.candidate h = some (h, x) →
                (s.head h).account = some a →
                let party : Party := ⟨st.res, st.chans, rateClass x⟩
                let total := s.committedWith h a party
                let fits := (s.members h).length + (s.holdsAt h).length < 64 ∧ total ≤ (s.head h).cap
                (¬ fits → exec (.stationMove f i target) s = .next
                  ((v.setStation i { st with refused := min 65535 (st.refused + 1), dwell := s.now / 1000 }).reply 0x0C f.tag
                    .airtime .none))
                ∧ (fits → ∃ t, exec (.stationMove f i target) s = .next t
                  ∧ t.station i = some { st with state := .moving, target := some h }
                  ∧ (∀ j, j ≠ i → t.station j = s.station j)
                  ∧ t.holds = s.holds ++ [⟨i, here, h, st.res, st.chans, x, rateClass x, .host, s.now + 50000⟩]
                  ∧ v.HeadsKept t [h] ∧ (t.head h).account.map Account.committed = some total
                  ∧ t.passView = s.passView ∧ t.linkOut = s.linkOut ++ [(h, .offer st.addr i)]
                  ∧ (u.reply 0x0C f.tag .started .none).InBowl t [])

/-- R36, R37. A JOIN-REQ of a member: DENIED for a channel that is not permitted, BUSY while MOVING, OK with no change for one already
in the set; else the channel joins the set and the head is recomputed before the OK. A LEAVE-REQ is answered OK; a channel in the set
leaves it, and the hold of a MOVING station, and the head and the target are recomputed. An answer names the station and the channel
beside its code (log 38). -/
def Obligations.JoinAndLeaveChangeTheChannelSet : Prop :=
  ∀ (s : State) (h : HeadId) (i : Nat) (st : Station), s.Sound → s.Hears h → s.Member h st.addr i st →
    let answered := fun (t : State) (f : LinkFrame) => t.linkOut = s.linkOut ++ [(h, f)]
    let only := fun f : LinkFrame => Host.Outcome.next (φ := Fault) (ρ := Refusal) { s with linkOut := s.linkOut ++ [(h, f)] }
    (∀ n, 8 ≤ n → exec (.joinReq h st.addr n) s = only (.joinAnswer st.addr n .denied)
        ∧ exec (.leaveReq h st.addr n) s = only (.leaveAnswer st.addr n .ok))
      ∧ ∀ c : Chan,
        (hasChan (s.permitted st) c = false → exec (.joinReq h st.addr c) s = only (.joinAnswer st.addr c .denied))
        ∧ (hasChan (s.permitted st) c = true → st.state = .moving →
          exec (.joinReq h st.addr c) s = only (.joinAnswer st.addr c .busy))
        ∧ (hasChan (s.permitted st) c = true → st.state ≠ .moving → hasChan st.chans c = true →
          exec (.joinReq h st.addr c) s = only (.joinAnswer st.addr c .ok))
        ∧ (hasChan (s.permitted st) c = true → st.state ≠ .moving → hasChan st.chans c = false →
          let w := (s.setStation i { st with chans := st.chans ||| oneChan c }).recompute h
          ∃ t, exec (.joinReq h st.addr c) s = .next t ∧ t.stations = w.stations ∧ t.holds = s.holds ∧ t.heads = w.heads
            ∧ t.passView = s.passView ∧ answered t (.joinAnswer st.addr c .ok) ∧ s.InBowl t w.held)
        ∧ (hasChan st.chans c = false → exec (.leaveReq h st.addr c) s = only (.leaveAnswer st.addr c .ok))
        ∧ (hasChan st.chans c = true → ∃ t ns, exec (.leaveReq h st.addr c) s = .next t
          ∧ t.station i = some { st with chans := st.chans &&& ~~~ oneChan c }
          ∧ (∀ j, j ≠ i → t.station j = s.station j)
          ∧ t.holds = s.holds.map (fun x => if x.station = i then { x with chans := st.chans &&& ~~~ oneChan c } else x)
          ∧ s.HeadsKept t (h :: st.target.toList)
          ∧ (∀ g a, (g = h ∨ st.target = some g) → (t.head g).account = some a → t.AccountTrue g a)
          ∧ t.passView = s.passView ∧ answered t (.leaveAnswer st.addr c .ok)
          ∧ (∀ n ∈ ns, noticeClass n = .airtime) ∧ s.InBowl t ns)

/-- R70, R71, R72, R75. A READY from the target of the MOVING station it names completes the handover: RELEASE goes to the source, the
station is a member of the target with the hold's RSSI, class and reservation, one more handover and its dwell start now, and its
reservation is settled to its tier value if that fits and else capped; a ROAM notice of kind MOVED comes last. A READY or DECLINE not so
matched is answered CANCEL, and raises the head's late count. -/
def Obligations.ReadyLandsOrIsLate : Prop :=
  (∀ (s : State) (i : Nat) (st : Station) (x : Hold), s.Sound → s.Hears x.target → s.station i = some st →
    s.holdOf i = some x →
    let goal := s.tierValue st
    let landed := { st with
      state := if st.pass.isSome then .seated else .assoc
      current := some x.target, target := none, rssi := x.rssi, rate := x.rate, candidates := []
      handovers := min 65535 (st.handovers + 1), dwell := s.now / 1000 }
    ∃ t more, exec (.ready x.target st.addr i) s = .next t
      ∧ t.station i = some (
          if goal ≤ x.res ∨ resSum (s.parties x.target) - x.res + goal ≤ (s.head x.target).cap then
            { landed with res := goal, capped := false }
          else { landed with res := x.res, capped := true })
      ∧ (∀ j, j ≠ i → t.station j = s.station j) ∧ t.holds = s.holds.filter (fun y => y.station != i)
      ∧ (∀ g, g ≠ x.source → g ≠ x.target → t.head g = s.head g) ∧ SameButAccount (s.head x.target) (t.head x.target)
      ∧ (if (s.head x.source).state = .draining ∧ t.members x.source = [] ∧ t.holdsAt x.source = [] then
          t.head x.source = { s.head x.source with state := .dark, account := none }
        else SameButAccount (s.head x.source) (t.head x.source))
      ∧ t.passView = s.passView ∧ t.linkOut = s.linkOut ++ [(x.source, .release st.addr)]
      ∧ (∀ n ∈ more, noticeClass n = .airtime ∨ n = .head x.source .drained .dark)
      ∧ s.InBowl t (more ++ [.roam i .moved x.source x.target x.origin]))
    ∧ ∀ (s : State) (h : HeadId) (addr : StationAddress) (i : Nat), s.Hears h →
        (¬ ∃ st x, s.station i = some st ∧ s.holdOf i = some x ∧ st.state = .moving ∧ st.addr = addr ∧ st.target = some h) →
        let late := { s.setHead h { s.head h with late := min 65535 ((s.head h).late + 1) } with
          linkOut := s.linkOut ++ [(h, .cancel addr i)] }
        exec (.ready h addr i) s = .next late ∧ exec (.decline h addr i) s = .next late

/-- R73, R74, R82. A DECLINE from the target, or the expiry of the handover timer, undoes the handover: the hold is removed and the
target recomputed, with its drain check; the station is back at its source by its binding, with one more refused roam and its dwell
start now; nothing else of it or of the source changes. The expiry sends CANCEL to the target. For a hold of origin HOST a ROAM notice of
kind DECLINED or TIMEOUT comes last. A hold that is gone has no timer (log 2). -/
def Obligations.DeclineOrTimeoutUndoesAHandover : Prop :=
  (∀ (s : State) (i : Nat), s.held = [] → s.holdOf i = none → exec (.handoverTimerExpiry i) s = .next s)
    ∧ ∀ (s : State) (i : Nat) (st : Station) (x : Hold), s.Sound → s.station i = some st → s.holdOf i = some x →
        let undone := fun (v t : State) (k : RoamEnd) =>
          t.station i = some { st with
              state := if st.pass.isSome then .seated else .assoc
              target := none, refused := min 65535 (st.refused + 1), dwell := v.now / 1000 }
            ∧ (∀ j, j ≠ i → t.station j = s.station j) ∧ t.holds = s.holds.filter (fun y => y.station != i)
            ∧ (∀ g, g ≠ x.target → t.head g = s.head g)
            ∧ (if (s.head x.target).state = .draining ∧ t.members x.target = [] ∧ t.holdsAt x.target = [] then
                t.head x.target = { s.head x.target with state := .dark, account := none }
              else SameButAccount (s.head x.target) (t.head x.target))
            ∧ t.passView = s.passView
            ∧ ∃ more, (∀ n ∈ more, noticeClass n = .airtime ∨ n = .head x.target .drained .dark)
              ∧ v.InBowl t (more ++ if x.origin = .host then [.roam i k x.source x.target x.origin] else [])
        (s.Hears x.target → ∃ t, exec (.decline x.target st.addr i) s = .next t ∧ undone s t .declined
          ∧ t.linkOut = s.linkOut)
          ∧ ∃ t, exec (.handoverTimerExpiry i) s = .next t ∧ undone { s with now := max s.now x.due } t .timeout
            ∧ t.linkOut = s.linkOut ++ [(x.target, .cancel st.addr i)]


/-- R38, R60. ROAM-SET draws RANGE for a value out of its range and changes nothing; else all four settings are replaced. When the new
public set lacks a channel of the old one, every station's channel set, and its hold's, is kept to what is permitted, and only heads with
a member or a hold so trimmed are recomputed; a running lapse timer keeps its expiry. -/
def Obligations.RoamSetReplacesTheSettings : Prop :=
  ∀ (s u : State) (f : Req) (hysteresis dwell lapse : Nat) (pub : ChanSet), s.Sound → s.Takes 0x06 f u →
    ((20 < hysteresis ∨ 10000 < dwell ∨ lapse < 5 ∨ 120 < lapse) →
      exec (.roamSet f hysteresis dwell lapse pub) s = .next (u.reply 0x06 f.tag .range .none))
      ∧ (hysteresis ≤ 20 → dwell ≤ 10000 → 5 ≤ lapse → lapse ≤ 120 →
        let v := { u with roam := ⟨hysteresis, dwell, lapse, pub⟩ }
        (s.roam.pub &&& ~~~ pub = 0 →
          exec (.roamSet f hysteresis dwell lapse pub) s = .next (v.reply 0x06 f.tag .ok .none))
        ∧ ∃ t ns, exec (.roamSet f hysteresis dwell lapse pub) s = .next t
          ∧ t.roam = ⟨hysteresis, dwell, lapse, pub⟩
          ∧ (s.roam.pub &&& ~~~ pub ≠ 0 →
            (∀ i, t.station i = (s.station i).map fun st => { st with chans := st.chans &&& v.permitted st })
            ∧ t.holds = s.holds.map (fun x => { x with
                chans := ((s.station x.station).map fun st => st.chans &&& v.permitted st).getD x.chans })
            ∧ (∀ g, SameButAccount (s.head g) (t.head g)
              ∧ ((∀ i st, s.station i = some st → (st.current = some g ∨ st.target = some g) →
                  st.chans &&& ~~~ v.permitted st = 0) → t.head g = s.head g)))
          ∧ t.passView = s.passView ∧ t.linkOut = s.linkOut ∧ (∀ n ∈ ns, noticeClass n = .airtime)
          ∧ (v.reply 0x06 f.tag .ok .none).InBowl t ns)

/-! ## Passes -/

/-- R86, R87, R89. A PASS-LOAD of no entry or of more than 16 draws RANGE. Else its entries are taken in order, each on the state the
one before left: RANGE, DUPLICATE, FULL in that order of checks, each with no change; else the lowest vacant record takes the pass,
ISSUED, with every count 0 and its cached zone worked out. No count of the census moves. -/
def Obligations.PassLoadTakesEachEntry : Prop :=
  ∀ (s u : State) (f : Req) (entries : List PassEntry), s.Sound → s.Takes 0x0E f u →
    ((entries.length = 0 ∨ 16 < entries.length) →
      exec (.passLoad f entries) s = .next (u.reply 0x0E f.tag .range .none))
      ∧ (1 ≤ entries.length → entries.length ≤ 16 →
        ∃ (mid : Nat → State) (result : Nat → Code × Option Nat), mid 0 = u
          ∧ exec (.passLoad f entries) s =
              .next ((mid entries.length).reply 0x0E f.tag .ok (.loaded ((List.range entries.length).map result)))
          ∧ ∀ k (e : PassEntry), entries[k]? = some e →
            let v := mid k
            let w := mid (k + 1)
            let bad := e.number = 0 ∨ 4 ≤ e.tier ∨ ∃ z, e.declared = some z ∧ 32 ≤ z
            let vacant := fun p => v.pass p = none
            (bad → w = v ∧ result k = (.range, none))
              ∧ (¬ bad → (∃ p q, v.pass p = some q ∧ q.number = e.number) → w = v ∧ result k = (.duplicate, none))
              ∧ (¬ bad → (∀ p q, v.pass p = some q → q.number ≠ e.number) →
                ((∀ p, p < 8192 → ¬ vacant p) → w = v ∧ result k = (.full, none))
                ∧ ∀ p, p < 8192 → vacant p → (∀ r, r < p → ¬ vacant r) →
                  result k = (.ok, some p) ∧ w = { v with passes := w.passes } ∧ (∀ r, r ≠ p → w.pass r = v.pass r)
                  ∧ w.lookupPass e.number = some p
                  ∧ ∃ (tier : Tier) (declared : Option ZoneId), tier.val = e.tier ∧ declared.map Fin.val = e.declared
                    ∧ w.pass p = some {
                        number := e.number, tier := tier, seat := e.seat, declared := declared
                        cached := v.cachedZone e.seat declared, state := .issued, reentries := 0, passbacks := 0
                        conflicts := 0, suspect := false, station := none, lastGate := none }))

/-- R51, R52, R99, R100, R101. PASS-AMEND: RANGE, UNKNOWN, VOID in that order. Accepted, it writes the fields given and the cached zone
worked out; the counts of a pass inside the bowl move with a changed zone. When the tier or the cached zone of a SEATED pass has changed,
its station's reservation is set toward the new tier value, its channel set and its hold's are kept to what is permitted, and its heads'
accounts are brought up to date; with neither changed, its reservation alone is set toward its tier value (log 36). No other station
changes. -/
def Obligations.PassAmendBringsTheStationIntoLine : Prop :=
  ∀ (s u : State) (f : Req) (n : PassNumber) (tier : Option Nat) (seat : Change (BitVec 16)) (declared : Change Nat),
    s.Sound → s.Takes 0x0F f u →
    let answer := fun c : Code => exec (.passAmend f n tier seat declared) s = .next (u.reply 0x0F f.tag c .none)
    ((∃ k, tier = some k ∧ 4 ≤ k) ∨ (∃ z, declared = .give z ∧ 32 ≤ z) → answer .range)
      ∧ ((∀ k, tier = some k → k < 4) → (∀ z, declared = .give z → z < 32) →
        (u.lookupPass n = none → answer .unknown)
        ∧ ∀ p q, u.lookupPass n = some p → u.pass p = some q →
          (q.state = .void → answer .void)
          ∧ (q.state ≠ .void → ∃ (t : State) (ns : List Notice), exec (.passAmend f n tier seat declared) s = .next t
            ∧ ∃ (tier' : Tier) (declared' : Option ZoneId), tier'.val = tier.getD q.tier.val
            ∧ declared'.map Fin.val = Change.on declared (q.declared.map Fin.val)
            ∧ let z := u.cachedZone (Change.on seat q.seat) declared'
              let x := { q with tier := tier', seat := Change.on seat q.seat, declared := declared', cached := z }
              let weight := fun (yes : Bool) (k : ZoneId) (w : Option ZoneId) => if yes = true ∧ w = some k then 1 else 0
              t.pass p = some x ∧ (∀ k, k ≠ p → t.pass k = s.pass k)
              ∧ (∀ k, t.zone k = { s.zone k with
                  admitted := (s.zone k).admitted - weight (passInside q.state) k q.cached + weight (passInside q.state) k z
                  seated := (s.zone k).seated - weight (passSeated q.state) k q.cached + weight (passSeated q.state) k z })
              ∧ (q.station = none →
                  t.stations = s.stations ∧ t.holds = s.holds ∧ t.heads = s.heads)
              ∧ (∀ i st, q.station = some i → s.station i = some st → q.tier = tier' → q.cached = z →
                ∃ y, s.SetToward st s.tiers[tier'].reservation y ∧ s.StationBecomes t i st y
                  ∧ (y.res = st.res → t.heads = s.heads))
              ∧ (∀ i st, q.station = some i → s.station i = some st → ¬ (q.tier = tier' ∧ q.cached = z) →
                ∃ y, s.SetToward st s.tiers[tier'].reservation y
                  ∧ s.StationBecomes t i st { y with
                      chans := st.chans &&& (s.roam.pub ||| match z with
                        | none => 0
                        | some k => s.zoneChans k &&& s.tiers[tier'].chans) })
              ∧ t.linkOut = s.linkOut ∧ (∀ m ∈ ns, noticeClass m = .airtime)
              ∧ (u.reply 0x0F f.tag .ok .none).InBowl t ns))

/-- R51, R52, R96, R97, R102, R103, R124, R133, R134. PASS-VOID, PASS-DROP and UNBIND-REQ undo the binding of the pass they reach: its
station loses it and is left as an unbound station, its reservation set toward the unbound one by R52 or, where that is the larger, by
the raising rule of R51 (log 18). The pass becomes VOID, vacant or ADMITTED, and its zone's counts lose what it no longer counts as. A
number not in the lookup draws UNKNOWN; a pass already VOID is answered OK with no change; an UNBIND-REQ of a station with no pass is
answered OK, with no number, and changes nothing. -/
def Obligations.VoidDropAndUnbindUndoABinding : Prop :=
  (∀ (s u : State) (f : Req) (n : PassNumber), s.Sound →
    (s.Takes 0x10 f u →
      (u.lookupPass n = none → exec (.passVoid f n) s = .next (u.reply 0x10 f.tag .unknown .none))
      ∧ ∀ p q, u.lookupPass n = some p → u.pass p = some q →
        (q.state = .void → exec (.passVoid f n) s = .next (u.reply 0x10 f.tag .ok .none))
        ∧ ∃ t ns, exec (.passVoid f n) s = .next t
          ∧ s.PassLeaves t p q (some { q with state := .void, station := none }) ∧ s.StationUnbound t q
          ∧ t.linkOut = s.linkOut ∧ (∀ m ∈ ns, noticeClass m = .airtime) ∧ (u.reply 0x10 f.tag .ok .none).InBowl t ns)
    ∧ (s.Takes 0x11 f u →
      (u.lookupPass n = none → exec (.passDrop f n) s = .next (u.reply 0x11 f.tag .unknown .none))
      ∧ ∀ p q, u.lookupPass n = some p → u.pass p = some q →
        ∃ t ns, exec (.passDrop f n) s = .next t ∧ s.PassLeaves t p q none ∧ s.StationUnbound t q
          ∧ t.lookupPass n = none
          ∧ t.linkOut = s.linkOut ∧ (∀ m ∈ ns, noticeClass m = .airtime) ∧ (u.reply 0x11 f.tag .ok .none).InBowl t ns))
    ∧ ∀ (s : State) (h : HeadId) (i : Nat) (st : Station), s.Sound → s.Hears h → s.Member h st.addr i st →
        (st.pass = none → exec (.unbindReq h st.addr) s =
          .next { s with linkOut := s.linkOut ++ [(h, .unbindAnswer st.addr none .ok)] })
        ∧ ∀ p q, st.pass = some p → s.pass p = some q →
          ∃ t ns, exec (.unbindReq h st.addr) s = .next t
            ∧ s.PassLeaves t p q (some { q with state := .admitted, station := none }) ∧ s.StationUnbound t q
            ∧ t.linkOut = s.linkOut ++ [(h, .unbindAnswer st.addr (some q.number) .ok)]
            ∧ (∀ m ∈ ns, noticeClass m = .airtime) ∧ s.InBowl t ns


/-- R88, R90, R91, R92, R93, R94, R95, R97. GATE-SCAN. RANGE, with the code alone (log 40), for a gate or direction out of range, whether or
not the number is known (log 39); UNKNOWN for a number not in the lookup. IN: an ISSUED pass is admitted, and one that is OUT with
re-entries used below its tier's limit, else REENTRY_LIMIT; ADMITTED or SEATED draws PASSBACK. OUT: ADMITTED or SEATED goes OUT, a SEATED
one unbound first, its station left as an unbound one (log 18); ISSUED or OUT draws NOT_INSIDE. A passback is counted, and sets the
suspect flag at 3, with one notice. VOID is answered VOID. Only a scan answered OK writes the last gate. -/
def Obligations.GateScanIsAnsweredByThePassState : Prop :=
  ∀ (s u : State) (f : Req) (n : PassNumber) (gate : Nat), s.Sound → s.Takes 0x13 f u →
    (∀ dir, dir = none ∨ 255 < gate → exec (.gateScan f n gate dir) s = .next (u.reply 0x13 f.tag .range .none))
      ∧ (∀ d, gate ≤ 255 → u.lookupPass n = none →
        exec (.gateScan f n gate (some d)) s = .next (u.reply 0x13 f.tag .unknown .none))
      ∧ ∀ p q, gate ≤ 255 → u.lookupPass n = some p → u.pass p = some q →
        let ends := fun (d : ScanDirection) (c : Code) (x : Pass) (up : Nat → Nat) (ns : List Notice) =>
          ∃ t, exec (.gateScan f n gate (some d)) s = .next t
            ∧ t.pass p = some x ∧ (∀ k, k ≠ p → t.pass k = s.pass k) ∧ s.CountsMoved t q.cached up id
            ∧ t.stationView = s.stationView ∧ t.heads = s.heads ∧ t.linkOut = s.linkOut
            ∧ (u.reply 0x13 f.tag c (.scan p x.tier x.state x.reentries x.suspect)).InBowl t ns
        let counted := { q with
          passbacks := min 255 (q.passbacks + 1), suspect := q.suspect || decide (3 ≤ q.passbacks + 1) }
        let flagged := if q.suspect = false ∧ 3 ≤ q.passbacks + 1 then [Notice.suspect p q.number .passback] else []
        (q.state = .issued →
            ends .into .ok { q with state := .admitted, lastGate := some gate } (· + 1) []
            ∧ ends .outOf .notInside counted id flagged)
          ∧ (q.state = .out →
            (q.reentries < s.tiers[q.tier].reentryLimit →
              ends .into .ok { q with state := .admitted, lastGate := some gate, reentries := q.reentries + 1 } (· + 1) [])
            ∧ (s.tiers[q.tier].reentryLimit ≤ q.reentries → ends .into .reentryLimit q id [])
            ∧ ends .outOf .notInside counted id flagged)
          ∧ (q.state = .admitted →
            ends .into .passback counted id flagged
            ∧ ends .outOf .ok { q with state := .out, lastGate := some gate } (· - 1) [])
          ∧ (q.state = .void → ends .into .void q id [] ∧ ends .outOf .void q id [])
          ∧ (q.state = .seated →
            ends .into .passback counted id flagged
            ∧ ∃ t ns, exec (.gateScan f n gate (some .outOf)) s = .next t
              ∧ s.PassLeaves t p q (some { q with state := .out, station := none, lastGate := some gate })
              ∧ s.StationUnbound t q ∧ t.linkOut = s.linkOut ∧ (∀ m ∈ ns, noticeClass m = .airtime)
              ∧ (u.reply 0x13 f.tag .ok (.scan p q.tier .out q.reentries q.suspect)).InBowl t ns)

/-- R125, R126, R127, R128, R129, R130, R131, R132. A BIND-REQ of a member, in R125's order: BUSY, UNKNOWN, VOID, NOT_INSIDE, BOUND and a
repeat's OK change nothing. A bind makes an ADMITTED pass SEATED and raises its zone's seated count; a transfer moves the pass from a
LAPSED holder, whose channel set is kept to the public set, and moves no count. Either makes the station SEATED with its reservation set
toward the tier value. A conflict is counted up to 3, where it sets the suspect flag. -/
def Obligations.BindIsDecidedInOrder : Prop :=
  ∀ (s : State) (h : HeadId) (n : PassNumber) (i : Nat) (st : Station), s.Sound → s.Hears h → s.Member h st.addr i st →
    let said := fun (c : Code) (d : Option BindDetail) => s.linkOut ++ [(h, LinkFrame.bindAnswer st.addr n c d)]
    let only := fun (c : Code) (d : Option BindDetail) => exec (.bindReq h st.addr n) s = .next { s with linkOut := said c d }
    (st.state = .moving → only .busy none)
      ∧ (st.state ≠ .moving → s.lookupPass n = none → only .unknown none)
      ∧ ∀ p q, st.state ≠ .moving → s.lookupPass n = some p → s.pass p = some q →
        let allowed := s.roam.pub ||| match q.cached with
          | none => 0
          | some z => s.zoneChans z &&& s.tiers[q.tier].chans
        let success := if ∃ z, q.cached = some z ∧ h ∉ s.zoneHeads z then Code.okOffzone else .ok
        let bound := fun (t : State) (rest : Nat → Option Station) =>
          (∃ y, s.SetToward st s.tiers[q.tier].reservation y
            ∧ t.station i = some { y with state := .seated, pass := some p }
            ∧ (y.res = st.res → t.heads = s.heads))
          ∧ (∀ j, j ≠ i → t.station j = rest j) ∧ (∀ k, k ≠ p → t.pass k = s.pass k)
          ∧ t.pass p = some { q with state := .seated, station := some i }
          ∧ t.holds = s.holds ∧ s.HeadsKept t [h] ∧ (∀ a, (t.head h).account = some a → t.AccountTrue h a)
          ∧ t.linkOut = said success (some ⟨p, q.tier, allowed⟩)
          ∧ ∃ ns, (∀ m ∈ ns, noticeClass m = .airtime) ∧ s.InBowl t ns
        (q.state = .void → only .void none)
          ∧ ((q.state = .issued ∨ q.state = .out) → only .notInside none)
          ∧ ((q.state = .admitted ∨ q.state = .seated) → (∃ r, st.pass = some r ∧ r ≠ p) → only .bound none)
          ∧ (q.state = .seated → q.station = some i → only .ok (some ⟨p, q.tier, allowed⟩))
          ∧ (q.state = .admitted → st.pass = none → ∃ t, exec (.bindReq h st.addr n) s = .next t
            ∧ bound t s.station ∧ s.CountsMoved t q.cached id (· + 1))
          ∧ ∀ holder y, q.state = .seated → st.pass = none → q.station = some holder → s.station holder = some y →
            (y.state = .lapsed → ∃ t, exec (.bindReq h st.addr n) s = .next t
              ∧ bound t (fun j => if j = holder then some { y with pass := none, chans := y.chans &&& s.roam.pub } else s.station j)
              ∧ t.zones = s.zones)
            ∧ (y.state ≠ .lapsed →
              (q.conflicts = 3 → only .duplicate none)
              ∧ (q.conflicts < 3 → ∃ t, exec (.bindReq h st.addr n) s = .next t
                ∧ t.pass p = some { q with
                    conflicts := q.conflicts + 1, suspect := q.suspect || decide (q.conflicts + 1 = 3) }
                ∧ (∀ k, k ≠ p → t.pass k = s.pass k) ∧ t.stationView = s.stationView ∧ t.zones = s.zones
                ∧ t.heads = s.heads ∧ t.linkOut = said .duplicate none
                ∧ s.InBowl t (if q.suspect = false ∧ q.conflicts + 1 = 3 then [.suspect p q.number .conflict] else [])))

/-! ## Zones and census -/

/-- R111, with R112. The zone of a seat is the lowest-numbered valid zone whose range holds it and neither of whose holes does; none
if there is none. It depends on the zone records alone. A pass's cached zone is the zone of its seat; without a seat, the zone declared
if that is valid. -/
def Obligations.SeatLookupFindsTheLowestZone : Prop :=
  ∀ s : State,
    let has := fun (seat : Nat) (z : ZoneId) => ∃ r, (s.zone z).fields = some r ∧ r.first ≤ seat ∧ seat ≤ r.last
      ∧ ∀ a b, (r.hole1 = some (a, b) ∨ r.hole2 = some (a, b)) → ¬ (a ≤ seat ∧ seat ≤ b)
    (∀ seat z, s.seatZone seat = some z ↔ has seat z ∧ ∀ y, y < z → ¬ has seat y)
      ∧ (∀ seat, s.seatZone seat = none ↔ ∀ z, ¬ has seat z)
      ∧ (∀ t : State, (∀ z, (t.zone z).fields = (s.zone z).fields) → ∀ seat, t.seatZone seat = s.seatZone seat)
      ∧ (∀ (n : BitVec 16) (d : Option ZoneId), s.cachedZone (some n) d = s.seatZone n.toNat)
      ∧ (∀ z : ZoneId, s.cachedZone none (some z) = if (s.zone z).fields.isSome then some z else none)
      ∧ s.cachedZone none none = none

/-- R107, R108, R109, R113, R121. ZONE-SET: RANGE for the zone number, BUSY while a re-zone pass runs, RANGE for a record that breaks a
constraint of R107. Accepted, it writes the record, or clears the zone, marks the zone's latch stale and starts a re-zone pass, and
changes nothing else. -/
def Obligations.ZoneSetWritesAndStartsThePass : Prop :=
  ∀ (s u : State) (f : Req), s.Takes 0x14 f u →
    let answer := fun (zone : Nat) (spec : Option ZoneSpec) (v : State) (c : Code) =>
      exec (.zoneSet f zone spec) s = .next (v.reply 0x14 f.tag c .none)
    let written := fun (z : ZoneId) (fields : Option ZoneRecord) => { u with
      zones := u.zones.set z { u.zone z with
        fields := fields, latch := (u.zone z).latch.map fun l => { l with stale := true } }
      rezone := ⟨true, 0, some z, 0, 0⟩ }
    (∀ zone spec, 32 ≤ zone → answer zone spec u .range)
      ∧ (∀ (z : ZoneId) spec, u.rezone.running = true → answer z spec u .busy)
      ∧ (∀ z : ZoneId, u.rezone.running = false → answer z none (written z none) .ok)
      ∧ ∀ (z : ZoneId) (d : ZoneSpec), u.rezone.running = false →
        let first := d.first.toNat
        let last := d.last.toNat
        let pair := fun p : BitVec 16 × BitVec 16 => (p.1.toNat, p.2.toNat)
        let breaks := last < first
          ∨ (∃ p, (d.hole1 = some p ∨ d.hole2 = some p) ∧ (p.2.toNat < p.1.toNat ∨ p.1.toNat < first ∨ last < p.2.toNat))
          ∨ (∃ p q n, d.hole1 = some p ∧ d.hole2 = some q ∧ p.1.toNat ≤ n ∧ n ≤ p.2.toNat ∧ q.1.toNat ≤ n ∧ n ≤ q.2.toNat)
          ∨ d.heads.length = 0 ∨ 8 < d.heads.length ∨ (∃ n ∈ d.heads, 96 ≤ n) ∨ ¬ d.heads.Nodup
        (breaks → answer z (some d) u .range)
          ∧ (¬ breaks → ∃ hs : List HeadId, hs.map Fin.val = d.heads
            ∧ answer z (some d) (written z (some ⟨first, last, d.hole1.map pair, d.hole2.map pair, hs, d.chans⟩)) .ok)


/-- R120, R122. CENSUS-LATCH takes a snapshot of each zone of its set whose latch is free, stale if a re-zone pass runs, and touches no
other; the reply carries the zones newly latched and those already held. CENSUS-READ draws RANGE outside 0–31, with the code alone (log 41); of a held latch it
reports the snapshot and releases it; else it reports the live counts and changes nothing. -/
def Obligations.CensusIsLatchedAndRead : Prop :=
  (∀ (s u : State) (f : Req) (zones : ZoneSet), s.Takes 0x16 f u →
    ∃ (t : State) (newly already : ZoneSet),
      exec (.censusLatch f zones) s = .next (t.reply 0x16 f.tag .ok (.latched newly already))
        ∧ t = { u with zones := t.zones }
        ∧ ∀ z : ZoneId,
          newly.getLsbD z = (zones.getLsbD z && (u.zone z).latch.isNone)
          ∧ already.getLsbD z = (zones.getLsbD z && (u.zone z).latch.isSome)
          ∧ t.zone z = if zones.getLsbD z = true ∧ (u.zone z).latch = none then
              { u.zone z with latch := some ⟨(u.zone z).admitted, (u.zone z).seated, u.rezone.running⟩ }
            else u.zone z)
    ∧ ∀ (s u : State) (f : Req), s.Takes 0x17 f u →
        (∀ zone, 32 ≤ zone → exec (.censusRead f zone) s = .next (u.reply 0x17 f.tag .range .none))
        ∧ ∀ z : ZoneId,
          (∀ l, (u.zone z).latch = some l → exec (.censusRead f z) s =
            .next ({ u with zones := u.zones.set z { u.zone z with latch := none } }.reply 0x17 f.tag .ok
              (.census l.admitted l.seated l.stale true u.rezone.running)))
          ∧ ((u.zone z).latch = none → exec (.censusRead f z) s =
            .next (u.reply 0x17 f.tag .ok
              (.census (u.zone z).admitted (u.zone z).seated false false u.rezone.running)))

/-- R38, R113, R114, R115, R121. A visit of the re-zone pass to the record at the cursor: a held pass's cached zone is worked out afresh;
if it has changed, the tally rises, and the counts of a pass inside the bowl move and mark the latches of both zones stale. A SEATED
pass's station is kept to its permitted channels, with a recompute and the other tally when one is removed. The cursor rises; at 8,192
the pass completes with its notice. With no pass running there is no visit (log 24). -/
def Obligations.RezoneVisitBringsARecordUpToDate : Prop :=
  (∀ s : State, s.held = [] → s.rezone.running = false → exec .rezoneVisit s = .next s)
    ∧ ∀ (s : State) (subject : ZoneId), s.Sound → s.rezone.running = true → s.rezone.cursor < 8192 →
        s.rezone.subject = some subject →
        ∃ t ns, exec .rezoneVisit s = .next t
          ∧ t.rezone = { s.rezone with
              cursor := s.rezone.cursor + 1, running := decide (s.rezone.cursor + 1 < 8192)
              changed := t.rezone.changed, trimmed := t.rezone.trimmed }
          ∧ s.InBowl { t with rezone := s.rezone }
              (ns ++ if s.rezone.cursor + 1 < 8192 then []
                else [.rezoneDone subject t.rezone.changed t.rezone.trimmed])
          ∧ (∀ n ∈ ns, noticeClass n = .airtime) ∧ t.linkOut = s.linkOut
          ∧ (s.pass s.rezone.cursor = none →
            t.passes = s.passes ∧ t.zones = s.zones ∧ t.stationView = s.stationView ∧ t.heads = s.heads ∧ ns = []
              ∧ t.rezone.changed = s.rezone.changed ∧ t.rezone.trimmed = s.rezone.trimmed)
          ∧ ∀ q, s.pass s.rezone.cursor = some q →
            let z := s.cachedZone q.seat q.declared
            let differs := decide (q.cached ≠ z)
            let weight := fun (yes : Bool) (k : ZoneId) (w : Option ZoneId) => if yes = true ∧ w = some k then 1 else 0
            t.pass s.rezone.cursor = some { q with cached := z }
            ∧ (∀ p, p ≠ s.rezone.cursor → t.pass p = s.pass p)
            ∧ t.rezone.changed = s.rezone.changed + (if differs then 1 else 0)
            ∧ (∀ k, t.zone k = { s.zone k with
                admitted := (s.zone k).admitted - weight (passInside q.state) k q.cached + weight (passInside q.state) k z
                seated := (s.zone k).seated - weight (passSeated q.state) k q.cached + weight (passSeated q.state) k z
                latch := if differs && passInside q.state && (decide (q.cached = some k) || decide (z = some k)) then
                    (s.zone k).latch.map fun l => { l with stale := true }
                  else (s.zone k).latch })
            ∧ (q.station = none → t.stationView = s.stationView ∧ t.heads = s.heads ∧ t.rezone.trimmed = s.rezone.trimmed)
            ∧ ∀ i st, q.station = some i → s.station i = some st →
              let allowed := s.roam.pub ||| match z with
                | none => 0
                | some k => s.zoneChans k &&& s.tiers[q.tier].chans
              s.StationBecomes t i st { st with chans := st.chans &&& allowed }
              ∧ t.rezone.trimmed = s.rezone.trimmed + (if st.chans &&& ~~~ allowed = 0 then 0 else 1)
              ∧ (st.chans &&& ~~~ allowed = 0 → t.heads = s.heads)

/-! ## Ingest and clips -/

/-- R136, R137, R138, R139, R195, log 9. A frame passes the checks exactly when its bytes say so: one start pattern bit wrong at most, and
none when strict, one wrong bit being tolerated; its header check right, over bytes 0–10 as received (log 9); its fields in range and not
contradicting one another; its payload complete, its check right. A frame in CONFIG or at a port not in use is an idle discard, one that
fails a check a check failure, and nothing else changes; a good frame raises the good count, the tolerated count for a wrong bit (log 10),
and the ignored count for a marker its port may not send; a marker-only frame with no other marker does no more. -/
def Obligations.SegmentFramesAreChecked : Prop :=
  (∀ (strict tolerated : Bool) (bytes : List Byte) (f : SegmentFrame), checkFrame strict bytes = some (f, tolerated) ↔
    let byte := fun i => bytes.getD i (0 : Byte)
    let field := fun i => (word16 (byte i) (byte (i + 1))).toNat
    let wrong := popCount (word16 (byte 0) (byte 1) ^^^ 0xC3A6)
    12 ≤ bytes.length ∧ wrong ≤ 1 ∧ (tolerated = true ↔ wrong = 1) ∧ (strict = true → tolerated = false)
      ∧ f.key.program.val = (byte 2).toNat / 16 ∧ f.isOpen = (byte 2).getLsbD 3 ∧ f.isClose = (byte 2).getLsbD 2
      ∧ f.handoff = (byte 2).getLsbD 1 ∧ f.key.clip = word16 (byte 3) (byte 4) ∧ f.index = field 5 ∧ f.last = field 7
      ∧ f.payload.length = field 9 ∧ byte 11 = crc8 (bytes.take 11)
      ∧ bytes.drop 12 = (if f.payload = [] then [] else f.payload ++ bytes32 (crc32 f.payload))
      ∧ f.index ≤ 4095 ∧ (f.isClose = true → f.last ≤ 4095) ∧ f.payload.length ≤ 2048 ∧ (f.isOpen = true → f.index = 0)
      ∧ (f.isClose = true → f.payload ≠ [] → f.index ≤ f.last) ∧ (f.payload = [] → f.isOpen = true ∨ f.isClose = true))
    ∧ ∀ (s : State) (p : Port) (bytes : List Byte), s.held = [] →
        let inUse := s.part = .run ∧ (s.mode = .single → p = .a)
        let counted := fun g : PortCounts → PortCounts => exec (.segmentFrame p bytes) s =
          .next (s.updateIngest p fun x => { x with counts := g x.counts })
        (¬ inUse → counted fun c => { c with idle := min 65535 (c.idle + 1) })
          ∧ (inUse → checkFrame s.strict bytes = none → counted fun c => { c with failures := min 65535 (c.failures + 1) })
          ∧ ∀ f v, s.TakesFrame p bytes f v →
            (f.payload = [] → f.isOpen = false → f.isClose = false → f.handoff = false →
              exec (.segmentFrame p bytes) s = .next v)
            ∧ ∃ t, exec (.segmentFrame p bytes) s = .next t ∧ ∀ q,
                (t.ingest q).counts.good = (v.ingest q).counts.good
                ∧ (t.ingest q).counts.tolerated = (v.ingest q).counts.tolerated
                ∧ (t.ingest q).counts.failures = (v.ingest q).counts.failures
                ∧ (t.ingest q).counts.idle = (v.ingest q).counts.idle
                ∧ (t.ingest q).counts.ignored = (v.ingest q).counts.ignored

/-- R141, R143, R145, R146, R147, R148, R150, R177, R178, R181. An OPEN of a clip held: unplaced for a READY or DAMAGED one; for a FILLING one
of the other port foreign (log 44); a marker-only repeat of its own port's changes nothing. Of a key with no record: a record is had, the
lowest vacant one as the records stand or after the oldest candidate is evicted; the clip is made there, youngest; the frame's CLOSE and
segment are handled as a clip that takes them handles them; then the opening is cued on every channel of its program's set, in ascending
channel number (log 45). With no record to be had the OPEN is refused, the mark set and the key's held entries released. -/
def Obligations.OpenCreatesAClip : Prop :=
  ∀ (s v : State) (p : Port) (bytes : List Byte) (f : SegmentFrame), s.Sound → s.TakesFrame p bytes f v → f.isOpen = true →
    let run := exec (.segmentFrame p bytes) s
    let row := s.programs[f.key.program]
    let bare := f.payload = [] ∧ f.isClose = false ∧ row.auto = 0
    let made : Clip := ⟨f.key, p, .filling, [], none, false, false, 0⟩
    let marks := if s.marks[f.key.program] = some f.key.clip then s.marks.set f.key.program none else s.marks
    (∀ i k, s.clip i = some k → k.key = f.key →
      (k.state ≠ .filling → run = .next (v.unplacedAt p)) ∧ (k.state = .filling → k.owner ≠ p → run = .next (v.foreignAt p))
        ∧ (k.state = .filling → k.owner = p → f.payload = [] → f.isClose = false → run = .next v))
      ∧ ((∀ i k, s.clip i = some k → k.key ≠ f.key) →
        (¬ (NoneVacant s.clips 64 ∧ ∀ j y, ¬ s.Candidate false j y) →
          ∃ (w u r t : State) (i : Nat), run = .next t ∧ v.RecordHad w i
            ∧ u = { w with clips := u.clips, ages := w.ages ++ [i], marks := marks }
            ∧ u.clip i = some made ∧ (∀ j, j ≠ i → u.clip j = w.clip j)
            ∧ u.Handled r p f i made ∧ r.Cued t i row
            ∧ (bare → t = u))
        ∧ (NoneVacant s.clips 64 → (∀ i k, ¬ s.Candidate false i k) → ∃ t, run = .next t ∧ t.clips = s.clips ∧ t.ages = s.ages
          ∧ t.marks = s.marks.set f.key.program (some f.key.clip) ∧ t.playView = s.playView
          ∧ t.dram = s.dram ∧ t.heads = s.heads ∧ t.linkOut = s.linkOut
          ∧ (v.unplacedAt p).HeldLeave t f.key (fun _ => true) []
          ∧ (v.unplacedAt p).CountsReleased t f.key (fun _ => true)
          ∧ v.InReplay t [.clip (.key f.key) .refused]))

/-- R142, R144, R145, R147, R148, R149, R150, R151, R152, R153, R154, R155. A payload frame that opens no clip. With an index its port does
not carry in INTERLEAVE it is foreign. Of a key with no record it is unplaced, but from B in INTERLEAVE and SPLIT it is held, unless the
program's refused-key mark names the key; for want of a place or a slot the key's entries are released with a DISCARDED notice. Of a clip
not FILLING it is unplaced, of one that does not take it foreign. Else its CLOSE is acted on (logs 12, 35), and the segment is placed by
its index: a duplicate, unplaced, held, damaging the clip, or appended with the queues drained, in the lowest free slot, for which the
oldest candidate is evicted when none is free. The payload stands in the slot's bytes and no other byte changes. -/
def Obligations.SegmentIsPlacedByItsIndex : Prop :=
  ∀ (s v : State) (p : Port) (bytes : List Byte) (f : SegmentFrame), s.Sound → s.TakesFrame p bytes f v → f.payload ≠ [] →
    (f.isOpen = true → ∃ i k, s.clip i = some k ∧ k.key = f.key ∧ k.state = .filling ∧ k.owner = p) →
    let run := exec (.segmentFrame p bytes) s
    let waits := p = .b ∧ (s.mode = .interleave ∨ s.mode = .split) ∧ s.marks[f.key.program] ≠ some f.key.clip
    (s.mode = .interleave → ¬ (f.index % 2 = 0 ↔ p = .a) → run = .next (v.foreignAt p))
      ∧ ((s.mode = .interleave → (f.index % 2 = 0 ↔ p = .a)) →
        ((∀ i k, s.clip i = some k → k.key ≠ f.key) →
          let released := fun cause => ∃ t, run = .next t ∧ (v.unplacedAt p).KeyReleased t f.key (.discarded cause)
          (¬ waits → run = .next (v.unplacedAt p))
          ∧ (waits → (s.ingest p).queue.length = 256 → released .holdFull)
          ∧ (waits → (s.ingest p).queue.length < 256 → s.NoSlot → released .noSlot)
          ∧ (waits → (s.ingest p).queue.length < 256 → ¬ s.NoSlot →
            ∃ w t slot, run = .next t ∧ v.SlotHad w slot ∧ w.HeldIn t p f slot))
        ∧ ∀ i k, s.clip i = some k → k.key = f.key →
          (k.state ≠ .filling → run = .next (v.unplacedAt p))
          ∧ (k.state = .filling → (s.mode = .dual ∧ p ≠ k.owner ∨ s.mode = .split ∧ p = .a ∧ k.handoff = true) →
            run = .next (v.foreignAt p))
          ∧ (k.state = .filling → (s.mode = .dual → p = k.owner) → (s.mode = .split → p = .a → k.handoff = false) →
            ∃ t, run = .next t ∧ v.Handled t p f i k))

/-- R142, R148, R150, R155. A marker-only CLOSE that opens no clip: unplaced for a key with no record or a clip not FILLING, foreign for a
clip of the other port in DUAL (log 44); else it sets the last index, releases the held entries above it and makes the READY test; one
that says again what stands changes nothing, and one that contradicts makes the clip DAMAGED, no segment being counted as unplaced (log
12). The expiry of a key's hold timer makes its FILLING clip DAMAGED, or releases the entries of an unopened key with a notice; a stopped
timer does not expire (log 2). -/
def Obligations.CloseAndHoldTimerSettleAClip : Prop :=
  (∀ (s v : State) (p : Port) (bytes : List Byte) (f : SegmentFrame), s.Sound → s.TakesFrame p bytes f v →
    (f.isOpen = true → ∃ i k, s.clip i = some k ∧ k.key = f.key ∧ k.state = .filling ∧ k.owner = p) →
    f.isClose = true → f.payload = [] →
    let run := exec (.segmentFrame p bytes) s
    ((∀ i k, s.clip i = some k → k.key ≠ f.key) → run = .next (v.unplacedAt p))
      ∧ ∀ i k, s.clip i = some k → k.key = f.key →
        let next := k.segments.length
        let conflict := ∃ t, run = .next t ∧ v.ClipDamaged t i k .closeConflict
        (k.state ≠ .filling → run = .next (v.unplacedAt p))
          ∧ (k.state = .filling → s.mode = .dual → p ≠ k.owner → run = .next (v.foreignAt p))
          ∧ (k.state = .filling → (s.mode = .dual → p = k.owner) →
            (k.last = some f.last → run = .next v)
            ∧ (∀ n, k.last = some n → n ≠ f.last → conflict)
            ∧ (k.last = none → f.last + 1 < next → conflict)
            ∧ (k.last = none → next ≤ f.last + 1 → ∃ t, run = .next t
              ∧ t.clip i = some { k with
                  last := some f.last, state := if next = f.last + 1 then .ready else .filling }
              ∧ (∀ j, j ≠ i → t.clip j = s.clip j)
              ∧ v.HeldLeave t f.key (fun n => decide (f.last < n)) []
              ∧ v.CountsReleased t f.key (fun n => decide (f.last < n))
              ∧ t.ages = s.ages ∧ t.marks = s.marks ∧ t.dram = s.dram ∧ t.playView = s.playView ∧ t.heads = s.heads
              ∧ t.linkOut = s.linkOut
              ∧ v.InReplay t (if next = f.last + 1 then [.clip (.index i) (.ready next)] else []))))
    ∧ (∀ (s : State) (key : Key), s.held = [] → (∀ due, (key, due) ∉ s.holdTimers) → exec (.holdTimerExpiry key) s = .next s)
    ∧ ∀ (s : State) (key : Key) (due : Nat), s.Sound → (key, due) ∈ s.holdTimers →
        let v := { s with now := max s.now due }
        (∀ i k, s.clip i = some k → k.key = key →
          ∃ t, exec (.holdTimerExpiry key) s = .next t ∧ v.ClipDamaged t i k .holdTimeout)
        ∧ ((∀ i k, s.clip i = some k → k.key ≠ key) → ∃ t, exec (.holdTimerExpiry key) s = .next t
          ∧ t.clips = s.clips ∧ t.ages = s.ages ∧ t.marks = s.marks ∧ t.dram = s.dram ∧ t.playView = s.playView
          ∧ t.heads = s.heads ∧ t.linkOut = s.linkOut
          ∧ v.HeldLeave t key (fun _ => true) [] ∧ v.CountsReleased t key (fun _ => true)
          ∧ v.InReplay t [.clip (.key key) (.discarded .holdTimeout)])

/-- R138, R140, R156, R157. CLIP-PIN sets or clears the pin and answers the clip's state. CLIP-RETIRE draws BUSY for a clip in use; else it
vacates the record, frees its slots and those of its held entries and answers how many (log 13). INGEST-MODE draws RANGE, then BUSY while a
clip is FILLING or an entry is held, in that order (log 46); else mode and strict flag are replaced and the marks cleared, with the mode in force too (log 42); every reply
carries the ingest state as it then stands. -/
def Obligations.ClipRequestsActOnTheStore : Prop :=
  (∀ (s u : State) (f : Req) (i : Nat) (pin : Bool), s.Takes 0x20 f u →
    (64 ≤ i → exec (.clipPin f i pin) s = .next (u.reply 0x20 f.tag .range .none))
    ∧ (i < 64 → s.clip i = none → exec (.clipPin f i pin) s = .next (u.reply 0x20 f.tag .unknown .none))
    ∧ ∀ k, i < 64 → s.clip i = some k →
      ∃ clips, exec (.clipPin f i pin) s = .next ({ u with clips := clips }.reply 0x20 f.tag .ok (.clipState k.state))
        ∧ Table.get clips i = some { k with pinned := pin } ∧ ∀ j, j ≠ i → Table.get clips j = s.clip j)
    ∧ (∀ (s u : State) (f : Req) (i : Nat), s.Sound → s.Takes 0x21 f u →
      (64 ≤ i → exec (.clipRetire f i) s = .next (u.reply 0x21 f.tag .range .none))
      ∧ (i < 64 → s.clip i = none → exec (.clipRetire f i) s = .next (u.reply 0x21 f.tag .unknown .none))
      ∧ ∀ k, i < 64 → s.clip i = some k →
        (0 < k.useCount → exec (.clipRetire f i) s = .next (u.reply 0x21 f.tag .busy .none))
        ∧ (k.useCount = 0 →
          let mine := fun x : HeldSegment => x.key == k.key
          ∃ t, exec (.clipRetire f i) s = .next (t.reply 0x21 f.tag .ok (.retired (k.segments.length
              + (s.portA.queue.filter mine).length + (s.portB.queue.filter mine).length)))
            ∧ t = { u with
                clips := t.clips, ages := s.ages.filter (· != i), slots := t.slots, portA := t.portA, portB := t.portB
                holdTimers := s.holdTimers.filter fun x => x.1 != k.key }
            ∧ t.clip i = none ∧ (∀ j, j ≠ i → t.clip j = s.clip j)
            ∧ (∀ q, (t.ingest q).queue = (s.ingest q).queue.filter fun x => !mine x)
            ∧ (k.state = .filling → s.CountsReleased t k.key (fun _ => true))
            ∧ (k.state ≠ .filling → t.portA = s.portA ∧ t.portB = s.portB)
            ∧ ∀ n, Table.get t.slots n =
                if n ∈ k.segments ∨ n ∈ ((s.portA.queue ++ s.portB.queue).filter mine).map HeldSegment.slot then none
                else Table.get s.slots n))
    ∧ ∀ (s u : State) (f : Req) (strict : Bool), s.Takes 0x18 f u →
        let told := fun v : State => Content.ingest ⟨v.mode, v.strict, v.portA.counts, v.portB.counts, v.portA.queue.length,
          v.portB.queue.length, v.marks.toList⟩
        let busy := (∃ i k, s.clip i = some k ∧ k.state = .filling) ∨ s.portA.queue ≠ [] ∨ s.portB.queue ≠ []
        exec (.ingestMode f none strict) s = .next (u.reply 0x18 f.tag .range (told u))
        ∧ ∀ m, (s.StoreInv → busy → exec (.ingestMode f (some m) strict) s = .next (u.reply 0x18 f.tag .busy (told u)))
          ∧ (s.StoreInv → ¬ busy →
            let v := { u with mode := m, strict := strict, marks := Vector.replicate 16 none }
            exec (.ingestMode f (some m) strict) s = .next (v.reply 0x18 f.tag .ok (told v)))

/-! ## Playout and cues -/

/-- R160, R162, R163, R164, R165, R167, R168, R169, R179, R180. A channel's pace expiry falls at floor(n × 100,000 / pace) µs from its start.
With a read outstanding it is late. Else the current entry is served at its cursor: a read is requested, and granted when the port is
free, or FILLER goes to every carrying head, in ascending head number (log 15), and an underrun is counted. At its end it loops to its base and is served there; without a
loop, or with nothing at the base, it is ended: end flag, removal, use count, the choice of what comes next, END notice. A stopped timer
does not expire (log 2). -/
def Obligations.PaceExpiryServesTheCurrentEntry : Prop :=
  (∀ (s : State) (c : Chan), s.held = [] → (s.channel c).timer = none → exec (.paceTimerExpiry c) s = .next s)
    ∧ ∀ (s : State) (c : Chan) (tm : PaceTimer), s.held = [] → (s.channel c).timer = some tm →
        let x := { s.channel c with timer := some ⟨tm.started, tm.next + 1⟩ }
        let now := max s.now (tm.started + tm.next * 100000 / x.pace)
        let upd := fun y : Channel => { s with now := now, channels := s.channels.set c y }
        let run := exec (.paceTimerExpiry c) s
        (∀ r, x.read = some r → run = .next (upd { x with late := min 65535 (x.late + 1) }))
          ∧ ∀ l e k, s.Sound → x.read = none → x.currentLevel = some l → x.entry l = some e → s.clip e.clip = some k →
            let stored := k.segments.length
            let past := fun n => stored ≤ n ∧ (k.state ≠ .filling ∨ ∃ m, k.last = some m ∧ m < n)
            let atEnd := (∃ n, e.count = some n ∧ e.base + n ≤ e.cursor) ∨ past e.cursor
            let loops := e.loop = true ∧ ¬ past e.base
            let servedAt := fun n =>
              let y := { x with inService := x.inService.set l (some { e with cursor := n }) }
              (n < stored → ∃ t, run = .next t ∧ t.channel c = { y with read := some ⟨e.clip, n, l, true⟩ }
                  ∧ (∀ d, d ≠ c → t.channel d = s.channel d) ∧ s.UseMoved t [e.clip] [] ∧ s.StoreKept t
                  ∧ t.heads = s.heads ∧ t.linkOut = s.linkOut ∧ (upd x).InReplay t []
                  ∧ (s.port = .free → t.port = .busy c ∧ t.pointer = c)
                  ∧ (s.port ≠ .free → t.port = s.port ∧ t.pointer = s.pointer))
                ∧ (stored ≤ n → run = .next { upd { y with underruns := min 65535 (x.underruns + 1) } with
                    linkOut := s.linkOut ++ s.sentTo c fun rate => .filler c n rate })
            (¬ atEnd → servedAt e.cursor)
              ∧ (atEnd → loops → servedAt e.base)
              ∧ (atEnd → ¬ loops → ∃ t ns, run = .next t
                ∧ { x with endFlags := x.endFlags ||| (1#5 <<< l.val), inService := x.inService.set l none }.Chosen
                    (t.channel c)
                ∧ (∀ d, d ≠ c → t.channel d = s.channel d) ∧ s.UseMoved t [] [e.clip] ∧ s.StoreKept t
                ∧ t.port = s.port ∧ t.pointer = s.pointer ∧ s.HeadsFollow t ∧ t.linkOut = s.linkOut
                ∧ (∀ m ∈ ns, noticeClass m = .airtime)
                ∧ (upd x).InReplay t (ns ++ [.ended c l e.clip (decide (∃ j, ((t.channel c).entry j).isSome))]))

/-- R143, R165, R166, R167, R172. At the completion of the read on the port the clip's use count falls. A segment whose entry was the
channel's current one throughout is sent, with its stored bytes, to every head that carries the channel, in ascending head number (log 15), and the cursor rises; else it is
discarded. The arbiter then grants a waiting read: the lowest channel in FIXED, the first above the pointer in ROTATING, where the pointer
goes. A read withdrawn by a RESTART only frees the port (log 8); with none on the port nothing happens (log 24). -/
def Obligations.ReadCompletionDeliversAndGrants : Prop :=
  let granted := fun (s t : State) (waits : Chan → Prop) =>
    let before := fun d e : Chan => if s.arbMode = .fixed then d ≤ e else d - (s.pointer + 1) ≤ e - (s.pointer + 1)
    ((∀ d, ¬ waits d) → t.port = .free ∧ t.pointer = s.pointer)
      ∧ ∀ d, waits d → (∀ e, waits e → before d e) → t.port = .busy d ∧ t.pointer = d
  (∀ s : State, s.held = [] → s.port = .free → exec .readCompletion s = .next s)
    ∧ (∀ s : State, s.held = [] → s.port = .withdrawn → ∃ t, exec .readCompletion s = .next t
      ∧ t = { s with port := t.port, pointer := t.pointer } ∧ granted s t fun d => (s.channel d).read.isSome)
    ∧ ∀ (s : State) (c : Chan) (r : Read) (k : Clip), s.Sound → s.port = .busy c → (s.channel c).read = some r →
        s.clip r.clip = some k →
        let x := s.channel c
        let slot := k.segments.getD r.index 0
        let length := (Table.get s.slots slot).getD 0
        let payload := (List.range length).map fun n => Memory.read s.dram (slotAddress slot + n)
        ∃ t, exec .readCompletion s = .next t
          ∧ (r.valid = true → ∀ e, x.entry r.level = some e →
            t.channel c = { x with
                read := none, inService := x.inService.set r.level (some { e with cursor := e.cursor + 1 }) }
              ∧ t.linkOut = s.linkOut ++ s.sentTo c fun rate => .segment c k.key r.index rate length payload)
          ∧ (r.valid = false → t.channel c = { x with read := none } ∧ t.linkOut = s.linkOut)
          ∧ (∀ d, d ≠ c → t.channel d = s.channel d) ∧ s.UseMoved t [] [r.clip] ∧ s.StoreKept t ∧ t.heads = s.heads
          ∧ s.InReplay t [] ∧ granted s t fun d => d ≠ c ∧ (s.channel d).read.isSome

/-- R161, R171, R174, R175, R177, R178. CHANNEL-SETUP and PROGRAM-SET with their checks in order; CHANNEL-STATUS reports the record and clears
the end flags it has reported. CHANNEL-ENABLE keeps the enables of the AND mask and adds those of the OR mask; on each channel newly
enabled the highest pending entry that may start does, with its PREEMPT notice where it suspends another. -/
def Obligations.ChannelRequestsDoTheirWork : Prop :=
  (∀ (s u : State) (f : Req) (pace rated : Nat) (mode : Option ArbMode), s.Takes 0x1A f u →
    let answer := fun (n : Nat) (c : Code) => exec (.channelSetup f n pace rated mode) s = .next (u.reply 0x1A f.tag c .none)
    (∀ n, 8 ≤ n → answer n .range)
      ∧ ∀ c : Chan,
        let x := u.channel c
        let busy := x.enabled = true ∨ ∃ j, (x.entry j).isSome
        let bad := mode = none ∨ pace < 1 ∨ 40 < pace ∨ rated < 256 ∨ 2048 < rated
        (busy → answer c .busy) ∧ (¬ busy → bad → answer c .range)
          ∧ ∀ m, ¬ busy → ¬ bad → mode = some m → exec (.channelSetup f c pace rated mode) s =
            .next ({ u with channels := u.channels.set c { x with pace := pace, rated := rated }, arbMode := m }.reply 0x1A f.tag
              .ok (.channelSetup pace rated m)))
    ∧ (∀ (s u : State) (f : Req) (level : Nat) (auto : ChanSet) (loop : Bool), s.Takes 0x19 f u →
      let answer := fun (n : Nat) (c : Code) => exec (.programSet f n level auto loop) s = .next (u.reply 0x19 f.tag c .none)
      (∀ n, 16 ≤ n → answer n .range)
        ∧ ∀ n : Program,
          let locked := ∃ c, (u.channel c).enabled = true
          (locked → answer n .locked)
            ∧ (¬ locked → (if n = 15 then level ≠ 5 else level < 1 ∨ 4 < level) → answer n .range)
            ∧ ∀ l : Level, ¬ locked → level = l.val + 1 → (n = 15 ↔ l = 4) → exec (.programSet f n level auto loop) s =
              .next ({ u with programs := u.programs.set n ⟨l, auto, loop⟩ }.reply 0x19 f.tag .ok (.program l auto loop)))
    ∧ (∀ (s u : State) (f : Req), s.Takes 0x1E f u →
      (∀ n, 8 ≤ n → exec (.channelStatus f n) s = .next (u.reply 0x1E f.tag .range .none))
        ∧ ∀ c : Chan,
          let x := u.channel c
          exec (.channelStatus f c) s = .next
            ({ u with channels := u.channels.set c { x with endFlags := 0 } }.reply 0x1E f.tag .ok (.channel
              { running := decide (∃ j, (x.entry j).isSome), enabled := x.enabled, pace := x.pace, rated := x.rated
                mode := u.arbMode
                inService := levelsDown.filterMap fun (l : Level) => (x.entry l).map fun (e : InService) =>
                  ⟨l, e.clip, e.base, e.count, e.loop, e.cursor, decide (∀ j, (x.entry j).isSome → j ≤ l)⟩
                pending := levelsDown.filterMap fun (l : Level) => (x.waiting l).map fun (p : Pending) => (l, p.clip, p.origin)
                read := x.read.map fun (r : Read) => (r.clip, r.index, decide (u.port = ReadPort.busy c))
                endFlags := x.endFlags, underruns := x.underruns, late := x.late })))
    ∧ ∀ (s u : State) (f : Req) (andMask orMask : ChanSet), s.Sound → s.Takes 0x1B f u →
        let on := fun c : Chan => (s.channel c).enabled && hasChan andMask c || hasChan orMask c
        let starts := fun (c : Chan) (l : Level) (p : Pending) =>
          on c = true ∧ (s.channel c).enabled = false ∧ { s.channel c with enabled := true }.Next l p
        ∃ (t : State) (ns : List Notice) (now : ChanSet), exec (.channelEnable f andMask orMask) s = .next t
          ∧ (∀ c : Chan, hasChan now c = on c)
          ∧ (u.reply 0x1B f.tag .ok (.enables now ((List.finRange 8).map fun c => (s.channel c).superseded))).InReplay t ns
          ∧ (∀ c : Chan,
            let x := { s.channel c with enabled := on c }
            (∀ l p, starts c l p → t.channel c = x.withStarted l p
                (if ∃ j, (x.entry j).isSome then x.timer else some ⟨s.now, 1⟩))
              ∧ ((∀ l p, ¬ starts c l p) → t.channel c = x)
              ∧ ∀ l p m e, starts c l p → x.currentLevel = some m → x.entry m = some e → .preempt c l p.clip m e.cursor ∈ ns)
          ∧ (∀ n ∈ ns, noticeClass n = .airtime ∨ ∃ c l p m e, starts c l p ∧ (s.channel c).currentLevel = some m
              ∧ (s.channel c).entry m = some e ∧ n = .preempt c l p.clip m e.cursor)
          ∧ ((∀ c l p, ¬ starts c l p) → t.heads = s.heads) ∧ s.HeadsFollow t ∧ t.linkOut = s.linkOut
          ∧ t.replayView = s.replayView ∧ t.port = s.port ∧ t.pointer = s.pointer

/-- R176, R177, R178, R179, R182, R183. PLAY, with its checks in order, makes an entry at the level the rules give, superseding a pending one
there, and starts it when it is above every in-service level: an IDLE channel goes to RUN, a RUN one's current entry is suspended with a
PREEMPT notice, which stands behind the AIRTIME notices of its start (log 49). STOP removes the entries of its levels, and makes the choice once if the current one went. Use counts follow. -/
def Obligations.PlayAndStopChangeTheEntries : Prop :=
  (∀ (s u : State) (f : Req) (chan clip base : Nat) (level count : Option Nat) (loop : Bool), s.Sound → s.Takes 0x1C f u →
    let run := exec (.play f chan clip level base count loop) s
    let answer := fun code : Code => run = .next (u.reply 0x1C f.tag code .none)
    let bad := 8 ≤ chan ∨ 64 ≤ clip ∨ (∃ n, level = some n ∧ (n < 1 ∨ 4 < n)) ∨ 4095 < base
      ∨ ∃ n, count = some n ∧ (n < 1 ∨ 4096 < n)
    (bad → answer .range) ∧ (¬ bad → s.part = .config → answer .state)
      ∧ (¬ bad → s.part = .run → s.clip clip = none → answer .unknown)
      ∧ ∀ k, ¬ bad → s.part = .run → s.clip clip = some k →
        (∀ n, k.last = some n → n < base → answer .range)
        ∧ ((∀ n, k.last = some n → base ≤ n) → ∀ (c : Chan) (l : Level), chan = c.val →
          l.val + 1 = (if k.key.program = 15 then 5 else level.getD (s.programs[k.key.program].level.val + 1)) →
          let x := s.channel c
          let p : Pending := ⟨clip, base, count, loop, .host⟩
          let times := if (x.waiting l).isSome then min 65535 (x.superseded + 1) else x.superseded
          let made := { x with pending := x.pending.set l (some p), superseded := times }
          ∃ (t : State) (ns : List Notice) (starts : Bool), run = .next t ∧ (starts = true ↔ x.MayStart l p)
            ∧ (u.reply 0x1C f.tag .ok (.play l starts (x.waiting l).isSome times)).InReplay t ns
            ∧ (starts = false → t.channel c = made ∧ t.heads = s.heads ∧ ns = [])
            ∧ (starts = true → t.channel c = made.withStarted l p
              (if ∃ j, (x.entry j).isSome then x.timer else some ⟨s.now, 1⟩))
            ∧ (∃ more, (∀ n ∈ more, noticeClass n = .airtime)
              ∧ ((∀ j, x.entry j = none) → ns = more)
              ∧ ∀ m e, starts = true → x.currentLevel = some m → x.entry m = some e →
                ns = more ++ [.preempt c l clip m e.cursor])
            ∧ (∀ d, d ≠ c → t.channel d = s.channel d)
            ∧ s.UseMoved t [clip] ((x.waiting l).toList.map Pending.clip) ∧ s.StoreKept t ∧ s.HeadsFollow t
            ∧ t.linkOut = s.linkOut ∧ t.port = s.port ∧ t.pointer = s.pointer))
    ∧ ∀ (s u : State) (f : Req) (levels : LevelSet), s.Sound → s.Takes 0x1D f u →
        (∀ n, 8 ≤ n → exec (.stop f n levels) s = .next (u.reply 0x1D f.tag .range .none))
        ∧ ∀ c : Chan,
          let x := s.channel c
          let goes := fun l : Level => levels.getLsbD l.val
          let cut := { x with
            inService := Vector.ofFn fun l => if goes l then none else x.entry l
            pending := Vector.ofFn fun l => if goes l then none else x.waiting l }
          let gone := ((List.finRange 5).filter goes).flatMap fun l =>
            (x.entry l).toList.map InService.clip ++ (x.waiting l).toList.map Pending.clip
          let current := ∃ l, x.currentLevel = some l ∧ goes l = true
          ∃ t ns, exec (.stop f c levels) s = .next t
            ∧ (u.reply 0x1D f.tag .ok (.stop gone.length (decide (∃ j, ((t.channel c).entry j).isSome)))).InReplay t ns
            ∧ (current → cut.Chosen (t.channel c)) ∧ (¬ current → t.channel c = cut ∧ t.heads = s.heads ∧ ns = [])
            ∧ (∀ d, d ≠ c → t.channel d = s.channel d) ∧ s.UseMoved t [] gone ∧ s.StoreKept t ∧ s.HeadsFollow t
            ∧ (∀ n ∈ ns, noticeClass n = .airtime)
            ∧ t.linkOut = s.linkOut ∧ t.port = s.port ∧ t.pointer = s.pointer

/-! ## Queries -/

/-- R32, R104, R110, R158. STATION-QUERY, PASS-QUERY, ZONE-QUERY and CLIP-QUERY change nothing. Each answers RANGE, UNKNOWN, vacant, or
every field of the record: of a station, of a pass with its bound station's state, of a zone with its counts, its latch and the re-zone
pass, of a clip with its held entries; a CLIP-QUERY always with the numbers of free slots and vacant records. A time left is
in whole milliseconds, rounded down, and a time elapsed is the clock in whole milliseconds less its start (log 31); a key whose program is
no program has no record (log 43). -/
def Obligations.QueriesReportTheRecord : Prop :=
  (∀ (s u : State) (f : Req), s.Takes 0x0B f u →
      let answer := fun (c : Code) (x : Content) => Host.Outcome.next (φ := Fault) (ρ := Refusal) (u.reply 0x0B f.tag c x)
      let full := fun st : Station => StationReport.mk st.addr st.state st.current st.target st.rate st.rssi st.candidates st.res
        st.capped st.pass st.chans (u.now / 1000 - st.dwell) (st.lapse.map fun due => (due - u.now) / 1000) st.handovers st.refused
      (∀ i, 4096 ≤ i → exec (.stationQuery f (.index i)) s = answer .range .none)
        ∧ (∀ i, i < 4096 → exec (.stationQuery f (.index i)) s = answer .ok (.station i ((u.station i).map full)))
        ∧ (∀ a, u.lookupStation a = none → exec (.stationQuery f (.address a)) s = answer .unknown .none)
        ∧ ∀ a i, u.lookupStation a = some i →
          exec (.stationQuery f (.address a)) s = answer .ok (.station i ((u.station i).map full)))
    ∧ (∀ (s u : State) (f : Req), s.Takes 0x12 f u →
      let answer := fun (c : Code) (x : Content) => Host.Outcome.next (φ := Fault) (ρ := Refusal) (u.reply 0x12 f.tag c x)
      let full := fun q : Pass => PassReport.mk q.number q.tier q.seat q.declared q.cached q.state q.reentries q.passbacks
        q.conflicts q.suspect q.station q.lastGate ((q.station.bind u.station).map Station.state)
      (∀ p, 8192 ≤ p → exec (.passQuery f (.index p)) s = answer .range .none)
        ∧ (∀ p, p < 8192 → exec (.passQuery f (.index p)) s = answer .ok (.pass p ((u.pass p).map full)))
        ∧ (∀ n, u.lookupPass n = none → exec (.passQuery f (.number n)) s = answer .unknown .none)
        ∧ (∀ n p, u.lookupPass n = some p →
          exec (.passQuery f (.number n)) s = answer .ok (.pass p ((u.pass p).map full)))
        ∧ u.lookupPass 0 = none
        ∧ ∀ n p, u.StoreInv → (u.lookupPass n = some p ↔ ∃ q, u.pass p = some q ∧ q.number = n))
    ∧ (∀ (s u : State) (f : Req), s.Takes 0x15 f u →
      (∀ zone, 32 ≤ zone → exec (.zoneQuery f zone) s = .next (u.reply 0x15 f.tag .range .none))
        ∧ ∀ z : ZoneId,
          let x := u.zone z
          exec (.zoneQuery f z) s = .next (u.reply 0x15 f.tag .ok (.zone {
            zone := z, fields := x.fields, admitted := x.admitted, seated := x.seated, latched := x.latch.isSome
            stale := match x.latch with | none => false | some l => l.stale
            running := u.rezone.running, subject := u.rezone.subject, cursor := u.rezone.cursor
            changed := u.rezone.changed, trimmed := u.rezone.trimmed })))
    ∧ (∀ (s u : State) (f : Req), s.Takes 0x1F f u →
      let answer := fun (c : Code) (i : Option Nat) (r : Option ClipReport) => Host.Outcome.next (φ := Fault) (ρ := Refusal)
        (u.reply 0x1F f.tag c (.clip i r (16384 - u.slots.length) (64 - u.clips.length)))
      let held := fun (q : IngestPort) (k : Clip) => (q.queue.filter fun x => x.key == k.key).length
      let full := fun (i : Nat) (k : Clip) => ClipReport.mk k.key k.owner k.state k.segments.length k.last k.handoff k.pinned
        k.useCount (u.ages.idxOf i) (held u.portA k) (held u.portB k)
        ((u.holdTimers.find? fun x => x.1 == k.key).map fun x => (x.2 - u.now) / 1000)
      (∀ i, 64 ≤ i → exec (.clipQuery f (.index i)) s = answer .range none none)
        ∧ (∀ i, i < 64 → exec (.clipQuery f (.index i)) s = answer .ok (some i) ((u.clip i).map (full i)))
        ∧ (∀ (program : Nat) (n : BitVec 16), u.StoreInv → (∀ i k, u.clip i = some k → ¬ (k.key.program.val = program ∧ k.key.clip = n)) →
          exec (.clipQuery f (.key program n)) s = answer .unknown none none)
        ∧ ∀ i k, u.StoreInv → u.clip i = some k →
          exec (.clipQuery f (.key k.key.program k.key.clip)) s = answer .ok (some i) (some (full i k)))
end

