-- ==== Sys2Proof/Laws/State.lean ====
section
/-!
SUPPORT. What each named update of the state leaves unchanged: one lemma per field per update, true by rfl, and one per
group of fields. No later proof unfolds an update.
-/
namespace Sys2Proof.Machine

variable (s : State)


/-! ## setHead -/

section
variable (h : HeadId) (x : Head)

@[simp] theorem State.setHead_pending : (s.setHead h x).pending = s.pending := rfl
@[simp] theorem State.setHead_now : (s.setHead h x).now = s.now := rfl
@[simp] theorem State.setHead_free : (s.setHead h x).free = s.free := rfl
@[simp] theorem State.setHead_held : (s.setHead h x).held = s.held := rfl
@[simp] theorem State.setHead_linkOut : (s.setHead h x).linkOut = s.linkOut := rfl
@[simp] theorem State.setHead_spiOut : (s.setHead h x).spiOut = s.spiOut := rfl
@[simp] theorem State.setHead_part : (s.setHead h x).part = s.part := rfl
@[simp] theorem State.setHead_discards : (s.setHead h x).discards = s.discards := rfl
@[simp] theorem State.setHead_tiers : (s.setHead h x).tiers = s.tiers := rfl
@[simp] theorem State.setHead_unbound : (s.setHead h x).unbound = s.unbound := rfl
@[simp] theorem State.setHead_stations : (s.setHead h x).stations = s.stations := rfl
@[simp] theorem State.setHead_roam : (s.setHead h x).roam = s.roam := rfl
@[simp] theorem State.setHead_holds : (s.setHead h x).holds = s.holds := rfl
@[simp] theorem State.setHead_passes : (s.setHead h x).passes = s.passes := rfl
@[simp] theorem State.setHead_zones : (s.setHead h x).zones = s.zones := rfl
@[simp] theorem State.setHead_rezone : (s.setHead h x).rezone = s.rezone := rfl
@[simp] theorem State.setHead_mode : (s.setHead h x).mode = s.mode := rfl
@[simp] theorem State.setHead_strict : (s.setHead h x).strict = s.strict := rfl
@[simp] theorem State.setHead_portA : (s.setHead h x).portA = s.portA := rfl
@[simp] theorem State.setHead_portB : (s.setHead h x).portB = s.portB := rfl
@[simp] theorem State.setHead_holdTimers : (s.setHead h x).holdTimers = s.holdTimers := rfl
@[simp] theorem State.setHead_marks : (s.setHead h x).marks = s.marks := rfl
@[simp] theorem State.setHead_clips : (s.setHead h x).clips = s.clips := rfl
@[simp] theorem State.setHead_ages : (s.setHead h x).ages = s.ages := rfl
@[simp] theorem State.setHead_slots : (s.setHead h x).slots = s.slots := rfl
@[simp] theorem State.setHead_dram : (s.setHead h x).dram = s.dram := rfl
@[simp] theorem State.setHead_channels : (s.setHead h x).channels = s.channels := rfl
@[simp] theorem State.setHead_arbMode : (s.setHead h x).arbMode = s.arbMode := rfl
@[simp] theorem State.setHead_pointer : (s.setHead h x).pointer = s.pointer := rfl
@[simp] theorem State.setHead_port : (s.setHead h x).port = s.port := rfl
@[simp] theorem State.setHead_programs : (s.setHead h x).programs = s.programs := rfl
@[simp] theorem State.setHead_inbound : (s.setHead h x).inbound = s.inbound := rfl
@[simp] theorem State.setHead_outbound : (s.setHead h x).outbound = s.outbound := rfl
@[simp] theorem State.setHead_enables : (s.setHead h x).enables = s.enables := rfl
@[simp] theorem State.setHead_lost : (s.setHead h x).lost = s.lost := rfl
@[simp] theorem State.setHead_rejected : (s.setHead h x).rejected = s.rejected := rfl
@[simp] theorem State.setHead_transaction : (s.setHead h x).transaction = s.transaction := rfl
@[simp] theorem State.setHead_linkView : (s.setHead h x).linkView = s.linkView := rfl
@[simp] theorem State.setHead_configView : (s.setHead h x).configView = s.configView := rfl
@[simp] theorem State.setHead_stationView : (s.setHead h x).stationView = s.stationView := rfl
@[simp] theorem State.setHead_passView : (s.setHead h x).passView = s.passView := rfl
@[simp] theorem State.setHead_replayView : (s.setHead h x).replayView = s.replayView := rfl
@[simp] theorem State.setHead_playView : (s.setHead h x).playView = s.playView := rfl
@[simp] theorem State.setHead_besideBowl : (s.setHead h x).besideBowl = s.besideBowl := rfl
@[simp] theorem State.setHead_besideReplay : (s.setHead h x).besideReplay = s.besideReplay := rfl

end

/-! ## setStation -/

section
variable (i : Nat) (x : Station)

@[simp] theorem State.setStation_pending : (s.setStation i x).pending = s.pending := rfl
@[simp] theorem State.setStation_now : (s.setStation i x).now = s.now := rfl
@[simp] theorem State.setStation_free : (s.setStation i x).free = s.free := rfl
@[simp] theorem State.setStation_held : (s.setStation i x).held = s.held := rfl
@[simp] theorem State.setStation_linkOut : (s.setStation i x).linkOut = s.linkOut := rfl
@[simp] theorem State.setStation_spiOut : (s.setStation i x).spiOut = s.spiOut := rfl
@[simp] theorem State.setStation_part : (s.setStation i x).part = s.part := rfl
@[simp] theorem State.setStation_heads : (s.setStation i x).heads = s.heads := rfl
@[simp] theorem State.setStation_discards : (s.setStation i x).discards = s.discards := rfl
@[simp] theorem State.setStation_tiers : (s.setStation i x).tiers = s.tiers := rfl
@[simp] theorem State.setStation_unbound : (s.setStation i x).unbound = s.unbound := rfl
@[simp] theorem State.setStation_roam : (s.setStation i x).roam = s.roam := rfl
@[simp] theorem State.setStation_holds : (s.setStation i x).holds = s.holds := rfl
@[simp] theorem State.setStation_passes : (s.setStation i x).passes = s.passes := rfl
@[simp] theorem State.setStation_zones : (s.setStation i x).zones = s.zones := rfl
@[simp] theorem State.setStation_rezone : (s.setStation i x).rezone = s.rezone := rfl
@[simp] theorem State.setStation_mode : (s.setStation i x).mode = s.mode := rfl
@[simp] theorem State.setStation_strict : (s.setStation i x).strict = s.strict := rfl
@[simp] theorem State.setStation_portA : (s.setStation i x).portA = s.portA := rfl
@[simp] theorem State.setStation_portB : (s.setStation i x).portB = s.portB := rfl
@[simp] theorem State.setStation_holdTimers : (s.setStation i x).holdTimers = s.holdTimers := rfl
@[simp] theorem State.setStation_marks : (s.setStation i x).marks = s.marks := rfl
@[simp] theorem State.setStation_clips : (s.setStation i x).clips = s.clips := rfl
@[simp] theorem State.setStation_ages : (s.setStation i x).ages = s.ages := rfl
@[simp] theorem State.setStation_slots : (s.setStation i x).slots = s.slots := rfl
@[simp] theorem State.setStation_dram : (s.setStation i x).dram = s.dram := rfl
@[simp] theorem State.setStation_channels : (s.setStation i x).channels = s.channels := rfl
@[simp] theorem State.setStation_arbMode : (s.setStation i x).arbMode = s.arbMode := rfl
@[simp] theorem State.setStation_pointer : (s.setStation i x).pointer = s.pointer := rfl
@[simp] theorem State.setStation_port : (s.setStation i x).port = s.port := rfl
@[simp] theorem State.setStation_programs : (s.setStation i x).programs = s.programs := rfl
@[simp] theorem State.setStation_inbound : (s.setStation i x).inbound = s.inbound := rfl
@[simp] theorem State.setStation_outbound : (s.setStation i x).outbound = s.outbound := rfl
@[simp] theorem State.setStation_enables : (s.setStation i x).enables = s.enables := rfl
@[simp] theorem State.setStation_lost : (s.setStation i x).lost = s.lost := rfl
@[simp] theorem State.setStation_rejected : (s.setStation i x).rejected = s.rejected := rfl
@[simp] theorem State.setStation_transaction : (s.setStation i x).transaction = s.transaction := rfl
@[simp] theorem State.setStation_linkView : (s.setStation i x).linkView = s.linkView := rfl
@[simp] theorem State.setStation_configView : (s.setStation i x).configView = s.configView := rfl
@[simp] theorem State.setStation_passView : (s.setStation i x).passView = s.passView := rfl
@[simp] theorem State.setStation_replayView : (s.setStation i x).replayView = s.replayView := rfl
@[simp] theorem State.setStation_playView : (s.setStation i x).playView = s.playView := rfl
@[simp] theorem State.setStation_besideBowl : (s.setStation i x).besideBowl = s.besideBowl := rfl

end

/-! ## updateStation -/

section
variable (i : Nat) (f : Station → Station)

@[simp] theorem State.updateStation_pending : (s.updateStation i f).pending = s.pending := rfl
@[simp] theorem State.updateStation_now : (s.updateStation i f).now = s.now := rfl
@[simp] theorem State.updateStation_free : (s.updateStation i f).free = s.free := rfl
@[simp] theorem State.updateStation_held : (s.updateStation i f).held = s.held := rfl
@[simp] theorem State.updateStation_linkOut : (s.updateStation i f).linkOut = s.linkOut := rfl
@[simp] theorem State.updateStation_spiOut : (s.updateStation i f).spiOut = s.spiOut := rfl
@[simp] theorem State.updateStation_part : (s.updateStation i f).part = s.part := rfl
@[simp] theorem State.updateStation_heads : (s.updateStation i f).heads = s.heads := rfl
@[simp] theorem State.updateStation_discards : (s.updateStation i f).discards = s.discards := rfl
@[simp] theorem State.updateStation_tiers : (s.updateStation i f).tiers = s.tiers := rfl
@[simp] theorem State.updateStation_unbound : (s.updateStation i f).unbound = s.unbound := rfl
@[simp] theorem State.updateStation_roam : (s.updateStation i f).roam = s.roam := rfl
@[simp] theorem State.updateStation_holds : (s.updateStation i f).holds = s.holds := rfl
@[simp] theorem State.updateStation_passes : (s.updateStation i f).passes = s.passes := rfl
@[simp] theorem State.updateStation_zones : (s.updateStation i f).zones = s.zones := rfl
@[simp] theorem State.updateStation_rezone : (s.updateStation i f).rezone = s.rezone := rfl
@[simp] theorem State.updateStation_mode : (s.updateStation i f).mode = s.mode := rfl
@[simp] theorem State.updateStation_strict : (s.updateStation i f).strict = s.strict := rfl
@[simp] theorem State.updateStation_portA : (s.updateStation i f).portA = s.portA := rfl
@[simp] theorem State.updateStation_portB : (s.updateStation i f).portB = s.portB := rfl
@[simp] theorem State.updateStation_holdTimers : (s.updateStation i f).holdTimers = s.holdTimers := rfl
@[simp] theorem State.updateStation_marks : (s.updateStation i f).marks = s.marks := rfl
@[simp] theorem State.updateStation_clips : (s.updateStation i f).clips = s.clips := rfl
@[simp] theorem State.updateStation_ages : (s.updateStation i f).ages = s.ages := rfl
@[simp] theorem State.updateStation_slots : (s.updateStation i f).slots = s.slots := rfl
@[simp] theorem State.updateStation_dram : (s.updateStation i f).dram = s.dram := rfl
@[simp] theorem State.updateStation_channels : (s.updateStation i f).channels = s.channels := rfl
@[simp] theorem State.updateStation_arbMode : (s.updateStation i f).arbMode = s.arbMode := rfl
@[simp] theorem State.updateStation_pointer : (s.updateStation i f).pointer = s.pointer := rfl
@[simp] theorem State.updateStation_port : (s.updateStation i f).port = s.port := rfl
@[simp] theorem State.updateStation_programs : (s.updateStation i f).programs = s.programs := rfl
@[simp] theorem State.updateStation_inbound : (s.updateStation i f).inbound = s.inbound := rfl
@[simp] theorem State.updateStation_outbound : (s.updateStation i f).outbound = s.outbound := rfl
@[simp] theorem State.updateStation_enables : (s.updateStation i f).enables = s.enables := rfl
@[simp] theorem State.updateStation_lost : (s.updateStation i f).lost = s.lost := rfl
@[simp] theorem State.updateStation_rejected : (s.updateStation i f).rejected = s.rejected := rfl
@[simp] theorem State.updateStation_transaction : (s.updateStation i f).transaction = s.transaction := rfl
@[simp] theorem State.updateStation_linkView : (s.updateStation i f).linkView = s.linkView := rfl
@[simp] theorem State.updateStation_configView : (s.updateStation i f).configView = s.configView := rfl
@[simp] theorem State.updateStation_passView : (s.updateStation i f).passView = s.passView := rfl
@[simp] theorem State.updateStation_replayView : (s.updateStation i f).replayView = s.replayView := rfl
@[simp] theorem State.updateStation_playView : (s.updateStation i f).playView = s.playView := rfl
@[simp] theorem State.updateStation_besideBowl : (s.updateStation i f).besideBowl = s.besideBowl := rfl

end

/-! ## setPass -/

section
variable (p : Nat) (x : Pass)

@[simp] theorem State.setPass_pending : (s.setPass p x).pending = s.pending := rfl
@[simp] theorem State.setPass_now : (s.setPass p x).now = s.now := rfl
@[simp] theorem State.setPass_free : (s.setPass p x).free = s.free := rfl
@[simp] theorem State.setPass_held : (s.setPass p x).held = s.held := rfl
@[simp] theorem State.setPass_linkOut : (s.setPass p x).linkOut = s.linkOut := rfl
@[simp] theorem State.setPass_spiOut : (s.setPass p x).spiOut = s.spiOut := rfl
@[simp] theorem State.setPass_part : (s.setPass p x).part = s.part := rfl
@[simp] theorem State.setPass_heads : (s.setPass p x).heads = s.heads := rfl
@[simp] theorem State.setPass_discards : (s.setPass p x).discards = s.discards := rfl
@[simp] theorem State.setPass_tiers : (s.setPass p x).tiers = s.tiers := rfl
@[simp] theorem State.setPass_unbound : (s.setPass p x).unbound = s.unbound := rfl
@[simp] theorem State.setPass_stations : (s.setPass p x).stations = s.stations := rfl
@[simp] theorem State.setPass_roam : (s.setPass p x).roam = s.roam := rfl
@[simp] theorem State.setPass_holds : (s.setPass p x).holds = s.holds := rfl
@[simp] theorem State.setPass_zones : (s.setPass p x).zones = s.zones := rfl
@[simp] theorem State.setPass_rezone : (s.setPass p x).rezone = s.rezone := rfl
@[simp] theorem State.setPass_mode : (s.setPass p x).mode = s.mode := rfl
@[simp] theorem State.setPass_strict : (s.setPass p x).strict = s.strict := rfl
@[simp] theorem State.setPass_portA : (s.setPass p x).portA = s.portA := rfl
@[simp] theorem State.setPass_portB : (s.setPass p x).portB = s.portB := rfl
@[simp] theorem State.setPass_holdTimers : (s.setPass p x).holdTimers = s.holdTimers := rfl
@[simp] theorem State.setPass_marks : (s.setPass p x).marks = s.marks := rfl
@[simp] theorem State.setPass_clips : (s.setPass p x).clips = s.clips := rfl
@[simp] theorem State.setPass_ages : (s.setPass p x).ages = s.ages := rfl
@[simp] theorem State.setPass_slots : (s.setPass p x).slots = s.slots := rfl
@[simp] theorem State.setPass_dram : (s.setPass p x).dram = s.dram := rfl
@[simp] theorem State.setPass_channels : (s.setPass p x).channels = s.channels := rfl
@[simp] theorem State.setPass_arbMode : (s.setPass p x).arbMode = s.arbMode := rfl
@[simp] theorem State.setPass_pointer : (s.setPass p x).pointer = s.pointer := rfl
@[simp] theorem State.setPass_port : (s.setPass p x).port = s.port := rfl
@[simp] theorem State.setPass_programs : (s.setPass p x).programs = s.programs := rfl
@[simp] theorem State.setPass_inbound : (s.setPass p x).inbound = s.inbound := rfl
@[simp] theorem State.setPass_outbound : (s.setPass p x).outbound = s.outbound := rfl
@[simp] theorem State.setPass_enables : (s.setPass p x).enables = s.enables := rfl
@[simp] theorem State.setPass_lost : (s.setPass p x).lost = s.lost := rfl
@[simp] theorem State.setPass_rejected : (s.setPass p x).rejected = s.rejected := rfl
@[simp] theorem State.setPass_transaction : (s.setPass p x).transaction = s.transaction := rfl
@[simp] theorem State.setPass_linkView : (s.setPass p x).linkView = s.linkView := rfl
@[simp] theorem State.setPass_configView : (s.setPass p x).configView = s.configView := rfl
@[simp] theorem State.setPass_stationView : (s.setPass p x).stationView = s.stationView := rfl
@[simp] theorem State.setPass_replayView : (s.setPass p x).replayView = s.replayView := rfl
@[simp] theorem State.setPass_playView : (s.setPass p x).playView = s.playView := rfl
@[simp] theorem State.setPass_besideBowl : (s.setPass p x).besideBowl = s.besideBowl := rfl

end

/-! ## updatePass -/

section
variable (p : Nat) (f : Pass → Pass)

@[simp] theorem State.updatePass_pending : (s.updatePass p f).pending = s.pending := rfl
@[simp] theorem State.updatePass_now : (s.updatePass p f).now = s.now := rfl
@[simp] theorem State.updatePass_free : (s.updatePass p f).free = s.free := rfl
@[simp] theorem State.updatePass_held : (s.updatePass p f).held = s.held := rfl
@[simp] theorem State.updatePass_linkOut : (s.updatePass p f).linkOut = s.linkOut := rfl
@[simp] theorem State.updatePass_spiOut : (s.updatePass p f).spiOut = s.spiOut := rfl
@[simp] theorem State.updatePass_part : (s.updatePass p f).part = s.part := rfl
@[simp] theorem State.updatePass_heads : (s.updatePass p f).heads = s.heads := rfl
@[simp] theorem State.updatePass_discards : (s.updatePass p f).discards = s.discards := rfl
@[simp] theorem State.updatePass_tiers : (s.updatePass p f).tiers = s.tiers := rfl
@[simp] theorem State.updatePass_unbound : (s.updatePass p f).unbound = s.unbound := rfl
@[simp] theorem State.updatePass_stations : (s.updatePass p f).stations = s.stations := rfl
@[simp] theorem State.updatePass_roam : (s.updatePass p f).roam = s.roam := rfl
@[simp] theorem State.updatePass_holds : (s.updatePass p f).holds = s.holds := rfl
@[simp] theorem State.updatePass_zones : (s.updatePass p f).zones = s.zones := rfl
@[simp] theorem State.updatePass_rezone : (s.updatePass p f).rezone = s.rezone := rfl
@[simp] theorem State.updatePass_mode : (s.updatePass p f).mode = s.mode := rfl
@[simp] theorem State.updatePass_strict : (s.updatePass p f).strict = s.strict := rfl
@[simp] theorem State.updatePass_portA : (s.updatePass p f).portA = s.portA := rfl
@[simp] theorem State.updatePass_portB : (s.updatePass p f).portB = s.portB := rfl
@[simp] theorem State.updatePass_holdTimers : (s.updatePass p f).holdTimers = s.holdTimers := rfl
@[simp] theorem State.updatePass_marks : (s.updatePass p f).marks = s.marks := rfl
@[simp] theorem State.updatePass_clips : (s.updatePass p f).clips = s.clips := rfl
@[simp] theorem State.updatePass_ages : (s.updatePass p f).ages = s.ages := rfl
@[simp] theorem State.updatePass_slots : (s.updatePass p f).slots = s.slots := rfl
@[simp] theorem State.updatePass_dram : (s.updatePass p f).dram = s.dram := rfl
@[simp] theorem State.updatePass_channels : (s.updatePass p f).channels = s.channels := rfl
@[simp] theorem State.updatePass_arbMode : (s.updatePass p f).arbMode = s.arbMode := rfl
@[simp] theorem State.updatePass_pointer : (s.updatePass p f).pointer = s.pointer := rfl
@[simp] theorem State.updatePass_port : (s.updatePass p f).port = s.port := rfl
@[simp] theorem State.updatePass_programs : (s.updatePass p f).programs = s.programs := rfl
@[simp] theorem State.updatePass_inbound : (s.updatePass p f).inbound = s.inbound := rfl
@[simp] theorem State.updatePass_outbound : (s.updatePass p f).outbound = s.outbound := rfl
@[simp] theorem State.updatePass_enables : (s.updatePass p f).enables = s.enables := rfl
@[simp] theorem State.updatePass_lost : (s.updatePass p f).lost = s.lost := rfl
@[simp] theorem State.updatePass_rejected : (s.updatePass p f).rejected = s.rejected := rfl
@[simp] theorem State.updatePass_transaction : (s.updatePass p f).transaction = s.transaction := rfl
@[simp] theorem State.updatePass_linkView : (s.updatePass p f).linkView = s.linkView := rfl
@[simp] theorem State.updatePass_configView : (s.updatePass p f).configView = s.configView := rfl
@[simp] theorem State.updatePass_stationView : (s.updatePass p f).stationView = s.stationView := rfl
@[simp] theorem State.updatePass_replayView : (s.updatePass p f).replayView = s.replayView := rfl
@[simp] theorem State.updatePass_playView : (s.updatePass p f).playView = s.playView := rfl
@[simp] theorem State.updatePass_besideBowl : (s.updatePass p f).besideBowl = s.besideBowl := rfl

end

/-! ## setZone -/

section
variable (z : ZoneId) (x : Zone)

@[simp] theorem State.setZone_pending : (s.setZone z x).pending = s.pending := rfl
@[simp] theorem State.setZone_now : (s.setZone z x).now = s.now := rfl
@[simp] theorem State.setZone_free : (s.setZone z x).free = s.free := rfl
@[simp] theorem State.setZone_held : (s.setZone z x).held = s.held := rfl
@[simp] theorem State.setZone_linkOut : (s.setZone z x).linkOut = s.linkOut := rfl
@[simp] theorem State.setZone_spiOut : (s.setZone z x).spiOut = s.spiOut := rfl
@[simp] theorem State.setZone_part : (s.setZone z x).part = s.part := rfl
@[simp] theorem State.setZone_heads : (s.setZone z x).heads = s.heads := rfl
@[simp] theorem State.setZone_discards : (s.setZone z x).discards = s.discards := rfl
@[simp] theorem State.setZone_tiers : (s.setZone z x).tiers = s.tiers := rfl
@[simp] theorem State.setZone_unbound : (s.setZone z x).unbound = s.unbound := rfl
@[simp] theorem State.setZone_stations : (s.setZone z x).stations = s.stations := rfl
@[simp] theorem State.setZone_roam : (s.setZone z x).roam = s.roam := rfl
@[simp] theorem State.setZone_holds : (s.setZone z x).holds = s.holds := rfl
@[simp] theorem State.setZone_passes : (s.setZone z x).passes = s.passes := rfl
@[simp] theorem State.setZone_rezone : (s.setZone z x).rezone = s.rezone := rfl
@[simp] theorem State.setZone_mode : (s.setZone z x).mode = s.mode := rfl
@[simp] theorem State.setZone_strict : (s.setZone z x).strict = s.strict := rfl
@[simp] theorem State.setZone_portA : (s.setZone z x).portA = s.portA := rfl
@[simp] theorem State.setZone_portB : (s.setZone z x).portB = s.portB := rfl
@[simp] theorem State.setZone_holdTimers : (s.setZone z x).holdTimers = s.holdTimers := rfl
@[simp] theorem State.setZone_marks : (s.setZone z x).marks = s.marks := rfl
@[simp] theorem State.setZone_clips : (s.setZone z x).clips = s.clips := rfl
@[simp] theorem State.setZone_ages : (s.setZone z x).ages = s.ages := rfl
@[simp] theorem State.setZone_slots : (s.setZone z x).slots = s.slots := rfl
@[simp] theorem State.setZone_dram : (s.setZone z x).dram = s.dram := rfl
@[simp] theorem State.setZone_channels : (s.setZone z x).channels = s.channels := rfl
@[simp] theorem State.setZone_arbMode : (s.setZone z x).arbMode = s.arbMode := rfl
@[simp] theorem State.setZone_pointer : (s.setZone z x).pointer = s.pointer := rfl
@[simp] theorem State.setZone_port : (s.setZone z x).port = s.port := rfl
@[simp] theorem State.setZone_programs : (s.setZone z x).programs = s.programs := rfl
@[simp] theorem State.setZone_inbound : (s.setZone z x).inbound = s.inbound := rfl
@[simp] theorem State.setZone_outbound : (s.setZone z x).outbound = s.outbound := rfl
@[simp] theorem State.setZone_enables : (s.setZone z x).enables = s.enables := rfl
@[simp] theorem State.setZone_lost : (s.setZone z x).lost = s.lost := rfl
@[simp] theorem State.setZone_rejected : (s.setZone z x).rejected = s.rejected := rfl
@[simp] theorem State.setZone_transaction : (s.setZone z x).transaction = s.transaction := rfl
@[simp] theorem State.setZone_linkView : (s.setZone z x).linkView = s.linkView := rfl
@[simp] theorem State.setZone_configView : (s.setZone z x).configView = s.configView := rfl
@[simp] theorem State.setZone_stationView : (s.setZone z x).stationView = s.stationView := rfl
@[simp] theorem State.setZone_replayView : (s.setZone z x).replayView = s.replayView := rfl
@[simp] theorem State.setZone_playView : (s.setZone z x).playView = s.playView := rfl
@[simp] theorem State.setZone_besideBowl : (s.setZone z x).besideBowl = s.besideBowl := rfl

end

/-! ## count -/

section
variable (z : Option ZoneId) (f : Zone → Zone)

@[simp] theorem State.count_pending : (s.count z f).pending = s.pending := rfl
@[simp] theorem State.count_now : (s.count z f).now = s.now := rfl
@[simp] theorem State.count_free : (s.count z f).free = s.free := rfl
@[simp] theorem State.count_held : (s.count z f).held = s.held := rfl
@[simp] theorem State.count_linkOut : (s.count z f).linkOut = s.linkOut := rfl
@[simp] theorem State.count_spiOut : (s.count z f).spiOut = s.spiOut := rfl
@[simp] theorem State.count_part : (s.count z f).part = s.part := rfl
@[simp] theorem State.count_heads : (s.count z f).heads = s.heads := rfl
@[simp] theorem State.count_discards : (s.count z f).discards = s.discards := rfl
@[simp] theorem State.count_tiers : (s.count z f).tiers = s.tiers := rfl
@[simp] theorem State.count_unbound : (s.count z f).unbound = s.unbound := rfl
@[simp] theorem State.count_stations : (s.count z f).stations = s.stations := rfl
@[simp] theorem State.count_roam : (s.count z f).roam = s.roam := rfl
@[simp] theorem State.count_holds : (s.count z f).holds = s.holds := rfl
@[simp] theorem State.count_passes : (s.count z f).passes = s.passes := rfl
@[simp] theorem State.count_rezone : (s.count z f).rezone = s.rezone := rfl
@[simp] theorem State.count_mode : (s.count z f).mode = s.mode := rfl
@[simp] theorem State.count_strict : (s.count z f).strict = s.strict := rfl
@[simp] theorem State.count_portA : (s.count z f).portA = s.portA := rfl
@[simp] theorem State.count_portB : (s.count z f).portB = s.portB := rfl
@[simp] theorem State.count_holdTimers : (s.count z f).holdTimers = s.holdTimers := rfl
@[simp] theorem State.count_marks : (s.count z f).marks = s.marks := rfl
@[simp] theorem State.count_clips : (s.count z f).clips = s.clips := rfl
@[simp] theorem State.count_ages : (s.count z f).ages = s.ages := rfl
@[simp] theorem State.count_slots : (s.count z f).slots = s.slots := rfl
@[simp] theorem State.count_dram : (s.count z f).dram = s.dram := rfl
@[simp] theorem State.count_channels : (s.count z f).channels = s.channels := rfl
@[simp] theorem State.count_arbMode : (s.count z f).arbMode = s.arbMode := rfl
@[simp] theorem State.count_pointer : (s.count z f).pointer = s.pointer := rfl
@[simp] theorem State.count_port : (s.count z f).port = s.port := rfl
@[simp] theorem State.count_programs : (s.count z f).programs = s.programs := rfl
@[simp] theorem State.count_inbound : (s.count z f).inbound = s.inbound := rfl
@[simp] theorem State.count_outbound : (s.count z f).outbound = s.outbound := rfl
@[simp] theorem State.count_enables : (s.count z f).enables = s.enables := rfl
@[simp] theorem State.count_lost : (s.count z f).lost = s.lost := rfl
@[simp] theorem State.count_rejected : (s.count z f).rejected = s.rejected := rfl
@[simp] theorem State.count_transaction : (s.count z f).transaction = s.transaction := rfl
@[simp] theorem State.count_linkView : (s.count z f).linkView = s.linkView := rfl
@[simp] theorem State.count_configView : (s.count z f).configView = s.configView := rfl
@[simp] theorem State.count_stationView : (s.count z f).stationView = s.stationView := rfl
@[simp] theorem State.count_replayView : (s.count z f).replayView = s.replayView := rfl
@[simp] theorem State.count_playView : (s.count z f).playView = s.playView := rfl
@[simp] theorem State.count_besideBowl : (s.count z f).besideBowl = s.besideBowl := rfl

end

/-! ## updateClip -/

section
variable (i : Nat) (f : Clip → Clip)

@[simp] theorem State.updateClip_pending : (s.updateClip i f).pending = s.pending := rfl
@[simp] theorem State.updateClip_now : (s.updateClip i f).now = s.now := rfl
@[simp] theorem State.updateClip_free : (s.updateClip i f).free = s.free := rfl
@[simp] theorem State.updateClip_held : (s.updateClip i f).held = s.held := rfl
@[simp] theorem State.updateClip_linkOut : (s.updateClip i f).linkOut = s.linkOut := rfl
@[simp] theorem State.updateClip_spiOut : (s.updateClip i f).spiOut = s.spiOut := rfl
@[simp] theorem State.updateClip_part : (s.updateClip i f).part = s.part := rfl
@[simp] theorem State.updateClip_heads : (s.updateClip i f).heads = s.heads := rfl
@[simp] theorem State.updateClip_discards : (s.updateClip i f).discards = s.discards := rfl
@[simp] theorem State.updateClip_tiers : (s.updateClip i f).tiers = s.tiers := rfl
@[simp] theorem State.updateClip_unbound : (s.updateClip i f).unbound = s.unbound := rfl
@[simp] theorem State.updateClip_stations : (s.updateClip i f).stations = s.stations := rfl
@[simp] theorem State.updateClip_roam : (s.updateClip i f).roam = s.roam := rfl
@[simp] theorem State.updateClip_holds : (s.updateClip i f).holds = s.holds := rfl
@[simp] theorem State.updateClip_passes : (s.updateClip i f).passes = s.passes := rfl
@[simp] theorem State.updateClip_zones : (s.updateClip i f).zones = s.zones := rfl
@[simp] theorem State.updateClip_rezone : (s.updateClip i f).rezone = s.rezone := rfl
@[simp] theorem State.updateClip_mode : (s.updateClip i f).mode = s.mode := rfl
@[simp] theorem State.updateClip_strict : (s.updateClip i f).strict = s.strict := rfl
@[simp] theorem State.updateClip_portA : (s.updateClip i f).portA = s.portA := rfl
@[simp] theorem State.updateClip_portB : (s.updateClip i f).portB = s.portB := rfl
@[simp] theorem State.updateClip_holdTimers : (s.updateClip i f).holdTimers = s.holdTimers := rfl
@[simp] theorem State.updateClip_marks : (s.updateClip i f).marks = s.marks := rfl
@[simp] theorem State.updateClip_ages : (s.updateClip i f).ages = s.ages := rfl
@[simp] theorem State.updateClip_slots : (s.updateClip i f).slots = s.slots := rfl
@[simp] theorem State.updateClip_dram : (s.updateClip i f).dram = s.dram := rfl
@[simp] theorem State.updateClip_channels : (s.updateClip i f).channels = s.channels := rfl
@[simp] theorem State.updateClip_arbMode : (s.updateClip i f).arbMode = s.arbMode := rfl
@[simp] theorem State.updateClip_pointer : (s.updateClip i f).pointer = s.pointer := rfl
@[simp] theorem State.updateClip_port : (s.updateClip i f).port = s.port := rfl
@[simp] theorem State.updateClip_programs : (s.updateClip i f).programs = s.programs := rfl
@[simp] theorem State.updateClip_inbound : (s.updateClip i f).inbound = s.inbound := rfl
@[simp] theorem State.updateClip_outbound : (s.updateClip i f).outbound = s.outbound := rfl
@[simp] theorem State.updateClip_enables : (s.updateClip i f).enables = s.enables := rfl
@[simp] theorem State.updateClip_lost : (s.updateClip i f).lost = s.lost := rfl
@[simp] theorem State.updateClip_rejected : (s.updateClip i f).rejected = s.rejected := rfl
@[simp] theorem State.updateClip_transaction : (s.updateClip i f).transaction = s.transaction := rfl
@[simp] theorem State.updateClip_linkView : (s.updateClip i f).linkView = s.linkView := rfl
@[simp] theorem State.updateClip_configView : (s.updateClip i f).configView = s.configView := rfl
@[simp] theorem State.updateClip_stationView : (s.updateClip i f).stationView = s.stationView := rfl
@[simp] theorem State.updateClip_passView : (s.updateClip i f).passView = s.passView := rfl
@[simp] theorem State.updateClip_playView : (s.updateClip i f).playView = s.playView := rfl
@[simp] theorem State.updateClip_besideReplay : (s.updateClip i f).besideReplay = s.besideReplay := rfl

end

/-! ## setChannel -/

section
variable (c : Chan) (x : Channel)

@[simp] theorem State.setChannel_pending : (s.setChannel c x).pending = s.pending := rfl
@[simp] theorem State.setChannel_now : (s.setChannel c x).now = s.now := rfl
@[simp] theorem State.setChannel_free : (s.setChannel c x).free = s.free := rfl
@[simp] theorem State.setChannel_held : (s.setChannel c x).held = s.held := rfl
@[simp] theorem State.setChannel_linkOut : (s.setChannel c x).linkOut = s.linkOut := rfl
@[simp] theorem State.setChannel_spiOut : (s.setChannel c x).spiOut = s.spiOut := rfl
@[simp] theorem State.setChannel_part : (s.setChannel c x).part = s.part := rfl
@[simp] theorem State.setChannel_heads : (s.setChannel c x).heads = s.heads := rfl
@[simp] theorem State.setChannel_discards : (s.setChannel c x).discards = s.discards := rfl
@[simp] theorem State.setChannel_tiers : (s.setChannel c x).tiers = s.tiers := rfl
@[simp] theorem State.setChannel_unbound : (s.setChannel c x).unbound = s.unbound := rfl
@[simp] theorem State.setChannel_stations : (s.setChannel c x).stations = s.stations := rfl
@[simp] theorem State.setChannel_roam : (s.setChannel c x).roam = s.roam := rfl
@[simp] theorem State.setChannel_holds : (s.setChannel c x).holds = s.holds := rfl
@[simp] theorem State.setChannel_passes : (s.setChannel c x).passes = s.passes := rfl
@[simp] theorem State.setChannel_zones : (s.setChannel c x).zones = s.zones := rfl
@[simp] theorem State.setChannel_rezone : (s.setChannel c x).rezone = s.rezone := rfl
@[simp] theorem State.setChannel_mode : (s.setChannel c x).mode = s.mode := rfl
@[simp] theorem State.setChannel_strict : (s.setChannel c x).strict = s.strict := rfl
@[simp] theorem State.setChannel_portA : (s.setChannel c x).portA = s.portA := rfl
@[simp] theorem State.setChannel_portB : (s.setChannel c x).portB = s.portB := rfl
@[simp] theorem State.setChannel_holdTimers : (s.setChannel c x).holdTimers = s.holdTimers := rfl
@[simp] theorem State.setChannel_marks : (s.setChannel c x).marks = s.marks := rfl
@[simp] theorem State.setChannel_clips : (s.setChannel c x).clips = s.clips := rfl
@[simp] theorem State.setChannel_ages : (s.setChannel c x).ages = s.ages := rfl
@[simp] theorem State.setChannel_slots : (s.setChannel c x).slots = s.slots := rfl
@[simp] theorem State.setChannel_dram : (s.setChannel c x).dram = s.dram := rfl
@[simp] theorem State.setChannel_arbMode : (s.setChannel c x).arbMode = s.arbMode := rfl
@[simp] theorem State.setChannel_pointer : (s.setChannel c x).pointer = s.pointer := rfl
@[simp] theorem State.setChannel_port : (s.setChannel c x).port = s.port := rfl
@[simp] theorem State.setChannel_programs : (s.setChannel c x).programs = s.programs := rfl
@[simp] theorem State.setChannel_inbound : (s.setChannel c x).inbound = s.inbound := rfl
@[simp] theorem State.setChannel_outbound : (s.setChannel c x).outbound = s.outbound := rfl
@[simp] theorem State.setChannel_enables : (s.setChannel c x).enables = s.enables := rfl
@[simp] theorem State.setChannel_lost : (s.setChannel c x).lost = s.lost := rfl
@[simp] theorem State.setChannel_rejected : (s.setChannel c x).rejected = s.rejected := rfl
@[simp] theorem State.setChannel_transaction : (s.setChannel c x).transaction = s.transaction := rfl
@[simp] theorem State.setChannel_linkView : (s.setChannel c x).linkView = s.linkView := rfl
@[simp] theorem State.setChannel_configView : (s.setChannel c x).configView = s.configView := rfl
@[simp] theorem State.setChannel_stationView : (s.setChannel c x).stationView = s.stationView := rfl
@[simp] theorem State.setChannel_passView : (s.setChannel c x).passView = s.passView := rfl
@[simp] theorem State.setChannel_replayView : (s.setChannel c x).replayView = s.replayView := rfl
@[simp] theorem State.setChannel_besideReplay : (s.setChannel c x).besideReplay = s.besideReplay := rfl

end

/-! ## updateIngest -/

section
variable (p : Port) (f : IngestPort → IngestPort)

@[simp] theorem State.updateIngest_pending : (s.updateIngest p f).pending = s.pending := rfl
@[simp] theorem State.updateIngest_now : (s.updateIngest p f).now = s.now := rfl
@[simp] theorem State.updateIngest_free : (s.updateIngest p f).free = s.free := rfl
@[simp] theorem State.updateIngest_held : (s.updateIngest p f).held = s.held := rfl
@[simp] theorem State.updateIngest_linkOut : (s.updateIngest p f).linkOut = s.linkOut := rfl
@[simp] theorem State.updateIngest_spiOut : (s.updateIngest p f).spiOut = s.spiOut := rfl
@[simp] theorem State.updateIngest_part : (s.updateIngest p f).part = s.part := rfl
@[simp] theorem State.updateIngest_heads : (s.updateIngest p f).heads = s.heads := rfl
@[simp] theorem State.updateIngest_discards : (s.updateIngest p f).discards = s.discards := rfl
@[simp] theorem State.updateIngest_tiers : (s.updateIngest p f).tiers = s.tiers := rfl
@[simp] theorem State.updateIngest_unbound : (s.updateIngest p f).unbound = s.unbound := rfl
@[simp] theorem State.updateIngest_stations : (s.updateIngest p f).stations = s.stations := rfl
@[simp] theorem State.updateIngest_roam : (s.updateIngest p f).roam = s.roam := rfl
@[simp] theorem State.updateIngest_holds : (s.updateIngest p f).holds = s.holds := rfl
@[simp] theorem State.updateIngest_passes : (s.updateIngest p f).passes = s.passes := rfl
@[simp] theorem State.updateIngest_zones : (s.updateIngest p f).zones = s.zones := rfl
@[simp] theorem State.updateIngest_rezone : (s.updateIngest p f).rezone = s.rezone := rfl
@[simp] theorem State.updateIngest_mode : (s.updateIngest p f).mode = s.mode := rfl
@[simp] theorem State.updateIngest_strict : (s.updateIngest p f).strict = s.strict := rfl
@[simp] theorem State.updateIngest_holdTimers : (s.updateIngest p f).holdTimers = s.holdTimers := rfl
@[simp] theorem State.updateIngest_marks : (s.updateIngest p f).marks = s.marks := rfl
@[simp] theorem State.updateIngest_clips : (s.updateIngest p f).clips = s.clips := rfl
@[simp] theorem State.updateIngest_ages : (s.updateIngest p f).ages = s.ages := rfl
@[simp] theorem State.updateIngest_slots : (s.updateIngest p f).slots = s.slots := rfl
@[simp] theorem State.updateIngest_dram : (s.updateIngest p f).dram = s.dram := rfl
@[simp] theorem State.updateIngest_channels : (s.updateIngest p f).channels = s.channels := rfl
@[simp] theorem State.updateIngest_arbMode : (s.updateIngest p f).arbMode = s.arbMode := rfl
@[simp] theorem State.updateIngest_pointer : (s.updateIngest p f).pointer = s.pointer := rfl
@[simp] theorem State.updateIngest_port : (s.updateIngest p f).port = s.port := rfl
@[simp] theorem State.updateIngest_programs : (s.updateIngest p f).programs = s.programs := rfl
@[simp] theorem State.updateIngest_inbound : (s.updateIngest p f).inbound = s.inbound := rfl
@[simp] theorem State.updateIngest_outbound : (s.updateIngest p f).outbound = s.outbound := rfl
@[simp] theorem State.updateIngest_enables : (s.updateIngest p f).enables = s.enables := rfl
@[simp] theorem State.updateIngest_lost : (s.updateIngest p f).lost = s.lost := rfl
@[simp] theorem State.updateIngest_rejected : (s.updateIngest p f).rejected = s.rejected := rfl
@[simp] theorem State.updateIngest_transaction : (s.updateIngest p f).transaction = s.transaction := rfl
@[simp] theorem State.updateIngest_linkView : (s.updateIngest p f).linkView = s.linkView := rfl
@[simp] theorem State.updateIngest_configView : (s.updateIngest p f).configView = s.configView := rfl
@[simp] theorem State.updateIngest_stationView : (s.updateIngest p f).stationView = s.stationView := rfl
@[simp] theorem State.updateIngest_passView : (s.updateIngest p f).passView = s.passView := rfl
@[simp] theorem State.updateIngest_playView : (s.updateIngest p f).playView = s.playView := rfl
@[simp] theorem State.updateIngest_besideReplay : (s.updateIngest p f).besideReplay = s.besideReplay := rfl

end

/-! ## expireAt -/

section
variable (due : Micros)

@[simp] theorem State.expireAt_pending : (s.expireAt due).pending = s.pending := rfl
@[simp] theorem State.expireAt_free : (s.expireAt due).free = s.free := rfl
@[simp] theorem State.expireAt_held : (s.expireAt due).held = s.held := rfl
@[simp] theorem State.expireAt_linkOut : (s.expireAt due).linkOut = s.linkOut := rfl
@[simp] theorem State.expireAt_spiOut : (s.expireAt due).spiOut = s.spiOut := rfl
@[simp] theorem State.expireAt_part : (s.expireAt due).part = s.part := rfl
@[simp] theorem State.expireAt_heads : (s.expireAt due).heads = s.heads := rfl
@[simp] theorem State.expireAt_discards : (s.expireAt due).discards = s.discards := rfl
@[simp] theorem State.expireAt_tiers : (s.expireAt due).tiers = s.tiers := rfl
@[simp] theorem State.expireAt_unbound : (s.expireAt due).unbound = s.unbound := rfl
@[simp] theorem State.expireAt_stations : (s.expireAt due).stations = s.stations := rfl
@[simp] theorem State.expireAt_roam : (s.expireAt due).roam = s.roam := rfl
@[simp] theorem State.expireAt_holds : (s.expireAt due).holds = s.holds := rfl
@[simp] theorem State.expireAt_passes : (s.expireAt due).passes = s.passes := rfl
@[simp] theorem State.expireAt_zones : (s.expireAt due).zones = s.zones := rfl
@[simp] theorem State.expireAt_rezone : (s.expireAt due).rezone = s.rezone := rfl
@[simp] theorem State.expireAt_mode : (s.expireAt due).mode = s.mode := rfl
@[simp] theorem State.expireAt_strict : (s.expireAt due).strict = s.strict := rfl
@[simp] theorem State.expireAt_portA : (s.expireAt due).portA = s.portA := rfl
@[simp] theorem State.expireAt_portB : (s.expireAt due).portB = s.portB := rfl
@[simp] theorem State.expireAt_holdTimers : (s.expireAt due).holdTimers = s.holdTimers := rfl
@[simp] theorem State.expireAt_marks : (s.expireAt due).marks = s.marks := rfl
@[simp] theorem State.expireAt_clips : (s.expireAt due).clips = s.clips := rfl
@[simp] theorem State.expireAt_ages : (s.expireAt due).ages = s.ages := rfl
@[simp] theorem State.expireAt_slots : (s.expireAt due).slots = s.slots := rfl
@[simp] theorem State.expireAt_dram : (s.expireAt due).dram = s.dram := rfl
@[simp] theorem State.expireAt_channels : (s.expireAt due).channels = s.channels := rfl
@[simp] theorem State.expireAt_arbMode : (s.expireAt due).arbMode = s.arbMode := rfl
@[simp] theorem State.expireAt_pointer : (s.expireAt due).pointer = s.pointer := rfl
@[simp] theorem State.expireAt_port : (s.expireAt due).port = s.port := rfl
@[simp] theorem State.expireAt_programs : (s.expireAt due).programs = s.programs := rfl
@[simp] theorem State.expireAt_inbound : (s.expireAt due).inbound = s.inbound := rfl
@[simp] theorem State.expireAt_outbound : (s.expireAt due).outbound = s.outbound := rfl
@[simp] theorem State.expireAt_enables : (s.expireAt due).enables = s.enables := rfl
@[simp] theorem State.expireAt_lost : (s.expireAt due).lost = s.lost := rfl
@[simp] theorem State.expireAt_rejected : (s.expireAt due).rejected = s.rejected := rfl
@[simp] theorem State.expireAt_transaction : (s.expireAt due).transaction = s.transaction := rfl
@[simp] theorem State.expireAt_linkView : (s.expireAt due).linkView = s.linkView := rfl
@[simp] theorem State.expireAt_configView : (s.expireAt due).configView = s.configView := rfl
@[simp] theorem State.expireAt_stationView : (s.expireAt due).stationView = s.stationView := rfl
@[simp] theorem State.expireAt_passView : (s.expireAt due).passView = s.passView := rfl
@[simp] theorem State.expireAt_replayView : (s.expireAt due).replayView = s.replayView := rfl
@[simp] theorem State.expireAt_playView : (s.expireAt due).playView = s.playView := rfl

end

/-! ## note -/

section
variable (n : Notice)

@[simp] theorem State.note_pending : (s.note n).pending = s.pending := rfl
@[simp] theorem State.note_now : (s.note n).now = s.now := rfl
@[simp] theorem State.note_free : (s.note n).free = s.free := rfl
@[simp] theorem State.note_linkOut : (s.note n).linkOut = s.linkOut := rfl
@[simp] theorem State.note_spiOut : (s.note n).spiOut = s.spiOut := rfl
@[simp] theorem State.note_part : (s.note n).part = s.part := rfl
@[simp] theorem State.note_heads : (s.note n).heads = s.heads := rfl
@[simp] theorem State.note_discards : (s.note n).discards = s.discards := rfl
@[simp] theorem State.note_tiers : (s.note n).tiers = s.tiers := rfl
@[simp] theorem State.note_unbound : (s.note n).unbound = s.unbound := rfl
@[simp] theorem State.note_stations : (s.note n).stations = s.stations := rfl
@[simp] theorem State.note_roam : (s.note n).roam = s.roam := rfl
@[simp] theorem State.note_holds : (s.note n).holds = s.holds := rfl
@[simp] theorem State.note_passes : (s.note n).passes = s.passes := rfl
@[simp] theorem State.note_zones : (s.note n).zones = s.zones := rfl
@[simp] theorem State.note_rezone : (s.note n).rezone = s.rezone := rfl
@[simp] theorem State.note_mode : (s.note n).mode = s.mode := rfl
@[simp] theorem State.note_strict : (s.note n).strict = s.strict := rfl
@[simp] theorem State.note_portA : (s.note n).portA = s.portA := rfl
@[simp] theorem State.note_portB : (s.note n).portB = s.portB := rfl
@[simp] theorem State.note_holdTimers : (s.note n).holdTimers = s.holdTimers := rfl
@[simp] theorem State.note_marks : (s.note n).marks = s.marks := rfl
@[simp] theorem State.note_clips : (s.note n).clips = s.clips := rfl
@[simp] theorem State.note_ages : (s.note n).ages = s.ages := rfl
@[simp] theorem State.note_slots : (s.note n).slots = s.slots := rfl
@[simp] theorem State.note_dram : (s.note n).dram = s.dram := rfl
@[simp] theorem State.note_channels : (s.note n).channels = s.channels := rfl
@[simp] theorem State.note_arbMode : (s.note n).arbMode = s.arbMode := rfl
@[simp] theorem State.note_pointer : (s.note n).pointer = s.pointer := rfl
@[simp] theorem State.note_port : (s.note n).port = s.port := rfl
@[simp] theorem State.note_programs : (s.note n).programs = s.programs := rfl
@[simp] theorem State.note_inbound : (s.note n).inbound = s.inbound := rfl
@[simp] theorem State.note_outbound : (s.note n).outbound = s.outbound := rfl
@[simp] theorem State.note_enables : (s.note n).enables = s.enables := rfl
@[simp] theorem State.note_lost : (s.note n).lost = s.lost := rfl
@[simp] theorem State.note_rejected : (s.note n).rejected = s.rejected := rfl
@[simp] theorem State.note_transaction : (s.note n).transaction = s.transaction := rfl
@[simp] theorem State.note_linkView : (s.note n).linkView = s.linkView := rfl
@[simp] theorem State.note_configView : (s.note n).configView = s.configView := rfl
@[simp] theorem State.note_stationView : (s.note n).stationView = s.stationView := rfl
@[simp] theorem State.note_passView : (s.note n).passView = s.passView := rfl
@[simp] theorem State.note_replayView : (s.note n).replayView = s.replayView := rfl
@[simp] theorem State.note_playView : (s.note n).playView = s.playView := rfl
@[simp] theorem State.note_besideBowl : (s.note n).besideBowl = s.besideBowl := rfl
@[simp] theorem State.note_besideReplay : (s.note n).besideReplay = s.besideReplay := rfl

end

/-! ## noteAll -/

section
variable (ns : List Notice)

@[simp] theorem State.noteAll_pending : (s.noteAll ns).pending = s.pending := rfl
@[simp] theorem State.noteAll_now : (s.noteAll ns).now = s.now := rfl
@[simp] theorem State.noteAll_free : (s.noteAll ns).free = s.free := rfl
@[simp] theorem State.noteAll_linkOut : (s.noteAll ns).linkOut = s.linkOut := rfl
@[simp] theorem State.noteAll_spiOut : (s.noteAll ns).spiOut = s.spiOut := rfl
@[simp] theorem State.noteAll_part : (s.noteAll ns).part = s.part := rfl
@[simp] theorem State.noteAll_heads : (s.noteAll ns).heads = s.heads := rfl
@[simp] theorem State.noteAll_discards : (s.noteAll ns).discards = s.discards := rfl
@[simp] theorem State.noteAll_tiers : (s.noteAll ns).tiers = s.tiers := rfl
@[simp] theorem State.noteAll_unbound : (s.noteAll ns).unbound = s.unbound := rfl
@[simp] theorem State.noteAll_stations : (s.noteAll ns).stations = s.stations := rfl
@[simp] theorem State.noteAll_roam : (s.noteAll ns).roam = s.roam := rfl
@[simp] theorem State.noteAll_holds : (s.noteAll ns).holds = s.holds := rfl
@[simp] theorem State.noteAll_passes : (s.noteAll ns).passes = s.passes := rfl
@[simp] theorem State.noteAll_zones : (s.noteAll ns).zones = s.zones := rfl
@[simp] theorem State.noteAll_rezone : (s.noteAll ns).rezone = s.rezone := rfl
@[simp] theorem State.noteAll_mode : (s.noteAll ns).mode = s.mode := rfl
@[simp] theorem State.noteAll_strict : (s.noteAll ns).strict = s.strict := rfl
@[simp] theorem State.noteAll_portA : (s.noteAll ns).portA = s.portA := rfl
@[simp] theorem State.noteAll_portB : (s.noteAll ns).portB = s.portB := rfl
@[simp] theorem State.noteAll_holdTimers : (s.noteAll ns).holdTimers = s.holdTimers := rfl
@[simp] theorem State.noteAll_marks : (s.noteAll ns).marks = s.marks := rfl
@[simp] theorem State.noteAll_clips : (s.noteAll ns).clips = s.clips := rfl
@[simp] theorem State.noteAll_ages : (s.noteAll ns).ages = s.ages := rfl
@[simp] theorem State.noteAll_slots : (s.noteAll ns).slots = s.slots := rfl
@[simp] theorem State.noteAll_dram : (s.noteAll ns).dram = s.dram := rfl
@[simp] theorem State.noteAll_channels : (s.noteAll ns).channels = s.channels := rfl
@[simp] theorem State.noteAll_arbMode : (s.noteAll ns).arbMode = s.arbMode := rfl
@[simp] theorem State.noteAll_pointer : (s.noteAll ns).pointer = s.pointer := rfl
@[simp] theorem State.noteAll_port : (s.noteAll ns).port = s.port := rfl
@[simp] theorem State.noteAll_programs : (s.noteAll ns).programs = s.programs := rfl
@[simp] theorem State.noteAll_inbound : (s.noteAll ns).inbound = s.inbound := rfl
@[simp] theorem State.noteAll_outbound : (s.noteAll ns).outbound = s.outbound := rfl
@[simp] theorem State.noteAll_enables : (s.noteAll ns).enables = s.enables := rfl
@[simp] theorem State.noteAll_lost : (s.noteAll ns).lost = s.lost := rfl
@[simp] theorem State.noteAll_rejected : (s.noteAll ns).rejected = s.rejected := rfl
@[simp] theorem State.noteAll_transaction : (s.noteAll ns).transaction = s.transaction := rfl
@[simp] theorem State.noteAll_linkView : (s.noteAll ns).linkView = s.linkView := rfl
@[simp] theorem State.noteAll_configView : (s.noteAll ns).configView = s.configView := rfl
@[simp] theorem State.noteAll_stationView : (s.noteAll ns).stationView = s.stationView := rfl
@[simp] theorem State.noteAll_passView : (s.noteAll ns).passView = s.passView := rfl
@[simp] theorem State.noteAll_replayView : (s.noteAll ns).replayView = s.replayView := rfl
@[simp] theorem State.noteAll_playView : (s.noteAll ns).playView = s.playView := rfl
@[simp] theorem State.noteAll_besideBowl : (s.noteAll ns).besideBowl = s.besideBowl := rfl
@[simp] theorem State.noteAll_besideReplay : (s.noteAll ns).besideReplay = s.besideReplay := rfl

end

/-! ## send -/

section
variable (h : HeadId) (f : LinkFrame)

@[simp] theorem State.send_pending : (s.send h f).pending = s.pending := rfl
@[simp] theorem State.send_now : (s.send h f).now = s.now := rfl
@[simp] theorem State.send_free : (s.send h f).free = s.free := rfl
@[simp] theorem State.send_held : (s.send h f).held = s.held := rfl
@[simp] theorem State.send_spiOut : (s.send h f).spiOut = s.spiOut := rfl
@[simp] theorem State.send_part : (s.send h f).part = s.part := rfl
@[simp] theorem State.send_heads : (s.send h f).heads = s.heads := rfl
@[simp] theorem State.send_discards : (s.send h f).discards = s.discards := rfl
@[simp] theorem State.send_tiers : (s.send h f).tiers = s.tiers := rfl
@[simp] theorem State.send_unbound : (s.send h f).unbound = s.unbound := rfl
@[simp] theorem State.send_stations : (s.send h f).stations = s.stations := rfl
@[simp] theorem State.send_roam : (s.send h f).roam = s.roam := rfl
@[simp] theorem State.send_holds : (s.send h f).holds = s.holds := rfl
@[simp] theorem State.send_passes : (s.send h f).passes = s.passes := rfl
@[simp] theorem State.send_zones : (s.send h f).zones = s.zones := rfl
@[simp] theorem State.send_rezone : (s.send h f).rezone = s.rezone := rfl
@[simp] theorem State.send_mode : (s.send h f).mode = s.mode := rfl
@[simp] theorem State.send_strict : (s.send h f).strict = s.strict := rfl
@[simp] theorem State.send_portA : (s.send h f).portA = s.portA := rfl
@[simp] theorem State.send_portB : (s.send h f).portB = s.portB := rfl
@[simp] theorem State.send_holdTimers : (s.send h f).holdTimers = s.holdTimers := rfl
@[simp] theorem State.send_marks : (s.send h f).marks = s.marks := rfl
@[simp] theorem State.send_clips : (s.send h f).clips = s.clips := rfl
@[simp] theorem State.send_ages : (s.send h f).ages = s.ages := rfl
@[simp] theorem State.send_slots : (s.send h f).slots = s.slots := rfl
@[simp] theorem State.send_dram : (s.send h f).dram = s.dram := rfl
@[simp] theorem State.send_channels : (s.send h f).channels = s.channels := rfl
@[simp] theorem State.send_arbMode : (s.send h f).arbMode = s.arbMode := rfl
@[simp] theorem State.send_pointer : (s.send h f).pointer = s.pointer := rfl
@[simp] theorem State.send_port : (s.send h f).port = s.port := rfl
@[simp] theorem State.send_programs : (s.send h f).programs = s.programs := rfl
@[simp] theorem State.send_inbound : (s.send h f).inbound = s.inbound := rfl
@[simp] theorem State.send_outbound : (s.send h f).outbound = s.outbound := rfl
@[simp] theorem State.send_enables : (s.send h f).enables = s.enables := rfl
@[simp] theorem State.send_lost : (s.send h f).lost = s.lost := rfl
@[simp] theorem State.send_rejected : (s.send h f).rejected = s.rejected := rfl
@[simp] theorem State.send_transaction : (s.send h f).transaction = s.transaction := rfl
@[simp] theorem State.send_linkView : (s.send h f).linkView = s.linkView := rfl
@[simp] theorem State.send_configView : (s.send h f).configView = s.configView := rfl
@[simp] theorem State.send_stationView : (s.send h f).stationView = s.stationView := rfl
@[simp] theorem State.send_passView : (s.send h f).passView = s.passView := rfl
@[simp] theorem State.send_replayView : (s.send h f).replayView = s.replayView := rfl
@[simp] theorem State.send_playView : (s.send h f).playView = s.playView := rfl
@[simp] theorem State.send_besideBowl : (s.send h f).besideBowl = s.besideBowl := rfl
@[simp] theorem State.send_besideReplay : (s.send h f).besideReplay = s.besideReplay := rfl

end

/-! ## discard -/

section
variable (l : LinkId)

@[simp] theorem State.discard_pending : (s.discard l).pending = s.pending := rfl
@[simp] theorem State.discard_now : (s.discard l).now = s.now := rfl
@[simp] theorem State.discard_free : (s.discard l).free = s.free := rfl
@[simp] theorem State.discard_held : (s.discard l).held = s.held := rfl
@[simp] theorem State.discard_linkOut : (s.discard l).linkOut = s.linkOut := rfl
@[simp] theorem State.discard_spiOut : (s.discard l).spiOut = s.spiOut := rfl
@[simp] theorem State.discard_part : (s.discard l).part = s.part := rfl
@[simp] theorem State.discard_heads : (s.discard l).heads = s.heads := rfl
@[simp] theorem State.discard_tiers : (s.discard l).tiers = s.tiers := rfl
@[simp] theorem State.discard_unbound : (s.discard l).unbound = s.unbound := rfl
@[simp] theorem State.discard_stations : (s.discard l).stations = s.stations := rfl
@[simp] theorem State.discard_roam : (s.discard l).roam = s.roam := rfl
@[simp] theorem State.discard_holds : (s.discard l).holds = s.holds := rfl
@[simp] theorem State.discard_passes : (s.discard l).passes = s.passes := rfl
@[simp] theorem State.discard_zones : (s.discard l).zones = s.zones := rfl
@[simp] theorem State.discard_rezone : (s.discard l).rezone = s.rezone := rfl
@[simp] theorem State.discard_mode : (s.discard l).mode = s.mode := rfl
@[simp] theorem State.discard_strict : (s.discard l).strict = s.strict := rfl
@[simp] theorem State.discard_portA : (s.discard l).portA = s.portA := rfl
@[simp] theorem State.discard_portB : (s.discard l).portB = s.portB := rfl
@[simp] theorem State.discard_holdTimers : (s.discard l).holdTimers = s.holdTimers := rfl
@[simp] theorem State.discard_marks : (s.discard l).marks = s.marks := rfl
@[simp] theorem State.discard_clips : (s.discard l).clips = s.clips := rfl
@[simp] theorem State.discard_ages : (s.discard l).ages = s.ages := rfl
@[simp] theorem State.discard_slots : (s.discard l).slots = s.slots := rfl
@[simp] theorem State.discard_dram : (s.discard l).dram = s.dram := rfl
@[simp] theorem State.discard_channels : (s.discard l).channels = s.channels := rfl
@[simp] theorem State.discard_arbMode : (s.discard l).arbMode = s.arbMode := rfl
@[simp] theorem State.discard_pointer : (s.discard l).pointer = s.pointer := rfl
@[simp] theorem State.discard_port : (s.discard l).port = s.port := rfl
@[simp] theorem State.discard_programs : (s.discard l).programs = s.programs := rfl
@[simp] theorem State.discard_inbound : (s.discard l).inbound = s.inbound := rfl
@[simp] theorem State.discard_outbound : (s.discard l).outbound = s.outbound := rfl
@[simp] theorem State.discard_enables : (s.discard l).enables = s.enables := rfl
@[simp] theorem State.discard_lost : (s.discard l).lost = s.lost := rfl
@[simp] theorem State.discard_rejected : (s.discard l).rejected = s.rejected := rfl
@[simp] theorem State.discard_transaction : (s.discard l).transaction = s.transaction := rfl
@[simp] theorem State.discard_linkView : (s.discard l).linkView = s.linkView := rfl
@[simp] theorem State.discard_configView : (s.discard l).configView = s.configView := rfl
@[simp] theorem State.discard_stationView : (s.discard l).stationView = s.stationView := rfl
@[simp] theorem State.discard_passView : (s.discard l).passView = s.passView := rfl
@[simp] theorem State.discard_replayView : (s.discard l).replayView = s.replayView := rfl
@[simp] theorem State.discard_playView : (s.discard l).playView = s.playView := rfl
@[simp] theorem State.discard_besideBowl : (s.discard l).besideBowl = s.besideBowl := rfl

end

/-! ## updateHold -/

section
variable (i : Nat) (f : Hold → Hold)

@[simp] theorem State.updateHold_pending : (s.updateHold i f).pending = s.pending := rfl
@[simp] theorem State.updateHold_now : (s.updateHold i f).now = s.now := rfl
@[simp] theorem State.updateHold_free : (s.updateHold i f).free = s.free := rfl
@[simp] theorem State.updateHold_held : (s.updateHold i f).held = s.held := rfl
@[simp] theorem State.updateHold_linkOut : (s.updateHold i f).linkOut = s.linkOut := rfl
@[simp] theorem State.updateHold_spiOut : (s.updateHold i f).spiOut = s.spiOut := rfl
@[simp] theorem State.updateHold_part : (s.updateHold i f).part = s.part := rfl
@[simp] theorem State.updateHold_heads : (s.updateHold i f).heads = s.heads := rfl
@[simp] theorem State.updateHold_discards : (s.updateHold i f).discards = s.discards := rfl
@[simp] theorem State.updateHold_tiers : (s.updateHold i f).tiers = s.tiers := rfl
@[simp] theorem State.updateHold_unbound : (s.updateHold i f).unbound = s.unbound := rfl
@[simp] theorem State.updateHold_stations : (s.updateHold i f).stations = s.stations := rfl
@[simp] theorem State.updateHold_roam : (s.updateHold i f).roam = s.roam := rfl
@[simp] theorem State.updateHold_passes : (s.updateHold i f).passes = s.passes := rfl
@[simp] theorem State.updateHold_zones : (s.updateHold i f).zones = s.zones := rfl
@[simp] theorem State.updateHold_rezone : (s.updateHold i f).rezone = s.rezone := rfl
@[simp] theorem State.updateHold_mode : (s.updateHold i f).mode = s.mode := rfl
@[simp] theorem State.updateHold_strict : (s.updateHold i f).strict = s.strict := rfl
@[simp] theorem State.updateHold_portA : (s.updateHold i f).portA = s.portA := rfl
@[simp] theorem State.updateHold_portB : (s.updateHold i f).portB = s.portB := rfl
@[simp] theorem State.updateHold_holdTimers : (s.updateHold i f).holdTimers = s.holdTimers := rfl
@[simp] theorem State.updateHold_marks : (s.updateHold i f).marks = s.marks := rfl
@[simp] theorem State.updateHold_clips : (s.updateHold i f).clips = s.clips := rfl
@[simp] theorem State.updateHold_ages : (s.updateHold i f).ages = s.ages := rfl
@[simp] theorem State.updateHold_slots : (s.updateHold i f).slots = s.slots := rfl
@[simp] theorem State.updateHold_dram : (s.updateHold i f).dram = s.dram := rfl
@[simp] theorem State.updateHold_channels : (s.updateHold i f).channels = s.channels := rfl
@[simp] theorem State.updateHold_arbMode : (s.updateHold i f).arbMode = s.arbMode := rfl
@[simp] theorem State.updateHold_pointer : (s.updateHold i f).pointer = s.pointer := rfl
@[simp] theorem State.updateHold_port : (s.updateHold i f).port = s.port := rfl
@[simp] theorem State.updateHold_programs : (s.updateHold i f).programs = s.programs := rfl
@[simp] theorem State.updateHold_inbound : (s.updateHold i f).inbound = s.inbound := rfl
@[simp] theorem State.updateHold_outbound : (s.updateHold i f).outbound = s.outbound := rfl
@[simp] theorem State.updateHold_enables : (s.updateHold i f).enables = s.enables := rfl
@[simp] theorem State.updateHold_lost : (s.updateHold i f).lost = s.lost := rfl
@[simp] theorem State.updateHold_rejected : (s.updateHold i f).rejected = s.rejected := rfl
@[simp] theorem State.updateHold_transaction : (s.updateHold i f).transaction = s.transaction := rfl
@[simp] theorem State.updateHold_linkView : (s.updateHold i f).linkView = s.linkView := rfl
@[simp] theorem State.updateHold_configView : (s.updateHold i f).configView = s.configView := rfl
@[simp] theorem State.updateHold_passView : (s.updateHold i f).passView = s.passView := rfl
@[simp] theorem State.updateHold_replayView : (s.updateHold i f).replayView = s.replayView := rfl
@[simp] theorem State.updateHold_playView : (s.updateHold i f).playView = s.playView := rfl
@[simp] theorem State.updateHold_besideBowl : (s.updateHold i f).besideBowl = s.besideBowl := rfl

end

/-! ## dropHold -/

section
variable (i : Nat)

@[simp] theorem State.dropHold_pending : (s.dropHold i).pending = s.pending := rfl
@[simp] theorem State.dropHold_now : (s.dropHold i).now = s.now := rfl
@[simp] theorem State.dropHold_free : (s.dropHold i).free = s.free := rfl
@[simp] theorem State.dropHold_held : (s.dropHold i).held = s.held := rfl
@[simp] theorem State.dropHold_linkOut : (s.dropHold i).linkOut = s.linkOut := rfl
@[simp] theorem State.dropHold_spiOut : (s.dropHold i).spiOut = s.spiOut := rfl
@[simp] theorem State.dropHold_part : (s.dropHold i).part = s.part := rfl
@[simp] theorem State.dropHold_heads : (s.dropHold i).heads = s.heads := rfl
@[simp] theorem State.dropHold_discards : (s.dropHold i).discards = s.discards := rfl
@[simp] theorem State.dropHold_tiers : (s.dropHold i).tiers = s.tiers := rfl
@[simp] theorem State.dropHold_unbound : (s.dropHold i).unbound = s.unbound := rfl
@[simp] theorem State.dropHold_stations : (s.dropHold i).stations = s.stations := rfl
@[simp] theorem State.dropHold_roam : (s.dropHold i).roam = s.roam := rfl
@[simp] theorem State.dropHold_passes : (s.dropHold i).passes = s.passes := rfl
@[simp] theorem State.dropHold_zones : (s.dropHold i).zones = s.zones := rfl
@[simp] theorem State.dropHold_rezone : (s.dropHold i).rezone = s.rezone := rfl
@[simp] theorem State.dropHold_mode : (s.dropHold i).mode = s.mode := rfl
@[simp] theorem State.dropHold_strict : (s.dropHold i).strict = s.strict := rfl
@[simp] theorem State.dropHold_portA : (s.dropHold i).portA = s.portA := rfl
@[simp] theorem State.dropHold_portB : (s.dropHold i).portB = s.portB := rfl
@[simp] theorem State.dropHold_holdTimers : (s.dropHold i).holdTimers = s.holdTimers := rfl
@[simp] theorem State.dropHold_marks : (s.dropHold i).marks = s.marks := rfl
@[simp] theorem State.dropHold_clips : (s.dropHold i).clips = s.clips := rfl
@[simp] theorem State.dropHold_ages : (s.dropHold i).ages = s.ages := rfl
@[simp] theorem State.dropHold_slots : (s.dropHold i).slots = s.slots := rfl
@[simp] theorem State.dropHold_dram : (s.dropHold i).dram = s.dram := rfl
@[simp] theorem State.dropHold_channels : (s.dropHold i).channels = s.channels := rfl
@[simp] theorem State.dropHold_arbMode : (s.dropHold i).arbMode = s.arbMode := rfl
@[simp] theorem State.dropHold_pointer : (s.dropHold i).pointer = s.pointer := rfl
@[simp] theorem State.dropHold_port : (s.dropHold i).port = s.port := rfl
@[simp] theorem State.dropHold_programs : (s.dropHold i).programs = s.programs := rfl
@[simp] theorem State.dropHold_inbound : (s.dropHold i).inbound = s.inbound := rfl
@[simp] theorem State.dropHold_outbound : (s.dropHold i).outbound = s.outbound := rfl
@[simp] theorem State.dropHold_enables : (s.dropHold i).enables = s.enables := rfl
@[simp] theorem State.dropHold_lost : (s.dropHold i).lost = s.lost := rfl
@[simp] theorem State.dropHold_rejected : (s.dropHold i).rejected = s.rejected := rfl
@[simp] theorem State.dropHold_transaction : (s.dropHold i).transaction = s.transaction := rfl
@[simp] theorem State.dropHold_linkView : (s.dropHold i).linkView = s.linkView := rfl
@[simp] theorem State.dropHold_configView : (s.dropHold i).configView = s.configView := rfl
@[simp] theorem State.dropHold_passView : (s.dropHold i).passView = s.passView := rfl
@[simp] theorem State.dropHold_replayView : (s.dropHold i).replayView = s.replayView := rfl
@[simp] theorem State.dropHold_playView : (s.dropHold i).playView = s.playView := rfl
@[simp] theorem State.dropHold_besideBowl : (s.dropHold i).besideBowl = s.besideBowl := rfl

end

/-! ## freeSlotList -/

section
variable (xs : List Nat)

@[simp] theorem State.freeSlotList_pending : (s.freeSlotList xs).pending = s.pending := rfl
@[simp] theorem State.freeSlotList_now : (s.freeSlotList xs).now = s.now := rfl
@[simp] theorem State.freeSlotList_free : (s.freeSlotList xs).free = s.free := rfl
@[simp] theorem State.freeSlotList_held : (s.freeSlotList xs).held = s.held := rfl
@[simp] theorem State.freeSlotList_linkOut : (s.freeSlotList xs).linkOut = s.linkOut := rfl
@[simp] theorem State.freeSlotList_spiOut : (s.freeSlotList xs).spiOut = s.spiOut := rfl
@[simp] theorem State.freeSlotList_part : (s.freeSlotList xs).part = s.part := rfl
@[simp] theorem State.freeSlotList_heads : (s.freeSlotList xs).heads = s.heads := rfl
@[simp] theorem State.freeSlotList_discards : (s.freeSlotList xs).discards = s.discards := rfl
@[simp] theorem State.freeSlotList_tiers : (s.freeSlotList xs).tiers = s.tiers := rfl
@[simp] theorem State.freeSlotList_unbound : (s.freeSlotList xs).unbound = s.unbound := rfl
@[simp] theorem State.freeSlotList_stations : (s.freeSlotList xs).stations = s.stations := rfl
@[simp] theorem State.freeSlotList_roam : (s.freeSlotList xs).roam = s.roam := rfl
@[simp] theorem State.freeSlotList_holds : (s.freeSlotList xs).holds = s.holds := rfl
@[simp] theorem State.freeSlotList_passes : (s.freeSlotList xs).passes = s.passes := rfl
@[simp] theorem State.freeSlotList_zones : (s.freeSlotList xs).zones = s.zones := rfl
@[simp] theorem State.freeSlotList_rezone : (s.freeSlotList xs).rezone = s.rezone := rfl
@[simp] theorem State.freeSlotList_mode : (s.freeSlotList xs).mode = s.mode := rfl
@[simp] theorem State.freeSlotList_strict : (s.freeSlotList xs).strict = s.strict := rfl
@[simp] theorem State.freeSlotList_portA : (s.freeSlotList xs).portA = s.portA := rfl
@[simp] theorem State.freeSlotList_portB : (s.freeSlotList xs).portB = s.portB := rfl
@[simp] theorem State.freeSlotList_holdTimers : (s.freeSlotList xs).holdTimers = s.holdTimers := rfl
@[simp] theorem State.freeSlotList_marks : (s.freeSlotList xs).marks = s.marks := rfl
@[simp] theorem State.freeSlotList_clips : (s.freeSlotList xs).clips = s.clips := rfl
@[simp] theorem State.freeSlotList_ages : (s.freeSlotList xs).ages = s.ages := rfl
@[simp] theorem State.freeSlotList_dram : (s.freeSlotList xs).dram = s.dram := rfl
@[simp] theorem State.freeSlotList_channels : (s.freeSlotList xs).channels = s.channels := rfl
@[simp] theorem State.freeSlotList_arbMode : (s.freeSlotList xs).arbMode = s.arbMode := rfl
@[simp] theorem State.freeSlotList_pointer : (s.freeSlotList xs).pointer = s.pointer := rfl
@[simp] theorem State.freeSlotList_port : (s.freeSlotList xs).port = s.port := rfl
@[simp] theorem State.freeSlotList_programs : (s.freeSlotList xs).programs = s.programs := rfl
@[simp] theorem State.freeSlotList_inbound : (s.freeSlotList xs).inbound = s.inbound := rfl
@[simp] theorem State.freeSlotList_outbound : (s.freeSlotList xs).outbound = s.outbound := rfl
@[simp] theorem State.freeSlotList_enables : (s.freeSlotList xs).enables = s.enables := rfl
@[simp] theorem State.freeSlotList_lost : (s.freeSlotList xs).lost = s.lost := rfl
@[simp] theorem State.freeSlotList_rejected : (s.freeSlotList xs).rejected = s.rejected := rfl
@[simp] theorem State.freeSlotList_transaction : (s.freeSlotList xs).transaction = s.transaction := rfl
@[simp] theorem State.freeSlotList_linkView : (s.freeSlotList xs).linkView = s.linkView := rfl
@[simp] theorem State.freeSlotList_configView : (s.freeSlotList xs).configView = s.configView := rfl
@[simp] theorem State.freeSlotList_stationView : (s.freeSlotList xs).stationView = s.stationView := rfl
@[simp] theorem State.freeSlotList_passView : (s.freeSlotList xs).passView = s.passView := rfl
@[simp] theorem State.freeSlotList_playView : (s.freeSlotList xs).playView = s.playView := rfl
@[simp] theorem State.freeSlotList_besideReplay : (s.freeSlotList xs).besideReplay = s.besideReplay := rfl

end

/-! ## fillSlot -/

section
variable (slot : Nat) (payload : List Byte)

@[simp] theorem State.fillSlot_pending : (s.fillSlot slot payload).pending = s.pending := rfl
@[simp] theorem State.fillSlot_now : (s.fillSlot slot payload).now = s.now := rfl
@[simp] theorem State.fillSlot_free : (s.fillSlot slot payload).free = s.free := rfl
@[simp] theorem State.fillSlot_held : (s.fillSlot slot payload).held = s.held := rfl
@[simp] theorem State.fillSlot_linkOut : (s.fillSlot slot payload).linkOut = s.linkOut := rfl
@[simp] theorem State.fillSlot_spiOut : (s.fillSlot slot payload).spiOut = s.spiOut := rfl
@[simp] theorem State.fillSlot_part : (s.fillSlot slot payload).part = s.part := rfl
@[simp] theorem State.fillSlot_heads : (s.fillSlot slot payload).heads = s.heads := rfl
@[simp] theorem State.fillSlot_discards : (s.fillSlot slot payload).discards = s.discards := rfl
@[simp] theorem State.fillSlot_tiers : (s.fillSlot slot payload).tiers = s.tiers := rfl
@[simp] theorem State.fillSlot_unbound : (s.fillSlot slot payload).unbound = s.unbound := rfl
@[simp] theorem State.fillSlot_stations : (s.fillSlot slot payload).stations = s.stations := rfl
@[simp] theorem State.fillSlot_roam : (s.fillSlot slot payload).roam = s.roam := rfl
@[simp] theorem State.fillSlot_holds : (s.fillSlot slot payload).holds = s.holds := rfl
@[simp] theorem State.fillSlot_passes : (s.fillSlot slot payload).passes = s.passes := rfl
@[simp] theorem State.fillSlot_zones : (s.fillSlot slot payload).zones = s.zones := rfl
@[simp] theorem State.fillSlot_rezone : (s.fillSlot slot payload).rezone = s.rezone := rfl
@[simp] theorem State.fillSlot_mode : (s.fillSlot slot payload).mode = s.mode := rfl
@[simp] theorem State.fillSlot_strict : (s.fillSlot slot payload).strict = s.strict := rfl
@[simp] theorem State.fillSlot_portA : (s.fillSlot slot payload).portA = s.portA := rfl
@[simp] theorem State.fillSlot_portB : (s.fillSlot slot payload).portB = s.portB := rfl
@[simp] theorem State.fillSlot_holdTimers : (s.fillSlot slot payload).holdTimers = s.holdTimers := rfl
@[simp] theorem State.fillSlot_marks : (s.fillSlot slot payload).marks = s.marks := rfl
@[simp] theorem State.fillSlot_clips : (s.fillSlot slot payload).clips = s.clips := rfl
@[simp] theorem State.fillSlot_ages : (s.fillSlot slot payload).ages = s.ages := rfl
@[simp] theorem State.fillSlot_channels : (s.fillSlot slot payload).channels = s.channels := rfl
@[simp] theorem State.fillSlot_arbMode : (s.fillSlot slot payload).arbMode = s.arbMode := rfl
@[simp] theorem State.fillSlot_pointer : (s.fillSlot slot payload).pointer = s.pointer := rfl
@[simp] theorem State.fillSlot_port : (s.fillSlot slot payload).port = s.port := rfl
@[simp] theorem State.fillSlot_programs : (s.fillSlot slot payload).programs = s.programs := rfl
@[simp] theorem State.fillSlot_inbound : (s.fillSlot slot payload).inbound = s.inbound := rfl
@[simp] theorem State.fillSlot_outbound : (s.fillSlot slot payload).outbound = s.outbound := rfl
@[simp] theorem State.fillSlot_enables : (s.fillSlot slot payload).enables = s.enables := rfl
@[simp] theorem State.fillSlot_lost : (s.fillSlot slot payload).lost = s.lost := rfl
@[simp] theorem State.fillSlot_rejected : (s.fillSlot slot payload).rejected = s.rejected := rfl
@[simp] theorem State.fillSlot_transaction : (s.fillSlot slot payload).transaction = s.transaction := rfl
@[simp] theorem State.fillSlot_linkView : (s.fillSlot slot payload).linkView = s.linkView := rfl
@[simp] theorem State.fillSlot_configView : (s.fillSlot slot payload).configView = s.configView := rfl
@[simp] theorem State.fillSlot_stationView : (s.fillSlot slot payload).stationView = s.stationView := rfl
@[simp] theorem State.fillSlot_passView : (s.fillSlot slot payload).passView = s.passView := rfl
@[simp] theorem State.fillSlot_playView : (s.fillSlot slot payload).playView = s.playView := rfl
@[simp] theorem State.fillSlot_besideReplay : (s.fillSlot slot payload).besideReplay = s.besideReplay := rfl

end

/-! ## stopIfEmpty -/

section
variable (k : Key)

@[simp] theorem State.stopIfEmpty_pending : (s.stopIfEmpty k).pending = s.pending := rfl
@[simp] theorem State.stopIfEmpty_now : (s.stopIfEmpty k).now = s.now := rfl
@[simp] theorem State.stopIfEmpty_free : (s.stopIfEmpty k).free = s.free := rfl
@[simp] theorem State.stopIfEmpty_held : (s.stopIfEmpty k).held = s.held := rfl
@[simp] theorem State.stopIfEmpty_linkOut : (s.stopIfEmpty k).linkOut = s.linkOut := rfl
@[simp] theorem State.stopIfEmpty_spiOut : (s.stopIfEmpty k).spiOut = s.spiOut := rfl
@[simp] theorem State.stopIfEmpty_part : (s.stopIfEmpty k).part = s.part := rfl
@[simp] theorem State.stopIfEmpty_heads : (s.stopIfEmpty k).heads = s.heads := rfl
@[simp] theorem State.stopIfEmpty_discards : (s.stopIfEmpty k).discards = s.discards := rfl
@[simp] theorem State.stopIfEmpty_tiers : (s.stopIfEmpty k).tiers = s.tiers := rfl
@[simp] theorem State.stopIfEmpty_unbound : (s.stopIfEmpty k).unbound = s.unbound := rfl
@[simp] theorem State.stopIfEmpty_stations : (s.stopIfEmpty k).stations = s.stations := rfl
@[simp] theorem State.stopIfEmpty_roam : (s.stopIfEmpty k).roam = s.roam := rfl
@[simp] theorem State.stopIfEmpty_holds : (s.stopIfEmpty k).holds = s.holds := rfl
@[simp] theorem State.stopIfEmpty_passes : (s.stopIfEmpty k).passes = s.passes := rfl
@[simp] theorem State.stopIfEmpty_zones : (s.stopIfEmpty k).zones = s.zones := rfl
@[simp] theorem State.stopIfEmpty_rezone : (s.stopIfEmpty k).rezone = s.rezone := rfl
@[simp] theorem State.stopIfEmpty_mode : (s.stopIfEmpty k).mode = s.mode := rfl
@[simp] theorem State.stopIfEmpty_strict : (s.stopIfEmpty k).strict = s.strict := rfl
@[simp] theorem State.stopIfEmpty_portA : (s.stopIfEmpty k).portA = s.portA := rfl
@[simp] theorem State.stopIfEmpty_portB : (s.stopIfEmpty k).portB = s.portB := rfl
@[simp] theorem State.stopIfEmpty_marks : (s.stopIfEmpty k).marks = s.marks := rfl
@[simp] theorem State.stopIfEmpty_clips : (s.stopIfEmpty k).clips = s.clips := rfl
@[simp] theorem State.stopIfEmpty_ages : (s.stopIfEmpty k).ages = s.ages := rfl
@[simp] theorem State.stopIfEmpty_slots : (s.stopIfEmpty k).slots = s.slots := rfl
@[simp] theorem State.stopIfEmpty_dram : (s.stopIfEmpty k).dram = s.dram := rfl
@[simp] theorem State.stopIfEmpty_channels : (s.stopIfEmpty k).channels = s.channels := rfl
@[simp] theorem State.stopIfEmpty_arbMode : (s.stopIfEmpty k).arbMode = s.arbMode := rfl
@[simp] theorem State.stopIfEmpty_pointer : (s.stopIfEmpty k).pointer = s.pointer := rfl
@[simp] theorem State.stopIfEmpty_port : (s.stopIfEmpty k).port = s.port := rfl
@[simp] theorem State.stopIfEmpty_programs : (s.stopIfEmpty k).programs = s.programs := rfl
@[simp] theorem State.stopIfEmpty_inbound : (s.stopIfEmpty k).inbound = s.inbound := rfl
@[simp] theorem State.stopIfEmpty_outbound : (s.stopIfEmpty k).outbound = s.outbound := rfl
@[simp] theorem State.stopIfEmpty_enables : (s.stopIfEmpty k).enables = s.enables := rfl
@[simp] theorem State.stopIfEmpty_lost : (s.stopIfEmpty k).lost = s.lost := rfl
@[simp] theorem State.stopIfEmpty_rejected : (s.stopIfEmpty k).rejected = s.rejected := rfl
@[simp] theorem State.stopIfEmpty_transaction : (s.stopIfEmpty k).transaction = s.transaction := rfl
@[simp] theorem State.stopIfEmpty_linkView : (s.stopIfEmpty k).linkView = s.linkView := rfl
@[simp] theorem State.stopIfEmpty_configView : (s.stopIfEmpty k).configView = s.configView := rfl
@[simp] theorem State.stopIfEmpty_stationView : (s.stopIfEmpty k).stationView = s.stationView := rfl
@[simp] theorem State.stopIfEmpty_passView : (s.stopIfEmpty k).passView = s.passView := rfl
@[simp] theorem State.stopIfEmpty_playView : (s.stopIfEmpty k).playView = s.playView := rfl
@[simp] theorem State.stopIfEmpty_besideReplay : (s.stopIfEmpty k).besideReplay = s.besideReplay := rfl

end

/-! ## reply -/

section
variable (type tag : Byte) (code : Code) (content : Content)

@[simp] theorem State.reply_pending : (s.reply type tag code content).pending = s.pending := rfl
@[simp] theorem State.reply_now : (s.reply type tag code content).now = s.now := rfl
@[simp] theorem State.reply_free : (s.reply type tag code content).free = s.free := rfl
@[simp] theorem State.reply_held : (s.reply type tag code content).held = s.held := rfl
@[simp] theorem State.reply_linkOut : (s.reply type tag code content).linkOut = s.linkOut := rfl
@[simp] theorem State.reply_spiOut : (s.reply type tag code content).spiOut = s.spiOut := rfl
@[simp] theorem State.reply_part : (s.reply type tag code content).part = s.part := rfl
@[simp] theorem State.reply_heads : (s.reply type tag code content).heads = s.heads := rfl
@[simp] theorem State.reply_discards : (s.reply type tag code content).discards = s.discards := rfl
@[simp] theorem State.reply_tiers : (s.reply type tag code content).tiers = s.tiers := rfl
@[simp] theorem State.reply_unbound : (s.reply type tag code content).unbound = s.unbound := rfl
@[simp] theorem State.reply_stations : (s.reply type tag code content).stations = s.stations := rfl
@[simp] theorem State.reply_roam : (s.reply type tag code content).roam = s.roam := rfl
@[simp] theorem State.reply_holds : (s.reply type tag code content).holds = s.holds := rfl
@[simp] theorem State.reply_passes : (s.reply type tag code content).passes = s.passes := rfl
@[simp] theorem State.reply_zones : (s.reply type tag code content).zones = s.zones := rfl
@[simp] theorem State.reply_rezone : (s.reply type tag code content).rezone = s.rezone := rfl
@[simp] theorem State.reply_mode : (s.reply type tag code content).mode = s.mode := rfl
@[simp] theorem State.reply_strict : (s.reply type tag code content).strict = s.strict := rfl
@[simp] theorem State.reply_portA : (s.reply type tag code content).portA = s.portA := rfl
@[simp] theorem State.reply_portB : (s.reply type tag code content).portB = s.portB := rfl
@[simp] theorem State.reply_holdTimers : (s.reply type tag code content).holdTimers = s.holdTimers := rfl
@[simp] theorem State.reply_marks : (s.reply type tag code content).marks = s.marks := rfl
@[simp] theorem State.reply_clips : (s.reply type tag code content).clips = s.clips := rfl
@[simp] theorem State.reply_ages : (s.reply type tag code content).ages = s.ages := rfl
@[simp] theorem State.reply_slots : (s.reply type tag code content).slots = s.slots := rfl
@[simp] theorem State.reply_dram : (s.reply type tag code content).dram = s.dram := rfl
@[simp] theorem State.reply_channels : (s.reply type tag code content).channels = s.channels := rfl
@[simp] theorem State.reply_arbMode : (s.reply type tag code content).arbMode = s.arbMode := rfl
@[simp] theorem State.reply_pointer : (s.reply type tag code content).pointer = s.pointer := rfl
@[simp] theorem State.reply_port : (s.reply type tag code content).port = s.port := rfl
@[simp] theorem State.reply_programs : (s.reply type tag code content).programs = s.programs := rfl
@[simp] theorem State.reply_inbound : (s.reply type tag code content).inbound = s.inbound := rfl
@[simp] theorem State.reply_enables : (s.reply type tag code content).enables = s.enables := rfl
@[simp] theorem State.reply_lost : (s.reply type tag code content).lost = s.lost := rfl
@[simp] theorem State.reply_rejected : (s.reply type tag code content).rejected = s.rejected := rfl
@[simp] theorem State.reply_transaction : (s.reply type tag code content).transaction = s.transaction := rfl
@[simp] theorem State.reply_linkView : (s.reply type tag code content).linkView = s.linkView := rfl
@[simp] theorem State.reply_configView : (s.reply type tag code content).configView = s.configView := rfl
@[simp] theorem State.reply_stationView : (s.reply type tag code content).stationView = s.stationView := rfl
@[simp] theorem State.reply_passView : (s.reply type tag code content).passView = s.passView := rfl
@[simp] theorem State.reply_replayView : (s.reply type tag code content).replayView = s.replayView := rfl
@[simp] theorem State.reply_playView : (s.reply type tag code content).playView = s.playView := rfl

end

/-! ## offer -/

section
variable (n : Notice)

@[simp] theorem State.offer_pending : (s.offer n).pending = s.pending := rfl
@[simp] theorem State.offer_now : (s.offer n).now = s.now := rfl
@[simp] theorem State.offer_free : (s.offer n).free = s.free := rfl
@[simp] theorem State.offer_held : (s.offer n).held = s.held := rfl
@[simp] theorem State.offer_linkOut : (s.offer n).linkOut = s.linkOut := rfl
@[simp] theorem State.offer_spiOut : (s.offer n).spiOut = s.spiOut := rfl
@[simp] theorem State.offer_part : (s.offer n).part = s.part := rfl
@[simp] theorem State.offer_heads : (s.offer n).heads = s.heads := rfl
@[simp] theorem State.offer_discards : (s.offer n).discards = s.discards := rfl
@[simp] theorem State.offer_tiers : (s.offer n).tiers = s.tiers := rfl
@[simp] theorem State.offer_unbound : (s.offer n).unbound = s.unbound := rfl
@[simp] theorem State.offer_stations : (s.offer n).stations = s.stations := rfl
@[simp] theorem State.offer_roam : (s.offer n).roam = s.roam := rfl
@[simp] theorem State.offer_holds : (s.offer n).holds = s.holds := rfl
@[simp] theorem State.offer_passes : (s.offer n).passes = s.passes := rfl
@[simp] theorem State.offer_zones : (s.offer n).zones = s.zones := rfl
@[simp] theorem State.offer_rezone : (s.offer n).rezone = s.rezone := rfl
@[simp] theorem State.offer_mode : (s.offer n).mode = s.mode := rfl
@[simp] theorem State.offer_strict : (s.offer n).strict = s.strict := rfl
@[simp] theorem State.offer_portA : (s.offer n).portA = s.portA := rfl
@[simp] theorem State.offer_portB : (s.offer n).portB = s.portB := rfl
@[simp] theorem State.offer_holdTimers : (s.offer n).holdTimers = s.holdTimers := rfl
@[simp] theorem State.offer_marks : (s.offer n).marks = s.marks := rfl
@[simp] theorem State.offer_clips : (s.offer n).clips = s.clips := rfl
@[simp] theorem State.offer_ages : (s.offer n).ages = s.ages := rfl
@[simp] theorem State.offer_slots : (s.offer n).slots = s.slots := rfl
@[simp] theorem State.offer_dram : (s.offer n).dram = s.dram := rfl
@[simp] theorem State.offer_channels : (s.offer n).channels = s.channels := rfl
@[simp] theorem State.offer_arbMode : (s.offer n).arbMode = s.arbMode := rfl
@[simp] theorem State.offer_pointer : (s.offer n).pointer = s.pointer := rfl
@[simp] theorem State.offer_port : (s.offer n).port = s.port := rfl
@[simp] theorem State.offer_programs : (s.offer n).programs = s.programs := rfl
@[simp] theorem State.offer_inbound : (s.offer n).inbound = s.inbound := rfl
@[simp] theorem State.offer_enables : (s.offer n).enables = s.enables := rfl
@[simp] theorem State.offer_rejected : (s.offer n).rejected = s.rejected := rfl
@[simp] theorem State.offer_transaction : (s.offer n).transaction = s.transaction := rfl
@[simp] theorem State.offer_linkView : (s.offer n).linkView = s.linkView := rfl
@[simp] theorem State.offer_configView : (s.offer n).configView = s.configView := rfl
@[simp] theorem State.offer_stationView : (s.offer n).stationView = s.stationView := rfl
@[simp] theorem State.offer_passView : (s.offer n).passView = s.passView := rfl
@[simp] theorem State.offer_replayView : (s.offer n).replayView = s.replayView := rfl
@[simp] theorem State.offer_playView : (s.offer n).playView = s.playView := rfl

end

end Sys2Proof.Machine
end

