-- ==== Sys2Proof/Laws/Frames.lean ====
section
/-!
SUPPORT. What each shared operation leaves alone: the work of station, pass and zone commands keeps `besideBowl`, the work of
ingest and playout commands keeps `besideReplay`, and the Airtime Unit's keeps both.
-/
namespace Sys2Proof.Machine

/-! ## Reading a field out of a group -/

theorem foldl_kept {α β : Type} (v : State → α) (f : State → β → State) (h : ∀ s b, v (f s b) = v s) (l : List β) (s : State) :
    v (l.foldl f s) = v s := by
  induction l generalizing s with
  | nil => rfl
  | cons b bs ih => rw [List.foldl_cons, ih, h]

theorem besideBowl_outbound {s t : State} (h : t.besideBowl = s.besideBowl) : t.outbound = s.outbound := by
  simp only [State.besideBowl, Prod.mk.injEq] at h; exact h.2.2.2.2.2.2.1

theorem besideBowl_link {s t : State} (h : t.besideBowl = s.besideBowl) : t.linkView = s.linkView := by
  simp only [State.besideBowl, Prod.mk.injEq] at h; exact h.1

theorem besideReplay_outbound {s t : State} (h : t.besideReplay = s.besideReplay) : t.outbound = s.outbound := by
  simp only [State.besideReplay, Prod.mk.injEq] at h; exact h.2.2.2.2.2.2.1

theorem besideReplay_link {s t : State} (h : t.besideReplay = s.besideReplay) : t.linkView = s.linkView := by
  simp only [State.besideReplay, Prod.mk.injEq] at h; exact h.1

theorem linkView_inbound {s t : State} (h : t.linkView = s.linkView) : t.inbound = s.inbound := by
  simp only [State.linkView, Prod.mk.injEq] at h; exact h.2.2.2.2.1

variable (s : State)

/-! ## Airtime Unit -/

@[simp] theorem State.setAccount_besideBowl (h : HeadId) (r : Account × List Notice) :
    (s.setAccount h r).besideBowl = s.besideBowl := rfl

@[simp] theorem State.setAccount_besideReplay (h : HeadId) (r : Account × List Notice) :
    (s.setAccount h r).besideReplay = s.besideReplay := rfl

@[simp] theorem State.recompute_besideBowl (h : HeadId) : (s.recompute h).besideBowl = s.besideBowl := by
  unfold State.recompute; split <;> rfl

@[simp] theorem State.recompute_besideReplay (h : HeadId) : (s.recompute h).besideReplay = s.besideReplay := by
  unfold State.recompute; split <;> rfl

@[simp] theorem State.recomputeList_besideBowl (hs : List HeadId) : (s.recomputeList hs).besideBowl = s.besideBowl :=
  foldl_kept _ _ (fun t h => t.recompute_besideBowl h) hs s

@[simp] theorem State.recomputeList_besideReplay (hs : List HeadId) : (s.recomputeList hs).besideReplay = s.besideReplay :=
  foldl_kept _ _ (fun t h => t.recompute_besideReplay h) hs s

@[simp] theorem State.recomputeAll_besideReplay : s.recomputeAll.besideReplay = s.besideReplay :=
  s.recomputeList_besideReplay _

@[simp] theorem State.openAccount_besideBowl (h : HeadId) : (s.openAccount h).besideBowl = s.besideBowl := rfl

@[simp] theorem State.setReservation_besideBowl (i : Nat) : (s.setReservation i).besideBowl = s.besideBowl := by
  unfold State.setReservation; split
  · rfl
  · split <;> rfl

@[simp] theorem State.recomputeOf_besideBowl (i : Nat) : (s.recomputeOf i).besideBowl = s.besideBowl := by
  unfold State.recomputeOf; split <;> simp

@[simp] theorem State.settle_besideBowl (i : Nat) : (s.settle i).besideBowl = s.besideBowl := by
  unfold State.settle; dsimp only; split <;> simp

@[simp] theorem State.restoreShed_besideBowl (h : HeadId) : (s.restoreShed h).besideBowl = s.besideBowl := by
  unfold State.restoreShed; split <;> rfl

@[simp] theorem State.toVenueAt_besideReplay (c : Chan) (h : HeadId) :
    (State.toVenueAt c s h).besideReplay = s.besideReplay := by
  unfold State.toVenueAt; split
  · rfl
  · split <;> rfl

@[simp] theorem State.fromVenueAt_besideReplay (c : Chan) (h : HeadId) :
    (State.fromVenueAt c s h).besideReplay = s.besideReplay := by
  unfold State.fromVenueAt; split
  · rfl
  · split <;> rfl

@[simp] theorem State.reportLevel_besideReplay (c : Chan) (l m : Level) :
    (s.reportLevel c l m).besideReplay = s.besideReplay := by
  unfold State.reportLevel
  split
  · split
    · rfl
    · exact foldl_kept _ _ (fun t h => State.fromVenueAt_besideReplay t c h) _ _
  · split
    · exact foldl_kept _ _ (fun t h => State.toVenueAt_besideReplay t c h) _ _
    · rfl

@[simp] theorem State.deliverAt_besideReplay (c : Chan) (f : Nat → LinkFrame) (h : HeadId) :
    (State.deliverAt c f s h).besideReplay = s.besideReplay := by
  unfold State.deliverAt; split <;> rfl

@[simp] theorem State.deliver_besideReplay (c : Chan) (f : Nat → LinkFrame) : (s.deliver c f).besideReplay = s.besideReplay :=
  foldl_kept _ _ (fun t h => State.deliverAt_besideReplay t c f h) _ _

/-! ## Census -/

@[simp] theorem State.censusMove_besideBowl (z : Option ZoneId) (a b : Option PassState) :
    (s.censusMove z a b).besideBowl = s.besideBowl := rfl

@[simp] theorem State.rezoneCounts_besideBowl (st : PassState) (a b : Option ZoneId) :
    (s.rezoneCounts st a b).besideBowl = s.besideBowl := by
  unfold State.rezoneCounts; split <;> rfl

@[simp] theorem State.markStale_besideBowl (z : Option ZoneId) : (s.markStale z).besideBowl = s.besideBowl := rfl

/-! ## Members -/

@[simp] theorem State.drainCheck_besideBowl (h : HeadId) : (s.drainCheck h).besideBowl = s.besideBowl := by
  unfold State.drainCheck; split <;> rfl

@[simp] theorem State.keepChans_besideBowl (i : Nat) (k : ChanSet) : (s.keepChans i k).besideBowl = s.besideBowl := rfl

@[simp] theorem State.trim_besideBowl (i : Nat) : (s.trim i).besideBowl = s.besideBowl := by
  unfold State.trim; split <;> rfl

@[simp] theorem State.recomputeTarget_besideBowl (i : Nat) : (s.recomputeTarget i).besideBowl = s.besideBowl := by
  unfold State.recomputeTarget; split <;> simp

@[simp] theorem State.recomputeBoth_besideBowl (i : Nat) : (s.recomputeBoth i).besideBowl = s.besideBowl := by
  simp [State.recomputeBoth]

@[simp] theorem State.unbindPass_besideBowl (p : Nat) (a : PassState) : (s.unbindPass p a).besideBowl = s.besideBowl := by
  unfold State.unbindPass; split
  · rfl
  · dsimp only; split <;> rfl

@[simp] theorem State.unbindStation_besideBowl (i : Nat) : (s.unbindStation i).besideBowl = s.besideBowl := by
  simp [State.unbindStation]

@[simp] theorem State.unbind_besideBowl (p : Nat) (a : PassState) : (s.unbind p a).besideBowl = s.besideBowl := by
  unfold State.unbind; split <;> simp

@[simp] theorem State.noteHostEnd_besideBowl (x : Hold) (k : RoamEnd) : (s.noteHostEnd x k).besideBowl = s.besideBowl := by
  unfold State.noteHostEnd; split <;> rfl

@[simp] theorem State.lapse_besideBowl (i : Nat) : (s.lapse i).besideBowl = s.besideBowl := rfl

@[simp] theorem State.cancel_besideBowl (x : Hold) : (s.cancel x).besideBowl = s.besideBowl := by
  unfold State.cancel; split <;> rfl

@[simp] theorem State.releaseHold_besideBowl (x : Hold) : (s.releaseHold x).besideBowl = s.besideBowl := by
  simp [State.releaseHold]

@[simp] theorem State.undoHandover_besideBowl (x : Hold) (k : RoamEnd) : (s.undoHandover x k).besideBowl = s.besideBowl := by
  simp [State.undoHandover]

@[simp] theorem State.abortSourceLost_besideBowl (x : Hold) : (s.abortSourceLost x).besideBowl = s.besideBowl := by
  simp [State.abortSourceLost]

@[simp] theorem State.abortTargetLost_besideBowl (x : Hold) : (s.abortTargetLost x).besideBowl = s.besideBowl := by
  simp [State.abortTargetLost]

@[simp] theorem State.abortDeparture_besideBowl (x : Hold) (b : Bool) :
    (s.abortDeparture x b).besideBowl = s.besideBowl := by
  cases b <;> simp [State.abortDeparture]

@[simp] theorem State.loseMember_besideBowl (i : Nat) : (s.loseMember i).besideBowl = s.besideBowl := by
  unfold State.loseMember; split <;> simp

/-- A record's vacancy is no part of what stands beside the bowl. -/
theorem State.dropStation_besideBowl (i : Nat) :
    ({ s with stations := Table.drop s.stations i } : State).besideBowl = s.besideBowl := rfl

@[simp] theorem State.vacate_besideBowl (i : Nat) (a b : Bool) : (s.vacate i a b).besideBowl = s.besideBowl := by
  unfold State.vacate
  split
  · rfl
  · dsimp only
    have h1 : ∀ o : Option Hold, (match o with | none => s | some x => s.abortDeparture x b).besideBowl = s.besideBowl := by
      intro o; cases o <;> simp
    have h2 : ∀ (u : State) (o : Option Nat), u.besideBowl = s.besideBowl →
        (match o with | none => u | some p => u.unbindPass p .admitted).besideBowl = s.besideBowl := by
      intro u o hu; cases o <;> simp [hu]
    split
    · rw [State.dropStation_besideBowl]; exact h2 _ _ (h1 _)
    · rw [State.drainCheck_besideBowl, State.recompute_besideBowl, State.dropStation_besideBowl]
      split
      · rw [State.send_besideBowl]; exact h2 _ _ (h1 _)
      · exact h2 _ _ (h1 _)

/-! ## Roaming -/

@[simp] theorem State.startHandover_besideBowl (i : Nat) (st : Station) (g h : HeadId) (r : Int) (o : RoamOrigin) :
    (s.startHandover i st g h r o).besideBowl = s.besideBowl := by
  unfold State.startHandover; dsimp only; rw [State.send_besideBowl, State.recompute_besideBowl]; rfl

@[simp] theorem State.refuseRoam_besideBowl (i : Nat) : (s.refuseRoam i).besideBowl = s.besideBowl := rfl

@[simp] theorem State.tryCandidate_besideBowl (i : Nat) (st : Station) (g : HeadId) (c : HeadId × Int) (o : RoamOrigin) :
    (s.tryCandidate i st g c o).besideBowl = s.besideBowl := by
  unfold State.tryCandidate; split <;> simp

@[simp] theorem State.weigh_besideBowl (i : Nat) : (s.weigh i).besideBowl = s.besideBowl := by
  unfold State.weigh
  repeat' split
  all_goals first | rfl | simp

/-! ## Seat Link Controller -/

@[simp] theorem State.loseIdleMembers_besideBowl (h : HeadId) : (s.loseIdleMembers h).besideBowl = s.besideBowl :=
  foldl_kept _ _ (fun t i => t.lapse_besideBowl i) _ _

@[simp] theorem State.loseHead_besideBowl (h : HeadId) : (s.loseHead h).besideBowl = s.besideBowl := by
  unfold State.loseHead
  dsimp only
  rw [State.setHead_besideBowl, foldl_kept _ _ (fun t x => t.abortSourceLost_besideBowl x),
    foldl_kept _ _ (fun t x => t.abortTargetLost_besideBowl x), State.loseIdleMembers_besideBowl]

@[simp] theorem State.headFault_besideBowl (h : HeadId) (r : FaultReason) : (s.headFault h r).besideBowl = s.besideBowl := by
  simp [State.headFault]

@[simp] theorem State.hearHead_besideBowl (h : HeadId) : (s.hearHead h).besideBowl = s.besideBowl := rfl

@[simp] theorem State.headToDark_besideBowl (h : HeadId) : (s.headToDark h).besideBowl = s.besideBowl := rfl

@[simp] theorem State.missHeartbeat_besideBowl (h : HeadId) : (s.missHeartbeat h).besideBowl = s.besideBowl := by
  unfold State.missHeartbeat
  dsimp only
  split
  · rfl
  · split <;> simp

theorem State.handOn_besideBowl (h : HeadId) (work : State → State) (hw : ∀ t, (work t).besideBowl = t.besideBowl) :
    (s.handOn h work).besideBowl = s.besideBowl := by
  unfold State.handOn; split
  · rfl
  · exact hw s

theorem State.forMember_besideBowl (h : HeadId) (a : StationAddress) (work : Nat → Station → State)
    (hw : ∀ i st, (work i st).besideBowl = s.besideBowl) : (s.forMember h a work).besideBowl = s.besideBowl := by
  unfold State.forMember
  split
  · rfl
  · split
    · rfl
    · split
      · exact hw _ _
      · rfl

/-! ## Station frames -/

@[simp] theorem State.declineAssoc_besideBowl (h : HeadId) (a : StationAddress) (c : Code) :
    (s.declineAssoc h a c).besideBowl = s.besideBowl := rfl

@[simp] theorem State.associate_besideBowl (h : HeadId) (a : StationAddress) (r : Int) :
    (s.associate h a r).besideBowl = s.besideBowl := by
  unfold State.associate
  split
  · rfl
  · split
    · rfl
    · split <;> simp

@[simp] theorem State.returnStation_besideBowl (h : HeadId) (i : Nat) (st : Station) (r : Int) :
    (s.returnStation h i st r).besideBowl = s.besideBowl := by
  unfold State.returnStation
  split
  · rfl
  · split
    · dsimp only; split <;> simp
    · rfl

@[simp] theorem State.directMove_besideBowl (g h : HeadId) (i : Nat) (st : Station) (r : Int) :
    (s.directMove g h i st r).besideBowl = s.besideBowl := by
  unfold State.directMove
  split
  · rfl
  · split <;> simp

@[simp] theorem State.assocRequest_besideBowl (h : HeadId) (a : StationAddress) (r : Int) :
    (s.assocRequest h a r).besideBowl = s.besideBowl := by
  unfold State.assocRequest
  repeat' split
  all_goals first | rfl | simp

@[simp] theorem State.takeRssi_besideBowl (h : HeadId) (i : Nat) (st : Station) (r : Int) :
    (s.takeRssi h i st r).besideBowl = s.besideBowl := by
  unfold State.takeRssi; dsimp only; split <;> simp

@[simp] theorem State.report_besideBowl (h : HeadId) (r : Int) (cs : List (Nat × Int)) (i : Nat)
    (st : Station) : (s.report h r cs i st).besideBowl = s.besideBowl := by
  unfold State.report; dsimp only; split <;> simp

@[simp] theorem State.join_besideBowl (h : HeadId) (chan i : Nat) (st : Station) :
    (s.join h chan i st).besideBowl = s.besideBowl := by
  unfold State.join
  dsimp only
  repeat' split
  all_goals first | rfl | simp

@[simp] theorem State.leave_besideBowl (h : HeadId) (chan i : Nat) (st : Station) :
    (s.leave h chan i st).besideBowl = s.besideBowl := by
  unfold State.leave
  dsimp only
  rw [State.send_besideBowl]
  repeat' split
  all_goals first | rfl | simp

/-! ## Handovers -/

@[simp] theorem State.lateAnswer_besideBowl (h : HeadId) (a : StationAddress) (i : Nat) :
    (s.lateAnswer h a i).besideBowl = s.besideBowl := rfl

@[simp] theorem State.land_besideBowl (i : Nat) (st : Station) (x : Hold) : (s.land i st x).besideBowl = s.besideBowl := by
  simp [State.land]

@[simp] theorem State.retryCapped_besideBowl (h : HeadId) : (s.retryCapped h).besideBowl = s.besideBowl :=
  foldl_kept _ _ (fun t i => t.settle_besideBowl i) _ _

/-! ## Binding -/

@[simp] theorem State.suspectIf_besideBowl (p : Nat) (q : Pass) (b : Bool) (c : SuspectCause) :
    (s.suspectIf p q b c).besideBowl = s.besideBowl := by
  unfold State.suspectIf; split <;> rfl

@[simp] theorem State.bindStation_besideBowl (i p : Nat) (st : Station) :
    (s.bindStation i p st).besideBowl = s.besideBowl := by
  simp [State.bindStation]

@[simp] theorem State.bind_besideBowl (i p : Nat) (st : Station) (q : Pass) : (s.bind i p st q).besideBowl = s.besideBowl := by
  simp [State.bind]

@[simp] theorem State.transfer_besideBowl (i p j : Nat) (st : Station) (q : Pass) :
    (s.transfer i p j st q).besideBowl = s.besideBowl := by
  simp [State.transfer]

@[simp] theorem State.conflict_besideBowl (p : Nat) (q : Pass) : (s.conflict p q).besideBowl = s.besideBowl := by
  unfold State.conflict; split <;> simp

@[simp] theorem State.bindRequest_besideBowl (h : HeadId) (n : PassNumber) (i : Nat) (st : Station) :
    (s.bindRequest h n i st).besideBowl = s.besideBowl := by
  unfold State.bindRequest
  dsimp only
  repeat' split
  all_goals first | rfl | simp

@[simp] theorem State.unbindRequest_besideBowl (h : HeadId) (i : Nat) (st : Station) :
    (s.unbindRequest h i st).besideBowl = s.besideBowl := by
  unfold State.unbindRequest; split <;> simp

/-! ## Cue Controller -/

@[simp] theorem State.use_besideReplay (i : Nat) : (s.use i).besideReplay = s.besideReplay := rfl

@[simp] theorem State.unuse_besideReplay (i : Nat) : (s.unuse i).besideReplay = s.besideReplay := rfl

@[simp] theorem State.startEntry_besideReplay (c : Chan) (l : Level) (p : Pending) :
    (s.startEntry c l p).besideReplay = s.besideReplay := by
  unfold State.startEntry
  dsimp only
  split
  · simp
  · split <;> simp

@[simp] theorem State.makePending_besideReplay (c : Chan) (l : Level) (p : Pending) :
    (s.makePending c l p).besideReplay = s.besideReplay := by
  unfold State.makePending; dsimp only; split <;> rfl

@[simp] theorem State.requestEntry_besideReplay (c : Chan) (l : Level) (p : Pending) :
    (s.requestEntry c l p).besideReplay = s.besideReplay := by
  unfold State.requestEntry; dsimp only; split <;> simp

@[simp] theorem State.choose_besideReplay (c : Chan) (l : Level) : (s.choose c l).besideReplay = s.besideReplay := by
  unfold State.choose
  dsimp only
  split
  · simp
  · split <;> simp

@[simp] theorem State.weighPending_besideReplay (c : Chan) : (s.weighPending c).besideReplay = s.besideReplay := by
  unfold State.weighPending; split <;> simp

@[simp] theorem State.autoCue_besideReplay (i : Nat) (p : Program) : (s.autoCue i p).besideReplay = s.besideReplay :=
  foldl_kept _ _ (fun t c => t.requestEntry_besideReplay c _ _) _ _

/-! ## Playout Unit -/

@[simp] theorem State.grant_besideReplay : s.grant.besideReplay = s.besideReplay := by
  unfold State.grant
  split
  · split <;> rfl
  · rfl

@[simp] theorem State.requestRead_besideReplay (c : Chan) (l : Level) (i n : Nat) :
    (s.requestRead c l i n).besideReplay = s.besideReplay := by
  simp [State.requestRead]

@[simp] theorem State.underrun_besideReplay (c : Chan) (n : Nat) : (s.underrun c n).besideReplay = s.besideReplay := by
  simp [State.underrun]

@[simp] theorem State.endEntry_besideReplay (c : Chan) (l : Level) (e : InService) :
    (s.endEntry c l e).besideReplay = s.besideReplay := by
  simp [State.endEntry]

theorem State.serveAt_besideReplay (c : Chan) (l : Level) (e : InService) (k : Clip) (f : State → State)
    (hf : ∀ t, (f t).besideReplay = t.besideReplay) : (s.serveAt c l e k f).besideReplay = s.besideReplay := by
  unfold State.serveAt
  split
  · simp
  · split
    · exact hf s
    · simp

@[simp] theorem State.atEntryEnd_besideReplay (c : Chan) (l : Level) (e : InService) (k : Clip) :
    (State.atEntryEnd c l e k s).besideReplay = s.besideReplay := by
  unfold State.atEntryEnd
  split
  · dsimp only
    rw [State.serveAt_besideReplay _ _ _ _ _ _ fun t => t.endEntry_besideReplay c l _, State.setChannel_besideReplay]
  · simp

@[simp] theorem State.serveCurrent_besideReplay (c : Chan) : (s.serveCurrent c).besideReplay = s.besideReplay := by
  unfold State.serveCurrent
  split
  · rfl
  · split
    · rfl
    · split
      · rfl
      · split
        · simp
        · exact State.serveAt_besideReplay _ _ _ _ _ _ fun t => t.atEntryEnd_besideReplay c _ _ _

@[simp] theorem State.deliverSegment_besideReplay (c : Chan) (r : Read) :
    (s.deliverSegment c r).besideReplay = s.besideReplay := by
  unfold State.deliverSegment
  dsimp only
  split <;> simp

/-! ## Clip Store -/

@[simp] theorem State.vacateClip_besideReplay (i : Nat) : (s.vacateClip i).besideReplay = s.besideReplay := by
  unfold State.vacateClip; split <;> rfl

@[simp] theorem State.evict_besideReplay (b : Bool) : (s.evict b).besideReplay = s.besideReplay := by
  unfold State.evict; split <;> simp

@[simp] theorem State.roomForSlot_besideReplay : s.roomForSlot.besideReplay = s.besideReplay := by
  unfold State.roomForSlot; split <;> simp

@[simp] theorem State.roomForClip_besideReplay : s.roomForClip.besideReplay = s.besideReplay := by
  unfold State.roomForClip; split <;> simp

@[simp] theorem State.releaseAt_besideReplay (p : Port) (pick : HeldSegment → Bool) (f : Nat → PortCounts → PortCounts) :
    (s.releaseAt p pick f).besideReplay = s.besideReplay := by
  simp [State.releaseAt]

@[simp] theorem State.release_besideReplay (k : Key) (pick : HeldSegment → Bool) :
    (s.release k pick).besideReplay = s.besideReplay := by
  simp [State.release]

@[simp] theorem State.releaseKey_besideReplay (k : Key) : (s.releaseKey k).besideReplay = s.besideReplay := by
  simp [State.releaseKey]

@[simp] theorem State.releaseDuplicates_besideReplay (k : Key) (n : Nat) :
    (s.releaseDuplicates k n).besideReplay = s.besideReplay := by
  simp [State.releaseDuplicates]

@[simp] theorem State.tally_besideReplay (p : Port) (f : PortCounts → PortCounts) :
    (s.tally p f).besideReplay = s.besideReplay := by
  simp [State.tally]

@[simp] theorem State.dropUnplaced_besideReplay (p : Port) : (s.dropUnplaced p).besideReplay = s.besideReplay := by
  simp [State.dropUnplaced]

@[simp] theorem State.dropForeign_besideReplay (p : Port) : (s.dropForeign p).besideReplay = s.besideReplay := by
  simp [State.dropForeign]

@[simp] theorem State.dropDuplicate_besideReplay (p : Port) : (s.dropDuplicate p).besideReplay = s.besideReplay := by
  simp [State.dropDuplicate]

@[simp] theorem State.damage_besideReplay (i : Nat) (k : Clip) (c : DamageCause) :
    (s.damage i k c).besideReplay = s.besideReplay := by
  simp [State.damage]

@[simp] theorem State.readyTest_besideReplay (i : Nat) : (s.readyTest i).besideReplay = s.besideReplay := by
  unfold State.readyTest
  split
  · rfl
  · split <;> simp

@[simp] theorem State.drain_besideReplay (i n : Nat) : (State.drain i n s).besideReplay = s.besideReplay := by
  induction n generalizing s with
  | zero => rfl
  | succ n ih =>
    unfold State.drain
    split
    · rfl
    · split
      · rfl
      · rw [ih]; simp [State.drainOne]

@[simp] theorem State.settleClip_besideReplay (i : Nat) : (s.settleClip i).besideReplay = s.besideReplay := by
  unfold State.settleClip; dsimp only; split <;> simp

/-! ## Ingest Unit -/

@[simp] theorem State.cannotHold_besideReplay (p : Port) (k : Key) (c : Option (Nat × Clip)) (d : DamageCause) :
    (s.cannotHold p k c d).besideReplay = s.besideReplay := by
  unfold State.cannotHold; split <;> simp

@[simp] theorem State.holdIn_besideReplay (p : Port) (f : SegmentFrame) (n : Nat) :
    (s.holdIn p f n).besideReplay = s.besideReplay := by
  unfold State.holdIn; dsimp only; rw [State.updateIngest_besideReplay, State.fillSlot_besideReplay]; rfl

@[simp] theorem State.hold_besideReplay (p : Port) (f : SegmentFrame) (c : Option (Nat × Clip)) :
    (s.hold p f c).besideReplay = s.besideReplay := by
  unfold State.hold
  split
  · simp
  · dsimp only; split <;> simp

@[simp] theorem State.append_besideReplay (p : Port) (f : SegmentFrame) (i : Nat) (k : Clip) :
    (s.append p f i k).besideReplay = s.besideReplay := by
  unfold State.append; dsimp only; split <;> simp

@[simp] theorem State.early_besideReplay (p : Port) (f : SegmentFrame) (i : Nat) (k : Clip) :
    (s.early p f i k).besideReplay = s.besideReplay := by
  unfold State.early
  split
  · split <;> simp
  · simp

@[simp] theorem State.place_besideReplay (p : Port) (f : SegmentFrame) (i : Nat) (k : Clip) :
    (s.place p f i k).besideReplay = s.besideReplay := by
  unfold State.place
  split
  · simp
  · split
    · simp
    · split
      · split <;> simp
      · simp

@[simp] theorem State.closeConflict_besideReplay (p : Port) (f : SegmentFrame) (i : Nat) (k : Clip) :
    (s.closeConflict p f i k).besideReplay = s.besideReplay := by
  unfold State.closeConflict; split <;> simp

@[simp] theorem State.afterClose_besideReplay (p : Port) (f : SegmentFrame) (i : Nat) :
    (s.afterClose p f i).besideReplay = s.besideReplay := by
  unfold State.afterClose
  split
  · rfl
  · split <;> simp

@[simp] theorem State.closeAndPlace_besideReplay (p : Port) (f : SegmentFrame) (i : Nat) (k : Clip) :
    (s.closeAndPlace p f i k).besideReplay = s.besideReplay := by
  unfold State.closeAndPlace
  split
  · split
    · split <;> simp
    · split <;> simp
  · split <;> simp

@[simp] theorem State.handleFrame_besideReplay (p : Port) (f : SegmentFrame) :
    (s.handleFrame p f).besideReplay = s.besideReplay := by
  unfold State.handleFrame
  split
  · split <;> simp
  · split
    · rfl
    · split
      · simp
      · split <;> simp

@[simp] theorem State.refuseOpen_besideReplay (p : Port) (k : Key) : (s.refuseOpen p k).besideReplay = s.besideReplay := by
  unfold State.refuseOpen
  dsimp only
  rw [State.note_besideReplay, State.releaseKey_besideReplay]
  exact s.dropUnplaced_besideReplay p

@[simp] theorem State.openClip_besideReplay (i : Nat) (p : Port) (k : Key) :
    (s.openClip i p k).besideReplay = s.besideReplay := by
  unfold State.openClip; rfl

@[simp] theorem State.openFrame_besideReplay (p : Port) (f : SegmentFrame) :
    (s.openFrame p f).besideReplay = s.besideReplay := by
  unfold State.openFrame; dsimp only; split <;> simp

@[simp] theorem State.takeOpen_besideReplay (p : Port) (f : SegmentFrame) :
    (s.takeOpen p f).besideReplay = s.besideReplay := by
  unfold State.takeOpen
  split
  · simp
  · split
    · simp
    · split <;> simp

@[simp] theorem State.takeSegment_besideReplay (p : Port) (f : SegmentFrame) :
    (s.takeSegment p f).besideReplay = s.besideReplay := by
  unfold State.takeSegment
  split
  · simp
  · split <;> simp

@[simp] theorem State.goodFrame_besideReplay (p : Port) (f : SegmentFrame) (b : Bool) :
    (s.goodFrame p f b).besideReplay = s.besideReplay := by
  unfold State.goodFrame; dsimp only; split <;> simp

@[simp] theorem State.holdTimeout_besideReplay (k : Key) : (s.holdTimeout k).besideReplay = s.besideReplay := by
  unfold State.holdTimeout
  split
  · simp
  · split
    · rfl
    · split <;> simp

end Sys2Proof.Machine
end

