-- ==== Sys2Proof/Laws/Link.lean ====
section
/-!
SUPPORT. The laws of the outbound queue and of taking a request: what flush, serve and takeRequest can do.
-/
namespace Sys2Proof.Machine

/-- With no notice held, an event's end changes nothing. -/
theorem State.flush_of_held_nil {s : State} (h : s.held = []) : s.flush = s := by
  unfold State.flush; rw [h]
  cases s; simp_all

@[simp] theorem State.flush_held (s : State) : s.flush.held = [] := by
  unfold State.flush
  exact (foldl_kept (fun t => t.held) _ (fun t n => t.offer_held n) _ _).trans rfl

/-- What an event's end leaves alone: every field but the held notices, the outbound queue and notices lost. -/
theorem State.flush_eq (s : State) :
    s.flush = { s with held := [], outbound := s.flush.outbound, lost := s.flush.lost } := by
  unfold State.flush
  generalize s.held = ns
  have key : ∀ (ns : List Notice) (t : State),
      ns.foldl State.offer t =
        { t with outbound := (ns.foldl State.offer t).outbound, lost := (ns.foldl State.offer t).lost } := by
    intro ns
    induction ns with
    | nil => intro t; rfl
    | cons n ns ih => intro t; rw [List.foldl_cons, ih]; rfl
  rw [key]

theorem offer_foldl_outbound (ns : List Notice) (s : State) :
    (ns.foldl State.offer s).outbound = s.outbound ++ (ns.take (60 - s.outbound.length)).map .notice := by
  induction ns generalizing s with
  | nil => simp
  | cons n ns ih =>
    rw [List.foldl_cons, ih]
    unfold State.offer
    by_cases h : s.outbound.length < 60
    · obtain ⟨m, hm⟩ : ∃ m, 60 - s.outbound.length = m + 1 := ⟨59 - s.outbound.length, by omega⟩
      have hm' : 60 - (s.outbound.length + 1) = m := by omega
      simp [h, hm, hm']
    · have : 60 - s.outbound.length = 0 := by omega
      simp [h, this]

/-- At an event's end as many of its notices are placed as find the queue below 60 frames (R190). -/
theorem State.flush_outbound (s : State) :
    s.flush.outbound = s.outbound ++ (s.held.take (60 - s.outbound.length)).map .notice :=
  offer_foldl_outbound s.held { s with held := [] }

theorem State.flush_outbound_length {s : State} (h : s.outbound.length ≤ 64) : s.flush.outbound.length ≤ 64 := by
  rw [State.flush_outbound]; simp; omega

@[simp] theorem State.flush_linkView (s : State) : s.flush.linkView = s.linkView := by rw [State.flush_eq]; rfl
@[simp] theorem State.flush_configView (s : State) : s.flush.configView = s.configView := by rw [State.flush_eq]; rfl
@[simp] theorem State.flush_stationView (s : State) : s.flush.stationView = s.stationView := by rw [State.flush_eq]; rfl
@[simp] theorem State.flush_passView (s : State) : s.flush.passView = s.passView := by rw [State.flush_eq]; rfl
@[simp] theorem State.flush_replayView (s : State) : s.flush.replayView = s.replayView := by rw [State.flush_eq]; rfl
@[simp] theorem State.flush_playView (s : State) : s.flush.playView = s.playView := by rw [State.flush_eq]; rfl
@[simp] theorem State.flush_heads (s : State) : s.flush.heads = s.heads := by rw [State.flush_eq]
@[simp] theorem State.flush_stations (s : State) : s.flush.stations = s.stations := by rw [State.flush_eq]
@[simp] theorem State.flush_holds (s : State) : s.flush.holds = s.holds := by rw [State.flush_eq]
@[simp] theorem State.flush_passes (s : State) : s.flush.passes = s.passes := by rw [State.flush_eq]
@[simp] theorem State.flush_zones (s : State) : s.flush.zones = s.zones := by rw [State.flush_eq]
@[simp] theorem State.flush_rezone (s : State) : s.flush.rezone = s.rezone := by rw [State.flush_eq]
@[simp] theorem State.flush_linkOut (s : State) : s.flush.linkOut = s.linkOut := by rw [State.flush_eq]
@[simp] theorem State.flush_discards (s : State) : s.flush.discards = s.discards := by rw [State.flush_eq]
@[simp] theorem State.flush_now (s : State) : s.flush.now = s.now := by rw [State.flush_eq]
@[simp] theorem State.flush_inbound (s : State) : s.flush.inbound = s.inbound := by rw [State.flush_eq]
@[simp] theorem State.flush_clips (s : State) : s.flush.clips = s.clips := by rw [State.flush_eq]
@[simp] theorem State.flush_slots (s : State) : s.flush.slots = s.slots := by rw [State.flush_eq]
@[simp] theorem State.flush_dram (s : State) : s.flush.dram = s.dram := by rw [State.flush_eq]
@[simp] theorem State.flush_channels (s : State) : s.flush.channels = s.channels := by rw [State.flush_eq]

/-- What taking a request gives: the outbound queue has a place, and the request stood alone or at the head of the inbound
queue, which it leaves (R189, log 3). -/
theorem State.takeRequest_eq_some {s u : State} {type tag : Byte} (h : s.takeRequest type tag = some u) :
    s.outbound.length < 64 ∧
      (s.inbound = [] ∧ u = s ∨
        ∃ g rest, s.inbound = g :: rest ∧ g.good = true ∧ g.type = type ∧ g.tag = tag ∧ u = { s with inbound := rest }) := by
  unfold State.takeRequest at h
  split at h
  · cases h
  · next full =>
    refine ⟨by omega, ?_⟩
    split at h
    · next e => cases h; exact .inl ⟨e, rfl⟩
    · next g rest e =>
      split at h
      · next c => cases h; exact .inr ⟨g, rest, e, c.1, c.2.1, c.2.2, rfl⟩
      · cases h

/-- A request that is not taken has no effect (R189, log 3). -/
theorem State.serve_of_not_taken {s : State} {f : Req} {type : Byte} {work : State → Served} {wrong : State → Content}
    (h : s.takeRequest type f.tag = none) : s.serve f type work wrong = s := by
  simp [State.serve, h]

/-- A request that is taken and fits: its work is done, its reply placed, and the notices of its work offered behind it
(R189). -/
theorem State.serve_of_taken {s u : State} {f : Req} {type : Byte} {work : State → Served} {wrong : State → Content}
    (h : s.takeRequest type f.tag = some u) (fits : f.fits = true) :
    s.serve f type work wrong = ((work u).state.reply type f.tag (work u).code (work u).content).flush := by
  simp [State.serve, h, fits]

/-- A request that is taken and does not fit draws RANGE (R189). -/
theorem State.serve_of_wrong {s u : State} {f : Req} {type : Byte} {work : State → Served} {wrong : State → Content}
    (h : s.takeRequest type f.tag = some u) (fits : f.fits = false) :
    s.serve f type work wrong = (u.reply type f.tag .range (wrong u)).flush := by
  simp [State.serve, h, fits]

/-- A taken request leaves no notice held. -/
theorem State.Takes.held {s u : State} {type : Byte} {f : Req} (h : s.Takes type f u) : u.held = [] := by
  obtain ⟨h1, -, h3⟩ := h
  obtain ⟨-, ⟨-, rfl⟩ | ⟨g, rest, -, -, -, -, rfl⟩⟩ := State.takeRequest_eq_some h1
  · exact h3
  · exact h3

/-- A served request whose work produces no notice: its reply stands last in the outbound queue. -/
theorem State.serve_of_takes {s u : State} {f : Req} {type : Byte} {work : State → Served} {wrong : State → Content}
    (h : s.Takes type f u) (quiet : (work u).state.held = []) :
    s.serve f type work wrong = (work u).state.reply type f.tag (work u).code (work u).content := by
  rw [State.serve_of_taken h.1 h.2.1, State.flush_of_held_nil]
  simpa using quiet

end Sys2Proof.Machine
end

