-- ==== Sys2Proof/Laws/PerInstr.lean ====
section
/-!
SUPPORT. A law of every command as syntax: a request's type lies within the catalogue's 0x01–0x22 (R189, R195).
-/
namespace Sys2Proof.Laws.RequestType

/-- A command that is a request has a type of 0x01–0x22. -/
def Statement (i : Instr) : Prop := ∀ t f, i.request? = some (t, f) → 0x01#8 ≤ t ∧ t ≤ 0x22#8

/-- The law of a request, from its type. -/
theorem bounded {i : Instr} {t : Byte} {f : Req} (h : i.request? = some (t, f)) (lo : 0x01#8 ≤ t) (hi : t ≤ 0x22#8) :
    Statement i := by
  intro u g hu
  cases h.symm.trans hu
  exact ⟨lo, hi⟩

/-- The law of a command that is no request. -/
theorem absent {i : Instr} (h : i.request? = none) : Statement i := by
  intro u g hu
  cases h.symm.trans hu

theorem powerOn : Statement (.powerOn) := absent rfl
theorem announce (h) : Statement (.announce h) := absent rfl
theorem heartbeat (h) : Statement (.heartbeat h) := absent rfl
theorem supervisionTimerExpiry (h) : Statement (.supervisionTimerExpiry h) := absent rfl
theorem setupDone (h) : Statement (.setupDone h) := absent rfl
theorem startTimerExpiry (h) : Statement (.startTimerExpiry h) := absent rfl
theorem seatLinkFrameDiscarded (link) : Statement (.seatLinkFrameDiscarded link) := absent rfl
theorem assocReq (h addr rssi) : Statement (.assocReq h addr rssi) := absent rfl
theorem disassoc (h addr) : Statement (.disassoc h addr) := absent rfl
theorem lost (h addr) : Statement (.lost h addr) := absent rfl
theorem stationReport (h addr rssi cands) : Statement (.stationReport h addr rssi cands) := absent rfl
theorem joinReq (h addr chan) : Statement (.joinReq h addr chan) := absent rfl
theorem leaveReq (h addr chan) : Statement (.leaveReq h addr chan) := absent rfl
theorem bindReq (h addr pass) : Statement (.bindReq h addr pass) := absent rfl
theorem unbindReq (h addr) : Statement (.unbindReq h addr) := absent rfl
theorem ready (h addr index) : Statement (.ready h addr index) := absent rfl
theorem decline (h addr index) : Statement (.decline h addr index) := absent rfl
theorem lapseTimerExpiry (index) : Statement (.lapseTimerExpiry index) := absent rfl
theorem handoverTimerExpiry (index) : Statement (.handoverTimerExpiry index) := absent rfl
theorem windowTimerExpiry (h) : Statement (.windowTimerExpiry h) := absent rfl
theorem segmentFrame (port bytes) : Statement (.segmentFrame port bytes) := absent rfl
theorem holdTimerExpiry (key) : Statement (.holdTimerExpiry key) := absent rfl
theorem paceTimerExpiry (c) : Statement (.paceTimerExpiry c) := absent rfl
theorem readCompletion : Statement (.readCompletion) := absent rfl
theorem rezoneVisit : Statement (.rezoneVisit) := absent rfl
theorem transactionBegin : Statement (.transactionBegin) := absent rfl
theorem transactionEnd (bytes) : Statement (.transactionEnd bytes) := absent rfl
theorem badFrame : Statement (.badFrame) := absent rfl
theorem unknownRequestType : Statement (.unknownRequestType) := absent rfl
theorem hello (f) : Statement (.hello f) := bounded rfl (by decide) (by decide)
theorem start (f) : Statement (.start f) := bounded rfl (by decide) (by decide)
theorem restart (f) : Statement (.restart f) := bounded rfl (by decide) (by decide)
theorem noticeEnable (f andMask orMask) : Statement (.noticeEnable f andMask orMask) := bounded rfl (by decide) (by decide)
theorem tierSet (f row) : Statement (.tierSet f row) := bounded rfl (by decide) (by decide)
theorem roamSet (f hysteresis dwell lapse pub) : Statement (.roamSet f hysteresis dwell lapse pub) := bounded rfl (by decide) (by decide)
theorem headSetupPart1 (f head radio step) : Statement (.headSetupPart1 f head radio step) := bounded rfl (by decide) (by decide)
theorem headSetupPart2 (f head cap floor) : Statement (.headSetupPart2 f head cap floor) := bounded rfl (by decide) (by decide)
theorem headSetupPart3 (f head neighbours) : Statement (.headSetupPart3 f head neighbours) := bounded rfl (by decide) (by decide)
theorem headControlStart (f head known) : Statement (.headControlStart f head known) := bounded rfl (by decide) (by decide)
theorem headControlDrain (f head known) : Statement (.headControlDrain f head known) := bounded rfl (by decide) (by decide)
theorem headControlStop (f head known) : Statement (.headControlStop f head known) := bounded rfl (by decide) (by decide)
theorem headLimits (f head cap floor) : Statement (.headLimits f head cap floor) := bounded rfl (by decide) (by decide)
theorem headQuery (f head) : Statement (.headQuery f head) := bounded rfl (by decide) (by decide)
theorem headStats (f head) : Statement (.headStats f head) := bounded rfl (by decide) (by decide)
theorem stationQuery (f station) : Statement (.stationQuery f station) := bounded rfl (by decide) (by decide)
theorem stationMove (f index target) : Statement (.stationMove f index target) := bounded rfl (by decide) (by decide)
theorem stationEvict (f index) : Statement (.stationEvict f index) := bounded rfl (by decide) (by decide)
theorem passLoad (f entries) : Statement (.passLoad f entries) := bounded rfl (by decide) (by decide)
theorem passAmend (f number tier seat declared) : Statement (.passAmend f number tier seat declared) := bounded rfl (by decide) (by decide)
theorem passVoid (f number) : Statement (.passVoid f number) := bounded rfl (by decide) (by decide)
theorem passDrop (f number) : Statement (.passDrop f number) := bounded rfl (by decide) (by decide)
theorem passQuery (f pass) : Statement (.passQuery f pass) := bounded rfl (by decide) (by decide)
theorem gateScan (f number gate dir) : Statement (.gateScan f number gate dir) := bounded rfl (by decide) (by decide)
theorem zoneSet (f zone spec) : Statement (.zoneSet f zone spec) := bounded rfl (by decide) (by decide)
theorem zoneQuery (f zone) : Statement (.zoneQuery f zone) := bounded rfl (by decide) (by decide)
theorem censusLatch (f zones) : Statement (.censusLatch f zones) := bounded rfl (by decide) (by decide)
theorem censusRead (f zone) : Statement (.censusRead f zone) := bounded rfl (by decide) (by decide)
theorem ingestMode (f mode strict) : Statement (.ingestMode f mode strict) := bounded rfl (by decide) (by decide)
theorem programSet (f program level auto loop) : Statement (.programSet f program level auto loop) := bounded rfl (by decide) (by decide)
theorem channelSetup (f chan pace rated mode) : Statement (.channelSetup f chan pace rated mode) := bounded rfl (by decide) (by decide)
theorem channelEnable (f andMask orMask) : Statement (.channelEnable f andMask orMask) := bounded rfl (by decide) (by decide)
theorem play (f chan clip level base count loop) : Statement (.play f chan clip level base count loop) := bounded rfl (by decide) (by decide)
theorem stop (f chan levels) : Statement (.stop f chan levels) := bounded rfl (by decide) (by decide)
theorem channelStatus (f chan) : Statement (.channelStatus f chan) := bounded rfl (by decide) (by decide)
theorem clipQuery (f clip) : Statement (.clipQuery f clip) := bounded rfl (by decide) (by decide)
theorem clipPin (f clip pin) : Statement (.clipPin f clip pin) := bounded rfl (by decide) (by decide)
theorem clipRetire (f clip) : Statement (.clipRetire f clip) := bounded rfl (by decide) (by decide)

end Sys2Proof.Laws.RequestType
end

