-- ==== Sys2Proof/Laws/Table.lean ====
section
/-!
SUPPORT. The laws of sparse tables and of the stacked DRAM: reading after a write, canonical forms kept, lowest vacant index.
-/
namespace Sys2Proof.Machine

variable {α : Type}

/-! ## Tables -/

theorem Table.get_put_self (t : Table α) (i : Nat) (x : α) : Table.get (Table.put t i x) i = some x := by
  induction t with
  | nil => simp [Table.put, Table.get]
  | cons p t ih =>
    obtain ⟨j, y⟩ := p
    simp only [Table.put]
    split
    · simp [Table.get]
    · split
      · simp [Table.get]
      · next h => simp [Table.get, Ne.symm h, ih]

theorem Table.get_put_other (t : Table α) {i k : Nat} (x : α) (h : k ≠ i) :
    Table.get (Table.put t i x) k = Table.get t k := by
  induction t with
  | nil => simp [Table.put, Table.get, h.symm]
  | cons p t ih =>
    obtain ⟨j, y⟩ := p
    simp only [Table.put]
    split
    · simp [Table.get, h.symm]
    · split
      · next e => subst e; simp [Table.get, h.symm]
      · simp only [Table.get, ih]

theorem Table.get_put (t : Table α) (i k : Nat) (x : α) :
    Table.get (Table.put t i x) k = if k = i then some x else Table.get t k := by
  split
  · next h => subst h; exact Table.get_put_self t k x
  · next h => exact Table.get_put_other t x h

theorem Table.get_drop (t : Table α) (i k : Nat) :
    Table.get (Table.drop t i) k = if k = i then none else Table.get t k := by
  induction t with
  | nil => simp [Table.drop, Table.get]
  | cons p t ih =>
    obtain ⟨j, y⟩ := p
    simp only [Table.drop, List.filter_cons, bne_iff_ne, ne_eq] at ih ⊢
    by_cases hj : j = i
    · subst hj
      simp only [not_true_eq_false, if_false, ih, Table.get]
      split <;> simp_all
      next h => exact fun e => absurd e.symm h
    · simp only [hj, not_false_eq_true, if_true, Table.get, ih]
      by_cases hk : k = i
      · subst hk; simp [hj]
      · simp [hk]

theorem Table.get_update (t : Table α) (i k : Nat) (f : α → α) :
    Table.get (Table.update t i f) k = if k = i then (Table.get t k).map f else Table.get t k := by
  induction t with
  | nil => simp [Table.update, Table.get]
  | cons p t ih =>
    obtain ⟨j, y⟩ := p
    simp only [Table.update, List.map_cons] at ih ⊢
    by_cases hj : j = i
    · subst hj
      by_cases hk : j = k
      · subst hk; simp [Table.get]
      · simp only [if_true, Table.get, hk, if_false, ih]
    · by_cases hk : j = k
      · subst hk; simp [Table.get, hj]
      · simp only [hj, if_false, Table.get, hk, ih]

theorem Table.mem_put {t : Table α} {i : Nat} {x : α} {q : Nat × α} (h : q ∈ Table.put t i x) : q = (i, x) ∨ q ∈ t := by
  induction t with
  | nil => simpa [Table.put] using h
  | cons p t ih =>
    obtain ⟨j, y⟩ := p
    simp only [Table.put] at h
    split at h
    · simpa using h
    · split at h
      · rcases List.mem_cons.1 h with h | h
        · exact .inl h
        · exact .inr (List.mem_cons_of_mem _ h)
      · rcases List.mem_cons.1 h with h | h
        · exact .inr (h ▸ List.mem_cons_self)
        · exact (ih h).imp_right (List.mem_cons_of_mem _)

theorem Table.wf_nil : Table.wf ([] : Table α) := List.Pairwise.nil

theorem Table.wf_put {t : Table α} (h : Table.wf t) (i : Nat) (x : α) : Table.wf (Table.put t i x) := by
  induction t with
  | nil => simp [Table.wf, Table.put]
  | cons p t ih =>
    obtain ⟨j, y⟩ := p
    simp only [Table.wf, List.map_cons, List.pairwise_cons] at h ⊢
    simp only [Table.put]
    split
    · next lt =>
      simp only [List.map_cons, List.pairwise_cons, List.mem_cons, forall_eq_or_imp]
      exact ⟨⟨lt, fun a ha => Nat.lt_trans lt (h.1 a ha)⟩, h⟩
    · split
      · next e => subst e; simpa using h
      · simp only [List.map_cons, List.pairwise_cons]
        refine ⟨fun a ha => ?_, ih h.2⟩
        obtain ⟨q, hq, rfl⟩ := List.mem_map.1 ha
        rcases Table.mem_put hq with rfl | hq
        · dsimp only; omega
        · exact h.1 _ (List.mem_map_of_mem hq)

theorem Table.wf_filter {t : Table α} (h : Table.wf t) (f : Nat × α → Bool) : Table.wf (t.filter f) :=
  List.Pairwise.sublist (List.Sublist.map _ List.filter_sublist) h

theorem Table.wf_drop {t : Table α} (h : Table.wf t) (i : Nat) : Table.wf (Table.drop t i) := Table.wf_filter h _

theorem Table.keys_update (t : Table α) (i : Nat) (f : α → α) : (Table.update t i f).map Prod.fst = t.map Prod.fst := by
  simp only [Table.update, List.map_map]
  congr 1
  funext p
  simp only [Function.comp]
  split <;> rfl

theorem Table.wf_update {t : Table α} (h : Table.wf t) (i : Nat) (f : α → α) : Table.wf (Table.update t i f) := by
  simpa only [Table.wf, Table.keys_update] using h

theorem Table.get_eq_some_mem {t : Table α} {i : Nat} {x : α} (h : Table.get t i = some x) : (i, x) ∈ t := by
  induction t with
  | nil => simp [Table.get] at h
  | cons p t ih =>
    obtain ⟨j, y⟩ := p
    simp only [Table.get] at h
    split at h
    · next e => cases h; subst e; exact List.mem_cons_self
    · exact List.mem_cons_of_mem _ (ih h)

theorem Table.get_of_mem {t : Table α} (w : Table.wf t) {i : Nat} {x : α} (h : (i, x) ∈ t) : Table.get t i = some x := by
  induction t with
  | nil => simp at h
  | cons p t ih =>
    obtain ⟨j, y⟩ := p
    simp only [Table.wf, List.map_cons, List.pairwise_cons] at w
    simp only [Table.get]
    rcases List.mem_cons.1 h with h | h
    · cases h; simp
    · have := w.1 i (List.mem_map_of_mem (f := Prod.fst) h)
      rw [if_neg (Nat.ne_of_lt this)]
      exact ih w.2 h

/-- The lowest free index at or above `k` of a table whose indices are at least `k`: it is free, and every lower one from `k`
on is taken. -/
theorem Table.freeFrom_spec {t : Table α} (w : Table.wf t) {k : Nat} (hk : ∀ p ∈ t, k ≤ p.1) :
    k ≤ Table.freeFrom t k ∧ Table.get t (Table.freeFrom t k) = none ∧
      ∀ j, k ≤ j → j < Table.freeFrom t k → Table.get t j ≠ none := by
  induction t generalizing k with
  | nil => exact ⟨Nat.le_refl _, rfl, fun j h1 h2 => absurd h2 (by simp [Table.freeFrom]; omega)⟩
  | cons p t ih =>
    obtain ⟨i, x⟩ := p
    simp only [Table.wf, List.map_cons, List.pairwise_cons] at w
    have hi : k ≤ i := hk (i, x) List.mem_cons_self
    have above : ∀ q ∈ t, i < q.1 := fun q hq => w.1 q.1 (List.mem_map_of_mem hq)
    have none_below : ∀ j, j < i → Table.get t j = none := by
      intro j hj
      cases hg : Table.get t j with
      | none => rfl
      | some y => have := above _ (Table.get_eq_some_mem hg); simp only at this; omega
    simp only [Table.freeFrom]
    split
    · next e =>
      subst e
      obtain ⟨h1, h2, h3⟩ := ih w.2 (k := i + 1) (fun q hq => above q hq)
      refine ⟨by omega, ?_, fun j hj1 hj2 => ?_⟩
      · simp only [Table.get]; rw [if_neg (by omega)]; exact h2
      · simp only [Table.get]
        split
        · simp
        · exact h3 j (by omega) hj2
    · next e =>
      refine ⟨Nat.le_refl _, ?_, fun j h1 h2 => absurd h2 (by omega)⟩
      simp only [Table.get]
      rw [if_neg e]
      exact none_below k (by omega)

/-- The vacant record taken is the one with the lowest index (R20, R86, R141, R144). -/
theorem Table.lowestFree_eq_some {t : Table α} (w : Table.wf t) {size i : Nat} :
    Table.lowestFree t size = some i ↔ i < size ∧ Table.get t i = none ∧ ∀ j < i, Table.get t j ≠ none := by
  obtain ⟨-, h2, h3⟩ := Table.freeFrom_spec w (k := 0) fun _ _ => Nat.zero_le _
  simp only [Table.lowestFree]
  constructor
  · intro h
    split at h
    · next lt => cases h; exact ⟨lt, h2, fun j hj => h3 j (Nat.zero_le _) hj⟩
    · cases h
  · rintro ⟨hi, hn, hb⟩
    have e : Table.freeFrom t 0 = i := by
      rcases Nat.lt_trichotomy (Table.freeFrom t 0) i with lt | e | gt
      · exact absurd h2 (hb _ lt)
      · exact e
      · exact absurd hn (h3 i (Nat.zero_le _) gt)
    simp [e, hi]

/-- No record is vacant when every index is taken. -/
theorem Table.lowestFree_eq_none {t : Table α} (w : Table.wf t) {size : Nat} :
    Table.lowestFree t size = none ↔ ∀ j < size, Table.get t j ≠ none := by
  obtain ⟨-, h2, h3⟩ := Table.freeFrom_spec w (k := 0) fun _ _ => Nat.zero_le _
  simp only [Table.lowestFree]
  constructor
  · intro h j hj
    split at h
    · cases h
    · exact h3 j (Nat.zero_le _) (by omega)
  · intro h
    split
    · next lt => exact absurd h2 (h _ lt)
    · rfl

/-! ## The stacked DRAM -/

theorem Memory.wf_nil : Memory.wf [] := ⟨List.Pairwise.nil, fun _ h => absurd h List.not_mem_nil⟩

theorem Memory.wf_write {m : List Host.Cell} (h : Memory.wf m) (a : Nat) (b : Byte) : Memory.wf (Memory.write m a b) := by
  unfold Memory.write
  split
  · exact ⟨Table.wf_drop h.1 a, fun c hc => h.2 c ((List.mem_filter.1 hc).1)⟩
  · next hb =>
    refine ⟨Table.wf_put h.1 a b, fun c hc => ?_⟩
    rcases Table.mem_put hc with rfl | hc
    · exact hb
    · exact h.2 c hc

theorem Memory.wf_writeBytes {m : List Host.Cell} (h : Memory.wf m) (a : Nat) (bs : List Byte) :
    Memory.wf (Memory.writeBytes m a bs) := by
  induction bs generalizing m a with
  | nil => exact h
  | cons b bs ih => exact ih (Memory.wf_write h a b) (a + 1)

theorem Memory.read_write (m : List Host.Cell) (a k : Nat) (b : Byte) :
    Memory.read (Memory.write m a b) k = if k = a then b else Memory.read m k := by
  unfold Memory.read Memory.write
  split
  · next hb => rw [Table.get_drop]; split <;> simp [hb]
  · rw [Table.get_put]; split <;> simp

/-- A byte outside the range written reads as before. -/
theorem Memory.read_writeBytes_other (m : List Host.Cell) (a k : Nat) (bs : List Byte) (h : k < a ∨ a + bs.length ≤ k) :
    Memory.read (Memory.writeBytes m a bs) k = Memory.read m k := by
  induction bs generalizing m a with
  | nil => rfl
  | cons b bs ih =>
    simp only [List.length_cons] at h
    rw [Memory.writeBytes, ih _ _ (by omega), Memory.read_write, if_neg (by omega)]

/-- The bytes written are read back. -/
theorem Memory.readBytes_writeBytes (m : List Host.Cell) (a : Nat) (bs : List Byte) :
    Memory.readBytes (Memory.writeBytes m a bs) a bs.length = bs := by
  induction bs generalizing m a with
  | nil => rfl
  | cons b bs ih =>
    simp only [Memory.writeBytes, List.length_cons, Memory.readBytes, ih]
    rw [Memory.read_writeBytes_other _ _ _ _ (by omega), Memory.read_write, if_pos rfl]

end Sys2Proof.Machine
end

