-- ==== Sys2Proof/Laws/Sound.lean ====
section
/-!
SUPPORT. A computable check of a state's laws: a state that passes it is sound.
-/
namespace Sys2Proof.Machine

/-- A record read from a table is one of its entries. -/
theorem Table.mem_of_get {α : Type} {t : Table α} {i : Nat} {x : α} (h : Table.get t i = some x) : (i, x) ∈ t := by
  induction t with
  | nil => simp [Table.get] at h
  | cons p t ih =>
    obtain ⟨j, y⟩ := p
    simp only [Table.get] at h
    split at h
    · next e => subst e; cases h; exact List.mem_cons_self
    · exact List.mem_cons_of_mem _ (ih h)

/-- A condition on an optional value, where there is one. -/
def optAll {α : Type} (o : Option α) (f : α → Bool) : Bool := match o with | none => true | some x => f x

theorem of_optAll {α : Type} {o : Option α} {f : α → Bool} (h : optAll o f = true) {x : α} (e : o = some x) : f x = true := by
  subst e; exact h

/-- The computable form of `StationStands`. -/
def stationStandsCheck (s : State) (st : Station) : Bool :=
  decide (st.current = none ↔ st.state = .lapsed) && decide (st.target.isSome ↔ st.state = .moving)
    && decide (st.lapse.isSome ↔ st.state = .lapsed) && optAll st.current (fun h => (s.head h).serving)
    && decide (st.state = .assoc → st.pass = none) && decide (st.state = .seated → st.pass.isSome)
    && decide (st.state = .lapsed → st.res = 0 ∧ st.capped = false) && decide (st.capped = true → st.res < s.tierValue st)

/-- The computable form of `HoldStands`. -/
def holdStandsCheck (s : State) (x : Hold) : Bool :=
  decide (x.source ≠ x.target) && (s.head x.target).serving
    && match s.station x.station with
      | none => false
      | some st => decide (st.state = .moving ∧ st.current = some x.source ∧ st.target = some x.target ∧ x.chans = st.chans)

/-- The computable form of `State.MovesInv`. -/
def State.movesCheck (s : State) : Bool :=
  s.stations.all (fun p => stationStandsCheck s p.2) && s.holds.all (holdStandsCheck s)
    && decide (s.holds.map Hold.station).Nodup
    && s.stations.all (fun p => p.2.state != .moving || s.holds.any fun x => x.station == p.1)
    && decide (∀ h, (s.members h).length + (s.holdsAt h).length ≤ 64)

/-- The computable form of `State.BindingInv`. -/
def State.bindingCheck (s : State) : Bool :=
  s.passes.all (fun p => optAll p.2.station fun i =>
      match s.station i with | none => false | some st => st.pass == some p.1)
    && s.stations.all (fun p => optAll p.2.pass fun q =>
      match s.pass q with | none => false | some y => y.station == some p.1)
    && s.passes.all fun p => decide (p.2.station.isSome ↔ p.2.state = .seated)

/-- The computable form of `State.Visited`. -/
def State.visitedCheck (s : State) (p : Nat) : Bool := !s.rezone.running || decide (p < s.rezone.cursor)

/-- The computable form of `State.RezoneInv` and `State.ChansInv`. -/
def State.rezoneCheck (s : State) : Bool :=
  decide ((s.rezone.running = true → s.rezone.cursor < 8192 ∧ s.rezone.subject.isSome) ∧ s.rezone.cursor ≤ 8192
      ∧ s.rezone.changed ≤ s.rezone.cursor ∧ s.rezone.trimmed ≤ s.rezone.cursor)
    && s.passes.all (fun p => !s.visitedCheck p.1 || p.2.cached == s.cachedZone p.2.seat p.2.declared)
    && s.stations.all fun p => !optAll p.2.pass s.visitedCheck || p.2.chans &&& ~~~ s.permitted p.2 == 0

/-- The computable form of `EntryTrue`. -/
def entryCheck (x : Channel) (ps : List Party) (floor : Nat) (c : Chan) (e : Entry) : Bool :=
  match x.running, plannedRate ps floor c with
  | true, some k =>
    e == .counted k (x.pace * frameAirtime x.rated k) || e == .shed k (x.pace * frameAirtime x.rated k)
  | _, _ => e == .notCounted

/-- The computable form of one open account's part of `State.AirtimeInv`. -/
def State.accountCheck (s : State) (h : HeadId) (a : Account) : Bool :=
  decide (∀ c : Chan, entryCheck (s.channel c) (s.parties h) (s.head h).floor c a.entries[c] = true)
    && decide (a.committed = s.committedOf (s.parties h) a.entries) && decide (a.venue = s.venueOf a.entries)
    && decide (∀ c : Chan, s.atVenue c = true → (match a.entries[c] with | .shed .. => false | _ => true) = true)
    && decide (a.committed ≤ (s.head h).cap) && decide (resSum (s.parties h) ≤ (s.head h).cap)

/-- The computable form of `ClipInOrder`. -/
def clipCheck (s : State) (k : Clip) : Bool :=
  decide (k.segments.length ≤ 4096) && (k.state == .filling || !s.keyHeld k.key)
    && decide (k.state = .ready → k.last.map (· + 1) = some k.segments.length)
    && (k.state != .filling || optAll k.last fun n => decide (k.segments.length ≤ n))
    && (k.state != .filling || (s.portA.queue ++ s.portB.queue).all fun x =>
      x.key != k.key || (decide (k.segments.length ≤ x.index) && optAll k.last fun n => decide (x.index ≤ n)))

/-- The computable form of `ChannelInOrder`. -/
def channelCheck (x : Channel) : Bool :=
  x.timer.isSome == x.running && decide (1 ≤ x.pace ∧ x.pace ≤ 40 ∧ 256 ≤ x.rated ∧ x.rated ≤ 2048)
    && optAll x.read fun r => !r.valid || (decide (x.currentLevel = some r.level) &&
      match x.entry r.level with | none => false | some e => decide (e.clip = r.clip ∧ e.cursor = r.index))

/-- The computable form of the bowl's laws. -/
def State.bowlCheck (s : State) : Bool :=
  s.movesCheck && s.bindingCheck && s.rezoneCheck
    && decide (∀ z, (s.zone z).admitted = s.passCount (fun q => q.cached == some z && passInside q.state)
      ∧ (s.zone z).seated = s.passCount (fun q => q.cached == some z && passSeated q.state))
    && decide (∀ h, optAll (s.head h).account (s.accountCheck h) = true)

/-- The computable form of the laws of replay. -/
def State.replayCheck (s : State) : Bool :=
  decide s.slotsHeld.Nodup && decide (∀ n ∈ s.slotsHeld, n ∈ s.slots.map Prod.fst)
    && decide (∀ n ∈ s.slots.map Prod.fst, n ∈ s.slotsHeld)
    && s.clips.all (fun p => p.2.useCount == s.named.count p.1) && s.named.all (fun i => (s.clip i).isSome)
    && s.clips.all (fun p => clipCheck s p.2) && decide s.ages.Nodup && s.ages.all (fun i => (s.clip i).isSome)
    && s.clips.all (fun p => s.ages.contains p.1)
    && decide (s.portA.queue.length ≤ 256 ∧ s.portB.queue.length ≤ 256)
    && decide (∀ x ∈ s.portA.queue ++ s.portB.queue, x.index ≤ 4095) && decide (s.holdTimers.map Prod.fst).Nodup
    && s.holdTimers.all (fun t => s.keyHeld t.1)
    && (s.portA.queue ++ s.portB.queue).all (fun x => (s.holdTimers.map Prod.fst).contains x.key)
    && decide (∀ c, channelCheck (s.channel c) = true)
    && decide (∀ c, optAll (s.channel c).read (fun r =>
      match s.clip r.clip with | none => false | some k => decide (r.index < k.segments.length)) = true)
    && decide (∀ c, s.port = .busy c → (s.channel c).read.isSome)
    && decide (s.port = .free → ∀ c, (s.channel c).read = none)

/-- The computable form of `State.StoreInv`. -/
def State.storeCheck (s : State) : Bool :=
  decide (Table.wf s.stations ∧ (∀ p ∈ s.stations, p.1 < 4096) ∧ (s.stations.map fun p => p.2.addr).Nodup)
    && decide (Table.wf s.passes ∧ (∀ p ∈ s.passes, p.1 < 8192 ∧ p.2.number ≠ 0) ∧ (s.passes.map fun p => p.2.number).Nodup)
    && decide (Table.wf s.clips ∧ (∀ p ∈ s.clips, p.1 < 64) ∧ (s.clips.map fun p => p.2.key).Nodup
      ∧ Table.wf s.slots ∧ ∀ p ∈ s.slots, p.1 < 16384)
    && decide (Memory.wf s.dram)

/-- The computable form of `HeadInOrder`. -/
def headCheck (h : HeadId) (x : Head) : Bool :=
  decide (x.account.isSome = x.serving
    ∧ x.supervision.isSome = (x.state == .dark || x.live)
    ∧ x.startTimer.isSome = (x.state == .starting)
    ∧ 10000 ≤ x.cap ∧ x.cap ≤ 90000 ∧ x.floor ≤ 7 ∧ x.miss ≤ 3 ∧ x.seqPos ≤ 3
    ∧ h ∉ x.neighbours ∧ x.neighbours.length ≤ 8 ∧ x.neighbours.Nodup
    ∧ (x.live = true → x.seqPos = 0))

/-- The computable form of `State.ConfigInv`. -/
def State.configCheck (s : State) : Bool :=
  s.part == .run || (decide (∀ h, (s.head h).live = false) && s.stations == [] && s.holds == [] && s.clips == []
    && s.portA.queue == [] && s.portB.queue == [] && decide (∀ c, (s.channel c).running = false))

/-- The computable form of `State.Sound`. -/
def State.soundCheck (s : State) : Bool :=
  s.configCheck && decide (s.outbound.length ≤ 64 ∧ s.inbound.length ≤ 4 ∧ s.held = [])
    && decide (∀ h, headCheck h (s.head h) = true) && s.storeCheck && s.bowlCheck && s.replayCheck

theorem StationStands.of_check {s : State} {st : Station} (h : stationStandsCheck s st = true) : StationStands s st := by
  simp only [stationStandsCheck, Bool.and_eq_true, decide_eq_true_eq] at h
  obtain ⟨⟨⟨⟨⟨⟨⟨h1, h2⟩, h3⟩, h4⟩, h5⟩, h6⟩, h7⟩, h8⟩ := h
  exact ⟨h1, h2, h3, fun _ e => of_optAll h4 e, h5, h6, h7, h8⟩

theorem HoldStands.of_check {s : State} {x : Hold} (h : holdStandsCheck s x = true) : HoldStands s x := by
  simp only [holdStandsCheck, Bool.and_eq_true, decide_eq_true_eq] at h
  obtain ⟨⟨h1, h2⟩, h3⟩ := h
  refine ⟨h1, h2, ?_⟩
  split at h3
  · cases h3
  · next st e => exact ⟨st, e, of_decide_eq_true h3⟩

theorem State.MovesInv.of_check {s : State} (h : s.movesCheck = true) : s.MovesInv := by
  simp only [State.movesCheck, Bool.and_eq_true, decide_eq_true_eq, List.all_eq_true] at h
  obtain ⟨⟨⟨⟨h1, h2⟩, h3⟩, h4⟩, h5⟩ := h
  refine ⟨fun i st e => .of_check (h1 _ (Table.mem_of_get e)), fun x hx => .of_check (h2 x hx), h3, fun i st e m => ?_, h5⟩
  have := h4 _ (Table.mem_of_get e)
  simpa [m] using this

theorem State.BindingInv.of_check {s : State} (h : s.bindingCheck = true) : s.BindingInv := by
  simp only [State.bindingCheck, Bool.and_eq_true, decide_eq_true_eq, List.all_eq_true] at h
  obtain ⟨⟨h1, h2⟩, h3⟩ := h
  refine ⟨fun p q i e f => ?_, fun i st p e f => ?_, fun p q e => h3 _ (Table.mem_of_get e)⟩
  · have := of_optAll (h1 _ (Table.mem_of_get e)) f
    split at this
    · cases this
    · next st g => exact ⟨st, g, by simpa using this⟩
  · have := of_optAll (h2 _ (Table.mem_of_get e)) f
    split at this
    · cases this
    · next q g => exact ⟨q, g, by simpa using this⟩

theorem State.visited_check {s : State} {p : Nat} (h : s.Visited p) : s.visitedCheck p = true := by
  unfold State.visitedCheck
  cases e : s.rezone.running <;> simp_all [State.Visited]

theorem State.rezone_of_check {s : State} (h : s.rezoneCheck = true) : s.RezoneInv ∧ s.ChansInv := by
  simp only [State.rezoneCheck, Bool.and_eq_true, decide_eq_true_eq, List.all_eq_true] at h
  obtain ⟨⟨h1, h2⟩, h3⟩ := h
  refine ⟨⟨h1.1, h1.2.1, h1.2.2.1, h1.2.2.2, fun p q e v => ?_⟩, fun i st e v => ?_⟩
  · simpa [State.visited_check v] using h2 _ (Table.mem_of_get e)
  · have w : optAll st.pass s.visitedCheck = true := by
      cases g : st.pass with
      | none => rfl
      | some p => exact State.visited_check (v p g)
    simpa [w] using h3 _ (Table.mem_of_get e)

theorem EntryTrue.of_check {x : Channel} {ps : List Party} {floor : Nat} {c : Chan} {e : Entry}
    (h : entryCheck x ps floor c e = true) : EntryTrue x ps floor c e := by
  unfold entryCheck at h
  unfold EntryTrue
  split at h <;> simp_all

theorem State.AirtimeInv.of_check {s : State} (h : ∀ g, optAll (s.head g).account (s.accountCheck g) = true) :
    s.AirtimeInv := by
  intro g a e
  have := of_optAll (h g) e
  simp only [State.accountCheck, Bool.and_eq_true, decide_eq_true_eq] at this
  obtain ⟨⟨⟨⟨⟨h1, h2⟩, h3⟩, h4⟩, h5⟩, h6⟩ := this
  refine ⟨⟨fun c => .of_check (h1 c), h2, h3, fun c v k cost e => ?_⟩, h5, h6⟩
  have := h4 c v
  simp [e] at this

theorem ClipInOrder.of_check {s : State} {k : Clip} (h : clipCheck s k = true) : ClipInOrder s k := by
  simp only [clipCheck, Bool.and_eq_true, Bool.or_eq_true, decide_eq_true_eq, List.all_eq_true, beq_iff_eq, bne_iff_ne] at h
  obtain ⟨⟨⟨⟨h1, h2⟩, h3⟩, h4⟩, h5⟩ := h
  refine ⟨h1, fun f => ?_, h3, fun f n e => ?_, fun f x hx e => ?_⟩
  · simpa [f] using h2
  · exact of_decide_eq_true (of_optAll (h4.resolve_left fun g => g f) e)
  · have := (h5.resolve_left fun g => g f) x hx
    rcases this with g | ⟨g, g'⟩
    · exact absurd e g
    · exact ⟨g, fun n e => by simpa using of_optAll g' e⟩

theorem ChannelInOrder.of_check {x : Channel} (h : channelCheck x = true) : ChannelInOrder x := by
  simp only [channelCheck, Bool.and_eq_true, decide_eq_true_eq, beq_iff_eq] at h
  obtain ⟨⟨h1, h2, h3, h4, h5⟩, h6⟩ := h
  refine ⟨h1, h2, h3, h4, h5, fun r e v => ?_⟩
  have := of_optAll h6 e
  simp only [v, Bool.not_true, Bool.false_or, Bool.and_eq_true, decide_eq_true_eq] at this
  obtain ⟨g, g'⟩ := this
  refine ⟨g, ?_⟩
  split at g'
  · cases g'
  · next y e => exact ⟨y, e, of_decide_eq_true g'⟩

/-- A key with a held entry has one in one of the two queues. -/
theorem State.held_of_keyHeld {s : State} {k : Key} (h : s.keyHeld k = true) :
    ∃ x ∈ s.portA.queue ++ s.portB.queue, x.key = k := by
  simp only [State.keyHeld, Bool.or_eq_true, Bool.not_eq_true', List.isEmpty_eq_false_iff_exists_mem] at h
  rcases h with ⟨x, hx⟩ | ⟨x, hx⟩ <;> simp only [State.heldOf, State.ingest, List.mem_filter, beq_iff_eq] at hx
  · exact ⟨x, List.mem_append_left _ hx.1, hx.2⟩
  · exact ⟨x, List.mem_append_right _ hx.1, hx.2⟩

theorem State.ConfigInv.of_check {s : State} (h : s.configCheck = true) : s.ConfigInv := by
  intro c
  simpa [State.configCheck, c, and_assoc] using h

theorem State.StoreInv.of_check {s : State} (h : s.storeCheck = true) : s.StoreInv := by
  simp only [State.storeCheck, Bool.and_eq_true, decide_eq_true_eq] at h
  exact ⟨h.1.1.1, h.1.1.2, h.1.2, h.2⟩

/-- The laws of replay, from their check. -/
theorem State.replay_of_check {s : State} (h : s.replayCheck = true) : s.SlotsInv ∧ s.UseInv ∧ s.IngestInv ∧ s.PlayInv := by
  simp only [State.replayCheck, Bool.and_eq_true, decide_eq_true_eq, List.all_eq_true] at h
  obtain ⟨⟨⟨⟨⟨⟨⟨⟨⟨⟨⟨⟨⟨⟨⟨⟨⟨sl1, sl2⟩, sl3⟩, us1⟩, us2⟩, in1⟩, in2⟩, in3⟩, in4⟩, in5⟩, in6⟩, in7⟩, in8⟩, in9⟩, pl1⟩, pl2⟩, pl3⟩, pl4⟩ := h
  refine ⟨⟨sl1, fun n => ⟨sl2 n, sl3 n⟩⟩, ⟨fun i k e => by simpa using us1 _ (Table.mem_of_get e), us2⟩,
    ⟨fun i k e => .of_check (in1 _ (Table.mem_of_get e)), in2, fun i => ⟨fun m => in3 i m, fun m => ?_⟩,
      in5.1, in5.2, in6, in7, fun k => ⟨fun m => ?_, fun m => ?_⟩⟩,
    ⟨fun c => .of_check (pl1 c), fun c r e => ?_, pl3, pl4⟩⟩
  · obtain ⟨k, e⟩ := Option.isSome_iff_exists.1 m
    simpa using in4 _ (Table.mem_of_get e)
  · obtain ⟨t, ht, rfl⟩ := List.mem_map.1 m
    exact in8 t ht
  · obtain ⟨x, hx, rfl⟩ := State.held_of_keyHeld m
    simpa using in9 x hx
  · have := of_optAll (pl2 c) e
    split at this
    · cases this
    · next k g => exact ⟨k, g, of_decide_eq_true this⟩

/-- A state that passes the check is sound. -/
theorem State.Sound.of_check {s : State} (h : s.soundCheck = true) : s.Sound := by
  simp only [State.soundCheck, State.bowlCheck, headCheck, Bool.and_eq_true, decide_eq_true_eq] at h
  obtain ⟨⟨⟨⟨⟨conf, link⟩, heads⟩, store⟩, ⟨⟨⟨⟨mv, bi⟩, rz⟩, ce⟩, ai⟩⟩, rp⟩ := h
  obtain ⟨sl, us, ig, pl⟩ := State.replay_of_check rp
  exact {
    link := link, heads := heads, config := .of_check conf, store := .of_check store, moves := .of_check mv
    binding := .of_check bi, census := ce, rezone := (State.rezone_of_check rz).1, chans := (State.rezone_of_check rz).2
    airtime := .of_check ai, slots := sl, use := us, ingest := ig, play := pl }

end Sys2Proof.Machine
end

