-- ==== Sys2Proof/Tests/Slice0.lean ====
section
/-!
SUPPORT. Tests: ill-formed commands refused, the manual's worked values, and for every statement a concrete state and operands that
meet its premises.
-/
namespace Sys2Proof.Tests
open Sys2Proof Sys2Proof.Machine

/- One theorem at a time: each waits for the kernel's check of the one before it, and a thread kept waiting costs its stack. -/
set_option Elab.async false

/-! ## Small states -/

/-- An open account with one COUNTED channel, channel 0. -/
def acct (rate cost committed : Nat) : Account :=
  ⟨(Vector.replicate 8 Entry.notCounted).set 0 (.counted rate cost), committed, 0, 100000⟩

/-- A head record after its setup, in a state, with its timers as that state has them. -/
def headIn (h : HeadId) (st : HeadState) (a : Option Account) : Head :=
  { powerOnHead h with
    state := st, radio := some 36, step := some 5, complete := true, account := a
    supervision := if st = .fault then none else some 250000
    startTimer := if st = .starting then some 500000 else none }

/-- A station record, unbound and heard well, as an association leaves it. -/
def assoc (addr : StationAddress) (h : HeadId) : Station where
  addr := addr
  state := .assoc
  current := some h
  target := none
  rate := 7
  rssi := -40
  candidates := [(1, -50)]
  res := 150
  capped := false
  pass := none
  chans := 1
  dwell := 0
  lapse := none
  handovers := 0
  refused := 0

/-- A pass record in a state with no count raised. -/
def passIn (n : PassNumber) (tier : Tier) (st : PassState) (z : Option ZoneId) (station : Option Nat) : Pass where
  number := n
  tier := tier
  seat := none
  declared := z
  cached := z
  state := st
  reentries := 0
  passbacks := 0
  conflicts := 0
  suspect := false
  station := station
  lastGate := none

/-- A key of a program and clip number. -/
def key (p : Program) (n : BitVec 16) : Key := ⟨p, n⟩

/-- A clip of port A. -/
def clipOf (k : Key) (st : ClipState) (segments : List Nat) (last : Option Nat) (uses : Nat) : Clip :=
  ⟨k, .a, st, segments, last, false, false, uses⟩

/-- The part in RUN: two heads ON, one draining, one in each other state; stations in every state; passes in every state; a clip
in every state, two keys with a held entry; channel 0 RUN. -/
def demo : State :=
  { State.reset with
    part := .run
    heads := State.reset.heads.set 0 (headIn 0 .on (some (acct 7 2520 3120))) |>.set 1 (headIn 1 .on (some (acct 6 2780 2930)))
      |>.set 2 (headIn 2 .draining (some (acct 7 2520 2670))) |>.set 3 (headIn 3 .starting none)
      |>.set 4 (headIn 4 .dark none) |>.set 5 (headIn 5 .fault none)
      |>.set 8 { headIn 8 .on (some ⟨Vector.replicate 8 .notCounted, 0, 0, 100000⟩) with cap := 10000 }
    stations := [(0, assoc 0xA0 0), (1, { assoc 0xA1 0 with state := .seated, pass := some 0, res := 300, chans := 3 }),
      (2, { assoc 0xA2 0 with state := .moving, target := some 1 }),
      (3, { assoc 0xA3 0 with state := .lapsed, current := none, res := 0, pass := some 1, lapse := some 1000000 }),
      (4, { assoc 0xA4 2 with state := .seated, pass := some 2, capped := true }),
      (5, { assoc 0xA5 0 with state := .lapsed, current := none, res := 0, lapse := some 1000000 })]
    holds := [⟨2, 0, 1, 150, 1, -50, 6, .report, 50000⟩]
    passes := [(0, passIn 100 0 .seated (some 0) (some 1)), (1, passIn 101 1 .seated none (some 3)),
      (2, { passIn 102 2 .seated none (some 4) with conflicts := 2 }), (3, passIn 103 0 .admitted (some 0) none),
      (4, { passIn 104 0 .issued none none with passbacks := 2 }), (5, passIn 105 1 .out none none),
      (6, passIn 106 0 .out none none), (7, passIn 107 0 .void none none)]
    zones := State.reset.zones.set 0 ⟨some ⟨100, 200, some (110, 120), none, [0], 2⟩, 2, 1, none⟩
    mode := .split
    portA := ⟨{}, [⟨key 3 10, 0, 4⟩]⟩
    portB := ⟨{}, [⟨key 1 8, 3, 2⟩]⟩
    holdTimers := [(key 3 10, 2000000), (key 1 8, 2000000)]
    clips := [(0, clipOf (key 0 7) .ready [0] (some 0) 1), (1, clipOf (key 1 8) .filling [1, 5] none 0),
      (2, clipOf (key 15 9) .damaged [3] none 0)]
    ages := [0, 1, 2]
    slots := [(0, 5), (1, 5), (2, 5), (3, 5), (4, 5), (5, 5)]
    channels := State.reset.channels.set 0
      { powerOnChannel with timer := some ⟨0, 1⟩, inService := powerOnChannel.inService.set 1 (some ⟨0, 0, none, false, 0⟩) } }

/-- The state above is sound. -/
theorem demo_sound : demo.Sound := .of_check (by decide +kernel)

/-- A request frame's tag, with a body that fits. -/
def f0 : Req := ⟨0x21, true⟩

/-- An empty inbound queue and a short outbound one: the request is stored and taken at once (log 3). -/
theorem demo_takes (type : Byte) : demo.Takes type f0 demo := ⟨rfl, rfl, rfl⟩

/-- A stored good frame of the request's type and tag is taken from the queue. -/
theorem takes_stored (type : Byte) : { demo with inbound := [⟨type, 0x21, [], true⟩] }.Takes type f0 demo := by
  refine ⟨?_, rfl, rfl⟩
  simp [State.takeRequest, f0, demo, State.reset]

theorem hears_of {s : State} {h : HeadId}
    (e : decide (s.part = .run ∧ (s.head h).state ≠ .absent ∧ (s.head h).state ≠ .fault ∧ s.held = []) = true) : s.Hears h := by
  have := of_decide_eq_true e
  exact this

theorem member_of {s : State} {h : HeadId} {a : StationAddress} {i : Nat} {st : Station}
    (e : decide (s.lookupStation a = some i ∧ s.station i = some st ∧ st.addr = a ∧ st.current = some h) = true) :
    s.Member h a i st := by
  have := of_decide_eq_true e
  exact this

/-- What holds of every entry of a table holds of every record read from it. -/
theorem forall_get {α : Type} {t : Table α} {P : Nat → α → Prop} (e : ∀ p ∈ t, P p.1 p.2) :
    ∀ i x, Table.get t i = some x → P i x := fun _ _ g => e _ (Table.mem_of_get g)

/-- The demo state with its replay part changed in some way that passes the check. -/
theorem replay_sound {s : State} (e : s = { demo with
      mode := s.mode, portA := s.portA, portB := s.portB, holdTimers := s.holdTimers, clips := s.clips, ages := s.ages
      slots := s.slots, port := s.port, now := s.now, programs := s.programs
      channels := s.channels })
    (store : s.storeCheck = true) (heads : ∀ h, optAll (s.head h).account (s.accountCheck h) = true)
    (rp : s.replayCheck = true) : s.Sound :=
  let r := State.replay_of_check rp
  { store := .of_check store, slots := r.1, use := r.2.1, ingest := r.2.2.1, play := r.2.2.2, airtime := .of_check heads
    config := fun c => by rw [e] at c; cases c
    link := by rw [e]; exact demo_sound.link
    heads := by rw [e]; exact demo_sound.heads
    moves := by rw [e]; exact demo_sound.moves
    binding := by rw [e]; exact demo_sound.binding
    census := by rw [e]; exact demo_sound.census
    rezone := by rw [e]; exact demo_sound.rezone
    chans := by rw [e]; exact demo_sound.chans }

/-- The demo state with its re-zone pass changed in some way that passes the check. -/
theorem rezone_sound {r : Rezone} (e : ({ demo with rezone := r } : State).rezoneCheck = true) :
    ({ demo with rezone := r } : State).Sound :=
  { demo_sound with rezone := (State.rezone_of_check e).1, chans := (State.rezone_of_check e).2 }

/-! ## Worked values of the manual -/

theorem test_crc16_check_value : crc16 [0x31, 0x32, 0x33, 0x34, 0x35, 0x36, 0x37, 0x38, 0x39] = 0x29B1 := by decide +kernel

theorem test_crc8_check_value : crc8 [0x31, 0x32, 0x33, 0x34, 0x35, 0x36, 0x37, 0x38, 0x39] = 0xF4 := by decide +kernel

theorem test_crc32_check_value : crc32 [0x31, 0x32, 0x33, 0x34, 0x35, 0x36, 0x37, 0x38, 0x39] = 0xCBF43926 := by
  decide +kernel

/-! ## Ill-formed commands, and words -/

theorem test_wf_refuses_five_candidates :
    (Instr.stationReport 0 0xA0 (-50) [(1, -50), (2, -50), (3, -50), (4, -50), (5, -50)]).wf = false := by decide

theorem test_wf_takes_four_candidates :
    (Instr.stationReport 0 0xA0 (-50) [(1, -50), (2, -50), (3, -50), (4, -50)]).wf = true := by decide

theorem test_wf_refuses_lapse_index : (Instr.lapseTimerExpiry 4096).wf = false ∧ (Instr.lapseTimerExpiry 4095).wf = true := by
  decide

theorem test_wf_refuses_handover_index :
    (Instr.handoverTimerExpiry 4096).wf = false ∧ (Instr.handoverTimerExpiry 4095).wf = true := by decide

theorem test_no_word_spells_a_command : decodeTableWord 8 0 = none := by decide

/-! ## Premises met: the part and the control link -/

/-- A state that waits with one command. -/
def queued (c : Instr) : State := { demo with pending := [c] }

theorem test_StepTakesTheFrontCommand : (queued .readCompletion).pending = .readCompletion :: [] ∧ demo.pending = [] :=
  ⟨rfl, rfl⟩

theorem queued_sound (c : Instr) : (queued c).Sound :=
  { link := demo_sound.link, heads := demo_sound.heads, config := demo_sound.config, store := demo_sound.store
    moves := demo_sound.moves, binding := demo_sound.binding, census := demo_sound.census, rezone := demo_sound.rezone, chans := demo_sound.chans
    airtime := demo_sound.airtime
    slots := demo_sound.slots, use := demo_sound.use, ingest := demo_sound.ingest, play := demo_sound.play }

/-- For each EveryStepKeeps… statement. -/
theorem test_EveryStepKeeps :
    let s := queued (.gateScan f0 103 7 (some .outOf))
    s.Sound ∧ s.LinkInv ∧ s.StoreInv ∧ ∃ t, step s = .next t :=
  ⟨queued_sound _, (queued_sound _).link, (queued_sound _).store, _, rfl⟩

/-- A reply with its code alone. -/
def ok0 : OutFrame := .reply 0x81 0x20 .ok .none

theorem test_EachRequestDrawsOneReply :
    (Instr.restart f0).request? = some (0x03, f0) ∧ (Instr.hello f0).request? = some (0x01, f0) ∧ demo.held = []
      ∧ 64 ≤ ({ demo with outbound := List.replicate 64 ok0 } : State).outbound.length
      ∧ (let g : InFrame := ⟨0x02, 0x21, [], true⟩
        ({ demo with inbound := [g] } : State).inbound = [g] ∧ ¬ (g.good = true ∧ g.type = 0x01 ∧ g.tag = f0.tag))
      ∧ ({ demo with outbound := List.replicate 63 ok0 } : State).outbound.length < 64 ∧ demo.inbound = []
      ∧ (let g : InFrame := ⟨0x01, 0x21, [], true⟩; g.good = true ∧ g.type = 0x01 ∧ g.tag = f0.tag)
      ∧ (⟨0x21, false⟩ : Req).fits = false ∧ f0.fits = true := by decide +kernel

theorem test_TransactionsMoveFrames :
    let x : Transaction := ⟨0x0C, some ok0, true, false⟩
    demo.transaction = none ∧ ({ demo with transaction := some x } : State).transaction = some x ∧ x.frame = some ok0
      ∧ x.cut = false ∧ ok0.bytes.length + 1 ≤ (List.replicate 8 (1 : Byte)).length
      ∧ (List.replicate 7 (1 : Byte)).length < ok0.bytes.length + 1
      ∧ (⟨0x04, none, false, false⟩ : Transaction).frame = none ∧ (⟨0x04, none, false, true⟩ : Transaction).cut = true
      ∧ ([0, 0] : List Byte) = 0 :: [0] ∧ ([0] : List Byte).head? = some 0 ∧ ¬ ([1] = [] ∨ ([1] : List Byte).head? = some 0)
      ∧ 4 ≤ ({ demo with inbound := List.replicate 4 ⟨1, 1, [], true⟩ } : State).inbound.length ∧ ¬ 4 ≤ demo.inbound.length := by
  decide +kernel

theorem test_ControlFrameReadsBack :
    (List.replicate 1024 (0 : Byte)).length ≤ 1024 ∧ 0 < (controlFrame 0x01 0x21 []).length
      ∧ 5 < (controlFrame 0x01 0x21 []).length := by decide +kernel

theorem test_SegmentFrameReadsBack :
    let f : SegmentFrame := ⟨key 1 8, true, true, false, 0, 4095, List.replicate 2048 1⟩
    f.index ≤ 4095 ∧ f.last ≤ 65535 ∧ (f.isClose = true → f.last ≤ 4095) ∧ f.payload.length ≤ 2048
      ∧ (f.isOpen = true → f.index = 0) ∧ (f.isClose = true → f.payload ≠ [] → f.index ≤ f.last)
      ∧ (f.payload = [] → f.isOpen = true ∨ f.isClose = true) := by decide +kernel

theorem test_BadAndUnknownFramesAreAnswered :
    let bad : InFrame := ⟨0x01, 0x21, [], false⟩
    let odd : InFrame := ⟨0x23, 0x21, [], true⟩
    ({ demo with inbound := [bad] } : State).inbound = bad :: [] ∧ ({ demo with inbound := [odd] } : State).inbound = odd :: []
      ∧ demo.outbound.length < 64 ∧ bad.good = false ∧ odd.good = true ∧ (odd.type = 0 ∨ 0x22 < odd.type)
      ∧ ([0x01] : List Byte).length < 2 := by decide +kernel

theorem test_PartRequestsDoTheirWork :
    demo.Takes 0x01 f0 demo ∧ demo.Takes 0x02 f0 demo ∧ demo.Takes 0x04 f0 demo ∧ demo.Takes 0x05 f0 demo :=
  ⟨demo_takes _, demo_takes _, demo_takes _, demo_takes _⟩

theorem test_RestartClearsDynamicRecords : ∃ s : State, s.Takes 0x03 f0 demo ∧ demo.port = .free ∧ demo.rezone.running = false :=
  ⟨_, takes_stored _, by decide +kernel, by decide +kernel⟩

theorem test_RestartClearsDynamicRecords_reading :
    let s := { demo with port := .withdrawn, rezone := ⟨true, 5, some 0, 1, 1⟩ }
    s.Takes 0x03 f0 s ∧ s.port ≠ .free ∧ s.rezone.running = true := ⟨⟨rfl, rfl, rfl⟩, by decide, rfl⟩

/-! ## Premises met: heads -/

/-- The demo state with one head record changed. -/
def withHead (h : HeadId) (f : Head → Head) : State := demo.setHead h (f (demo.head h))

theorem test_HeadIsHeardOrMissed :
    demo.held = [] ∧ (demo.head 9).state = .absent ∧ (demo.head 4).state = .dark ∧ (demo.head 5).state = .fault
      ∧ (demo.head 3).state = .starting ∧ (demo.head 0).state = .on ∧ (demo.head 2).state = .draining
      ∧ (demo.head 5).supervision = none ∧ (demo.head 0).supervision = some 250000
      ∧ ((withHead 0 fun x => { x with miss := 1 }).head 0).miss < 2
      ∧ 2 ≤ ((withHead 4 fun x => { x with miss := 2 }).head 4).miss ∧ (demo.head 4).supervision = some 250000 := by
  decide +kernel

theorem test_LosingAHeadReleasesItsStations :
    demo.Sound ∧ demo.Takes 0x08 f0 demo ∧ (demo.head 0).live = true ∧ (demo.head 3).startTimer = some 500000
      ∧ (demo.head 4).live = false := ⟨demo_sound, demo_takes _, by decide +kernel⟩

theorem test_LosingAHeadReleasesItsStations_missed :
    let s := withHead 1 fun x => { x with miss := 2 }
    s.Sound ∧ (s.head 1).live = true ∧ (s.head 1).supervision = some 250000 ∧ (s.head 1).miss = 2 :=
  ⟨.of_check (by decide +kernel), by decide +kernel⟩

/-- The demo state with its one hold of origin HOST. -/
def hosted : State := { demo with holds := demo.holds.map fun y => { y with origin := .host } }

theorem hosted_sound : hosted.Sound := .of_check (by decide +kernel)

/-- A HOST-origin hold at head 1, and of a member of head 0: each loss has a ROAM notice of kind ABORTED. -/
theorem test_LosingAHeadReleasesItsStations_host :
    hosted.Sound ∧ (hosted.head 0).live = true ∧ (hosted.head 1).live = true
      ∧ (hosted.holdsBy fun y => y.target == 1) = [⟨2, 0, 1, 150, 1, -50, 6, .host, 50000⟩]
      ∧ (hosted.holdsBy fun y => y.source == 0) = [⟨2, 0, 1, 150, 1, -50, 6, .host, 50000⟩] :=
  ⟨hosted_sound, by decide +kernel⟩

theorem test_SetupDoneBringsAHeadOn :
    demo.Hears 4 ∧ (demo.head 4).state ≠ .starting ∧ demo.Hears 3 ∧ (demo.head 3).state = .starting
      ∧ (demo.head 0).startTimer = none := ⟨hears_of (by decide +kernel), by decide +kernel, hears_of (by decide +kernel), by decide +kernel⟩

theorem test_FramesNotActedOnAreDiscarded :
    demo.held = [] ∧ (Instr.setupDone 5).frameHead? = some 5 ∧ (Instr.setupDone 5).wf = true ∧ (demo.head 5).state = .fault
      ∧ (demo.head 9).state = .absent ∧ State.reset.part = .config
      ∧ 4 < ([(1, -50), (2, -50), (3, -50), (4, -50), (5, -50)] : List (Nat × Int)).length := by decide +kernel

theorem test_FramesNotActedOnAreDiscarded_no_member :
    demo.Hears 0 ∧ demo.lookupStation 0xBB = none
      ∧ (∃ i st, demo.lookupStation 0xA4 = some i ∧ demo.station i = some st ∧ st.current ≠ some 0)
      ∧ (∀ i st, demo.lookupStation 0xBB = some i → demo.station i = some st → st.state = .moving → st.target ≠ some 0)
      ∧ ∀ i st, demo.lookupStation 0xA4 = some i → demo.station i = some st → st.state = .moving → st.target ≠ some 0 :=
  ⟨hears_of (by decide +kernel), by decide +kernel, ⟨4, _, by decide +kernel, rfl, by decide +kernel⟩,
    fun i st e => absurd e (by rw [show demo.lookupStation 0xBB = none by decide +kernel]; nofun), fun i st e g => by
      rw [show demo.lookupStation 0xA4 = some 4 by decide +kernel] at e
      cases e; cases g; decide⟩

theorem test_HeadSetupWritesItsPart :
    demo.Takes 0x07 f0 demo ∧ (96 : Nat) ≤ 96 ∧ (demo.head 4).seqPos ≠ 2
      ∧ (let s := withHead 4 fun x => { x with seqPos := 2 }
        s.Takes 0x07 f0 s ∧ (s.head 4).seqPos = 2) ∧ (∃ n ∈ [96], 96 ≤ n) ∧ (4 : HeadId).val ∈ [4] ∧ ¬ [3, 3].Nodup
      ∧ 8 < (List.range 9).length ∧ ((List.finRange 96).take 4 ++ (List.finRange 96).drop 92).length ≤ 8
      ∧ (4 : HeadId) ∉ (List.finRange 96).take 4 ++ (List.finRange 96).drop 92
      ∧ ((List.finRange 96).take 4 ++ (List.finRange 96).drop 92).Nodup :=
  ⟨demo_takes _, by decide, by decide +kernel, ⟨⟨rfl, rfl, rfl⟩, by decide +kernel⟩, by decide +kernel⟩

theorem test_HeadControlStartsAHead :
    demo.Takes 0x08 f0 demo ∧ demo.part = .run ∧ (demo.head 4).state = .dark ∧ (demo.head 4).complete = true
      ∧ ¬ ((demo.head 0).state = .dark) := ⟨demo_takes _, by decide +kernel⟩

theorem test_HeadControlDrainsAHead :
    demo.Sound ∧ demo.Takes 0x08 f0 demo ∧ ((demo.endSequence 2).head 2).state ≠ .on ∧ ((demo.endSequence 8).head 8).state = .on
      ∧ demo.members 8 = [] ∧ demo.holdsAt 8 = [] ∧ ((demo.endSequence 1).head 1).state = .on
      ∧ ¬ (demo.members 1 = [] ∧ demo.holdsAt 1 = []) ∧ ((demo.endSequence 0).head 0).state = .on
      ∧ demo.members 0 = [0, 1, 2] ∧ demo.holdsAt 0 = [] := ⟨demo_sound, demo_takes _, by decide +kernel⟩

theorem test_HeadLimitsRecomputeTheHead :
    demo.Takes 0x09 f0 demo ∧ ((demo.endSequence 4).head 4).state = .dark ∧ ((demo.endSequence 0).head 0).state = .on
      ∧ 9999 < 10000 ∧ resSum (demo.parties 0) ≤ 10000
      ∧ (let s : State := { demo with stations := demo.stations.map fun p => (p.1, { p.2 with res := 5000 }) }
        s.Takes 0x09 f0 s ∧ ((s.endSequence 0).head 0).state = .on ∧ 14999 < resSum (s.parties 0)) :=
  ⟨demo_takes _, by decide +kernel, by decide +kernel, by decide, by decide +kernel, ⟨rfl, rfl, rfl⟩, by decide +kernel⟩

theorem test_HeadQueriesReportTheRecord :
    demo.Takes 0x0A f0 demo ∧ demo.Takes 0x22 f0 demo ∧ (demo.head 4).account = none
      ∧ (demo.head 0).account = some (acct 7 2520 3120) := ⟨demo_takes _, demo_takes _, by decide +kernel⟩

/-! ## Premises met: airtime -/

theorem test_FrameAirtimeFollowsRateClass :
    (7 : Nat) < 8 ∧ 1 ≤ 2048 ∧ (2048 : Nat) ≤ 2048 ∧ 8 * 2048 ≤ 304 * 54 ∧ (-101 : Int) < -100 ∧ (-20 : Int) < -19 := by decide

theorem test_RecomputeBringsTheAccountUpToDate :
    (demo.head 4).account = none ∧ (demo.head 0).account = some (acct 7 2520 3120)
      ∧ resSum (demo.parties 0) ≤ (demo.head 0).cap ∧ State.reset.classEnabled .airtime = false
      ∧ ({ demo with enables := 0x40 } : State).classEnabled .airtime = true := by decide +kernel

theorem test_WindowExpiryRetriesThenRestores :
    demo.Sound ∧ (demo.head 4).account = none ∧ (demo.head 2).account = some (acct 7 2520 2670)
      ∧ ∃ st, demo.station 4 = some st ∧ st.current = some 2 ∧ st.capped = true :=
  ⟨demo_sound, by decide +kernel, by decide +kernel, _, rfl, by decide +kernel⟩

/-- The capped station 4 of head 2 fits at a tier value of 60,000 µs, the head's cap, and does not fit at one more. -/
theorem test_WindowExpiryRetriesThenRestores_fits_or_not :
    let tiered := fun n : Nat => ({ demo with tiers := demo.tiers.set 2 ⟨n, 3, 0xFF⟩ } : State)
    let total := fun n : Nat => resSum ((tiered n).parties 2) - 150 + ((tiered n).station 4).elim 0 (tiered n).tierValue
    (tiered 60000).Sound ∧ (tiered 60001).Sound ∧ (tiered 60000).members 2 = [4] ∧ total 60000 ≤ (demo.head 2).cap
      ∧ ¬ total 60001 ≤ (demo.head 2).cap :=
  ⟨.of_check (by decide +kernel), .of_check (by decide +kernel), by decide +kernel⟩

/-! ## Premises met: stations -/

/-- A table of n records, at the indices from 0 up. -/
def rows {α : Type} (n : Nat) (f : Nat → α) : Table α := (List.range' 0 n).map fun i => (i, f i)

theorem get_rows_from {α : Type} (f : Nat → α) (n : Nat) : ∀ k i, k ≤ i → i < k + n →
    Table.get ((List.range' k n).map fun j => (j, f j)) i = some (f i) := by
  induction n with
  | zero => intros; omega
  | succ n ih =>
    intro k i h1 h2
    simp only [List.range'_succ, List.map_cons, Table.get]
    split
    · next e => rw [e]
    · exact ih (k + 1) i (by omega) (by omega)

theorem get_rows {α : Type} (f : Nat → α) {n i : Nat} (h : i < n) : Table.get (rows n f) i = some (f i) :=
  get_rows_from f n 0 i (by omega) (by omega)

theorem mem_rows {α : Type} {f : Nat → α} {n : Nat} {p : Nat × α} (h : p ∈ rows n f) : p.1 < n ∧ p.2 = f p.1 := by
  obtain ⟨i, hi, rfl⟩ := List.mem_map.1 h
  simp only [List.mem_range', Nat.zero_add, Nat.one_mul] at hi
  obtain ⟨j, hj, rfl⟩ := hi
  exact ⟨hj, rfl⟩

theorem wf_rows {α : Type} (n : Nat) (f : Nat → α) : Table.wf (rows n f) := by
  simp only [Table.wf, rows, List.map_map]
  exact List.pairwise_map.2 List.pairwise_lt_range'

theorem nodup_rows {α β : Type} (n : Nat) (f : Nat → α) (g : α → β)
    (inj : ∀ i j, i < n → j < n → g (f i) = g (f j) → i = j) : ((rows n f).map fun p => g p.2).Nodup := by
  simp only [rows, List.map_map]
  refine List.pairwise_map.2 (List.Pairwise.imp_of_mem (fun {a b} ha hb lt e => ?_) List.pairwise_lt_range')
  simp only [List.mem_range', Nat.zero_add, Nat.one_mul] at ha hb
  obtain ⟨_, hi, rfl⟩ := ha
  obtain ⟨_, hj, rfl⟩ := hb
  have := inj _ _ hi hj e
  omega

/-- The demo state with n station records, all members of head 0. -/
def peopled (n : Nat) : State := { demo with stations := rows n fun i => assoc (BitVec.ofNat 48 i) 0 }

theorem peopled_get {n i : Nat} (h : i < n) : (peopled n).station i = some (assoc (BitVec.ofNat 48 i) 0) := get_rows _ h

theorem peopled_stations {n : Nat} (h : n ≤ 4096) : (peopled n).StationsInv := by
  refine ⟨wf_rows _ _, fun p m => Nat.lt_of_lt_of_le (mem_rows m).1 h, nodup_rows _ _ _ fun i j hi hj e => ?_⟩
  have := congrArg BitVec.toNat e
  simp only [assoc, BitVec.toNat_ofNat] at this
  omega

theorem test_AssocReqTakesANewRecord :
    demo.held = [] ∧ demo.StationsInv ∧ (demo.head 0).state ≠ .absent ∧ (demo.head 0).state ≠ .fault ∧ demo.part = .run
      ∧ demo.lookupStation 0xA0 = some 0 ∧ demo.station 0 = some (assoc 0xA0 0) ∧ (demo.head 2).state ≠ .on
      ∧ (∃ st, demo.lookupStation 0xA2 = some 2 ∧ demo.station 2 = some st ∧ st.state = .moving)
      ∧ demo.lookupStation 0xBB = none ∧ (demo.head 0).state = .on ∧ demo.station 6 = none
      ∧ (∀ j, j < 6 → (demo.station j).isSome) ∧ (demo.members 0).length + (demo.holdsAt 0).length < 64
      ∧ resSum (demo.parties 0) + demo.unbound ≤ (demo.head 0).cap :=
  ⟨rfl, demo_sound.store.1, by decide +kernel, by decide +kernel, rfl, by decide +kernel, rfl, by decide +kernel,
    ⟨_, by decide +kernel, rfl, by decide +kernel⟩, by decide +kernel⟩

theorem test_AssocReqTakesANewRecord_config :
    let s := State.reset.setHead 4 (headIn 4 .dark none)
    s.held = [] ∧ s.StationsInv ∧ s.part = .config ∧ (s.head 4).state ≠ .absent ∧ (s.head 4).state ≠ .fault :=
  ⟨rfl, ⟨List.Pairwise.nil, nofun, List.Pairwise.nil⟩, by decide +kernel⟩

theorem test_AssocReqTakesANewRecord_table_full :
    (peopled 4096).StationsInv ∧ (∀ i, i < 4096 → ((peopled 4096).station i).isSome)
      ∧ (peopled 4096).lookupStation 0xFFFFFFFFFFFF = none := by
  refine ⟨peopled_stations (Nat.le_refl _), fun i h => ?_, ?_⟩
  · exact Option.isSome_iff_exists.2 ⟨_, peopled_get h⟩
  · refine Option.map_eq_none_iff.2 (List.find?_eq_none.2 fun p m => ?_)
    have := mem_rows m
    intro e
    have := congrArg BitVec.toNat (eq_of_beq (this.2 ▸ e))
    simp [assoc] at this
    omega

theorem test_AssocReqTakesANewRecord_head_full :
    (peopled 64).StationsInv ∧ (peopled 64).lookupStation 0xFFFFFFFFFFFF = none ∧ (peopled 64).station 64 = none
      ∧ (∀ j, j < 64 → ((peopled 64).station j).isSome)
      ∧ 64 ≤ ((peopled 64).members 0).length + ((peopled 64).holdsAt 0).length :=
  ⟨peopled_stations (by decide), by decide +kernel⟩

theorem test_AssocReqTakesANewRecord_no_airtime :
    let s : State := { peopled 60 with unbound := 3 } |>.setHead 0 { demo.head 0 with cap := 9002 }
    s.StationsInv ∧ s.lookupStation 0xFFFFFFFFFFFF = none ∧ s.station 60 = none ∧ (∀ j, j < 60 → (s.station j).isSome)
      ∧ (s.members 0).length + (s.holdsAt 0).length < 64 ∧ (s.head 0).cap < resSum (s.parties 0) + s.unbound :=
  ⟨peopled_stations (by decide), by decide +kernel⟩

/-- n members at head 0 with its cap at 10,000; then a LAPSED station, and a member of head 1. -/
def crowd (n : Nat) : State :=
  { State.reset with
    part := .run
    unbound := 600
    now := 2000000
    heads := State.reset.heads.set 0 { headIn 0 .on (some ⟨Vector.replicate 8 .notCounted, n * 150, 0, 100000⟩) with cap := 10000 }
      |>.set 1 (headIn 1 .on (some ⟨Vector.replicate 8 .notCounted, 600, 0, 100000⟩))
    stations := (rows n fun i => { assoc (BitVec.ofNat 48 i) 0 with chans := 0 })
      ++ [(n, { assoc 0xAA 0 with state := .lapsed, current := none, res := 0, lapse := some 1000000 }),
        (n + 1, { assoc 0xAB 1 with res := 600, chans := 0, candidates := [(0, -30)] })] }

theorem crowd64_sound : (crowd 64).Sound := .of_check (by decide +kernel)
theorem crowd63_sound : (crowd 63).Sound := .of_check (by decide +kernel)

theorem test_AssocReqReturnsOrMovesAStation :
    demo.Sound ∧ demo.part = .run ∧ (demo.head 8).state = .on
      ∧ (∃ st, demo.lookupStation 0xA3 = some 3 ∧ demo.station 3 = some st ∧ st.addr = 0xA3 ∧ st.state = .lapsed ∧ st.pass = some 1)
      ∧ (∃ st, demo.lookupStation 0xA5 = some 5 ∧ demo.station 5 = some st ∧ st.addr = 0xA5 ∧ st.state = .lapsed ∧ st.pass = none)
      ∧ (demo.members 8).length + (demo.holdsAt 8).length < 64 ∧ resSum (demo.parties 8) + demo.unbound ≤ (demo.head 8).cap
      ∧ (∃ st, demo.lookupStation 0xA4 = some 4 ∧ demo.station 4 = some st ∧ st.addr = 0xA4 ∧ st.current = some 2
        ∧ st.state = .seated ∧ resSum (demo.parties 8) + st.res ≤ (demo.head 8).cap)
      ∧ (demo.head 2).state = .draining ∧ demo.members 2 = [4] ∧ demo.holdsAt 2 = [] :=
  ⟨demo_sound, rfl, by decide +kernel, ⟨_, by decide +kernel, rfl, by decide +kernel⟩, ⟨_, by decide +kernel, rfl, by decide +kernel⟩,
    by decide +kernel, by decide +kernel, ⟨_, by decide +kernel, rfl, by decide +kernel⟩, by decide +kernel⟩

theorem test_AssocReqReturnsOrMovesAStation_head_full :
    (crowd 64).Sound ∧ 64 ≤ ((crowd 64).members 0).length + ((crowd 64).holdsAt 0).length
      ∧ (crowd 64).lookupStation 0xAA = some 64 ∧ ((crowd 64).station 64).map Station.state = some .lapsed
      ∧ (crowd 64).lookupStation 0xAB = some 65 ∧ ((crowd 64).station 65).map Station.state = some .assoc :=
  ⟨crowd64_sound, by decide +kernel⟩

theorem test_AssocReqReturnsOrMovesAStation_no_airtime :
    let s := crowd 63
    s.Sound ∧ (s.members 0).length + (s.holdsAt 0).length < 64 ∧ (s.head 0).cap < resSum (s.parties 0) + s.unbound
      ∧ ∃ st, s.station 64 = some st ∧ st.current = some 1 ∧ (s.head 0).cap < resSum (s.parties 0) + st.res :=
  ⟨crowd63_sound, by decide +kernel, by decide +kernel, _, rfl, by decide +kernel⟩

theorem test_StationsLeaveTheirHeads :
    demo.Sound ∧ demo.Hears 0 ∧ demo.Member 0 0xA0 0 (assoc 0xA0 0) ∧ (assoc 0xA0 0).lapse = none ∧ demo.station 4095 = none
      ∧ (∃ st, demo.Hears 1 ∧ demo.Member 0 0xA2 2 st ∧ st.state = .moving ∧ st.target = some 1)
      ∧ (∃ st, demo.Member 0 0xA1 1 st ∧ st.pass = some 0) ∧ (∃ st, demo.station 3 = some st ∧ st.lapse = some 1000000)
      ∧ demo.Takes 0x0D f0 demo :=
  ⟨demo_sound, hears_of (by decide +kernel), member_of (by decide +kernel), rfl, by decide +kernel,
    ⟨_, hears_of (by decide +kernel), ⟨by decide +kernel, rfl, by decide +kernel⟩, by decide +kernel⟩,
    ⟨_, ⟨by decide +kernel, rfl, by decide +kernel⟩, by decide +kernel⟩, ⟨_, rfl, rfl⟩, demo_takes _⟩

/-- Station 2 with a HOST-origin hold: its departure has a ROAM notice of kind ABORTED. -/
theorem test_StationsLeaveTheirHeads_host :
    hosted.Sound ∧ hosted.Takes 0x0D f0 hosted ∧ (hosted.station 2).map Station.state = some .moving
      ∧ (hosted.holds.filter fun x => x.station == 2).map Hold.origin = [.host] :=
  ⟨hosted_sound, ⟨rfl, rfl, rfl⟩, by decide +kernel⟩

theorem test_StationReportStoresTheSignal :
    demo.Sound ∧ demo.Hears 0 ∧ demo.Member 0 0xA0 0 (assoc 0xA0 0)
      ∧ (∃ st, demo.Member 0 0xA2 2 st ∧ st.state = .moving)
      ∧ ([(9, -50), (95, -30), (96, -30), (9, -20)] : List (Nat × Int)).length ≤ 4 ∧ (assoc 0xA0 0).state = .assoc
      ∧ ∀ c ∈ reportCandidates [(9, -50), (95, -30), (96, -30), (9, -20)],
          c.1 ∉ (demo.head 0).neighbours ∨ (demo.head c.1).state ≠ .on :=
  ⟨demo_sound, hears_of (by decide +kernel), member_of (by decide +kernel),
    ⟨_, ⟨by decide +kernel, rfl, by decide +kernel⟩, by decide +kernel⟩, by decide +kernel⟩

theorem test_StationReportStoresTheSignal_candidates :
    reportCandidates [(9, -50), (95, -10), (96, -30), (9, -20)] = [(9, -50), (95, -20)] := by decide +kernel

/-- Premises of ReportStartsAHandover for a report of the ASSOC station 0 of head 0 with the one candidate head 1. -/
theorem test_ReportStartsAHandover :
    let s : State := { demo with now := 2000000 }
    let best : HeadId × Int := (1, -36)
    let kept := fun c : HeadId × Int =>
      c ∈ reportCandidates [(1, -36)] ∧ c.1 ∈ (s.head 0).neighbours ∧ (s.head c.1).state = .on
    s.Sound ∧ s.Hears 0 ∧ s.Member 0 0xA0 0 (assoc 0xA0 0) ∧ (assoc 0xA0 0).state = .assoc ∧ kept best
      ∧ (∀ c, kept c → c = best)
      ∧ (s.roam.hysteresis : Int) ≤ (-36 - (s.penalty 1 : Int)) - (clampRssi (-40) - (s.penalty 0 : Int))
      ∧ s.roam.dwell ≤ s.now / 1000 - (assoc 0xA0 0).dwell ∧ rateClass (-40) = (assoc 0xA0 0).rate
      ∧ (s.members 1).length + (s.holdsAt 1).length < 64
      ∧ s.committedWith 1 (acct 6 2780 2930) ⟨150, 1, rateClass (-36)⟩ ≤ (s.head 1).cap :=
  ⟨{ demo_sound with }, hears_of (by decide +kernel), member_of (by decide +kernel), rfl, by decide +kernel,
    fun c h => by simpa [show reportCandidates [(1, -36)] = [(1, -36)] by decide +kernel] using h.1, by decide +kernel⟩

theorem test_ReportStartsAHandover_not_tried :
    demo.Sound ∧ ¬ (demo.roam.dwell ≤ demo.now / 1000 - (assoc 0xA0 0).dwell) ∧ (demo.head 0).state ≠ .draining
      ∧ (∃ st, demo.Hears 2 ∧ demo.Member 2 0xA4 4 st ∧ st.state = .seated) ∧ (demo.head 2).state = .draining :=
  ⟨demo_sound, by decide +kernel, by decide +kernel,
    ⟨_, hears_of (by decide +kernel), ⟨by decide +kernel, rfl, by decide +kernel⟩, by decide +kernel⟩, by decide +kernel⟩

theorem test_ReportStartsAHandover_not_admitted :
    let s := crowd 64
    s.Sound ∧ s.Hears 1 ∧ (∃ st, s.Member 1 0xAB 65 st ∧ st.state = .assoc ∧ s.roam.dwell ≤ s.now / 1000 - st.dwell)
      ∧ reportCandidates [(0, -30)] = [(0, -30)] ∧ 0 ∈ (s.head 1).neighbours ∧ (s.head 0).state = .on
      ∧ (s.roam.hysteresis : Int) ≤ (-30 - (s.penalty 0 : Int)) - (clampRssi (-60) - (s.penalty 1 : Int))
      ∧ ¬ (s.members 0).length + (s.holdsAt 0).length < 64 :=
  ⟨crowd64_sound, hears_of (by decide +kernel), ⟨_, ⟨by decide +kernel, rfl, by decide +kernel⟩, by decide +kernel⟩,
    by decide +kernel⟩

theorem test_StationMoveIsOrderedByTheHost :
    demo.Sound ∧ demo.Takes 0x0C f0 demo ∧ demo.station 4095 = none ∧ (demo.station 3).map Station.state = some .lapsed
      ∧ (demo.station 2).map Station.state = some .moving ∧ demo.station 0 = some (assoc 0xA0 0)
      ∧ 8 ∉ ((demo.endSequence 8).head 0).neighbours ∧ (demo.head 1).state = .on
      ∧ 1 ∈ ((demo.endSequence 1).head 0).neighbours ∧ (assoc 0xA0 0).candidate 1 = some (1, -50)
      ∧ (demo.head 1).account = some (acct 6 2780 2930) ∧ (demo.members 1).length + (demo.holdsAt 1).length < 64
      ∧ demo.committedWith 1 (acct 6 2780 2930) ⟨150, 1, rateClass (-50)⟩ ≤ (demo.head 1).cap :=
  ⟨demo_sound, demo_takes _, by decide +kernel⟩

theorem test_StationMoveIsOrderedByTheHost_not_admitted :
    let s := crowd 64
    s.Sound ∧ s.Takes 0x0C f0 s ∧ (∃ st, s.station 65 = some st ∧ st.current = some 1 ∧ st.candidate 0 = some (0, -30))
      ∧ 0 ∈ ((s.endSequence 0).head 1).neighbours ∧ ¬ (s.members 0).length + (s.holdsAt 0).length < 64 :=
  ⟨crowd64_sound, ⟨rfl, rfl, rfl⟩, ⟨_, rfl, by decide +kernel⟩, by decide +kernel⟩

theorem test_JoinAndLeaveChangeTheChannelSet :
    demo.Sound ∧ demo.Hears 0 ∧ demo.Member 0 0xA0 0 (assoc 0xA0 0) ∧ hasChan (demo.permitted (assoc 0xA0 0)) 1 = false
      ∧ hasChan (demo.permitted (assoc 0xA0 0)) 0 = true ∧ hasChan (assoc 0xA0 0).chans 0 = true
      ∧ hasChan (assoc 0xA0 0).chans 7 = false ∧ (8 : Nat) ≤ 8
      ∧ (∃ st, demo.Member 0 0xA2 2 st ∧ st.state = .moving ∧ hasChan (demo.permitted st) 0 = true ∧ hasChan st.chans 0 = true) :=
  ⟨demo_sound, hears_of (by decide +kernel), member_of (by decide +kernel), by decide +kernel, by decide +kernel,
    by decide +kernel, by decide +kernel, by decide, ⟨_, ⟨by decide +kernel, rfl, by decide +kernel⟩, by decide +kernel⟩⟩

theorem test_JoinAndLeaveChangeTheChannelSet_joins :
    let s : State := { demo with roam := { demo.roam with pub := 0x81 } }
    s.Sound ∧ hasChan (s.permitted (assoc 0xA0 0)) 7 = true ∧ (assoc 0xA0 0).state ≠ .moving
      ∧ hasChan (assoc 0xA0 0).chans 7 = false := ⟨.of_check (by decide +kernel), by decide +kernel⟩

theorem test_ReadyLandsOrIsLate :
    demo.Sound ∧ demo.Hears 1 ∧ (demo.station 2).isSome ∧ (demo.holdOf 2).map Hold.target = some 1 ∧ demo.Hears 0
      ∧ ¬ ∃ st x, demo.station 0 = some st ∧ demo.holdOf 0 = some x ∧ st.state = .moving ∧ st.addr = 0xA0 ∧ st.target = some 0 :=
  ⟨demo_sound, hears_of (by decide +kernel), by decide +kernel, by decide +kernel, hears_of (by decide +kernel), by
    rintro ⟨st, x, -, e, -⟩
    rw [show demo.holdOf 0 = none by decide +kernel] at e
    cases e⟩

theorem test_DeclineOrTimeoutUndoesAHandover :
    demo.held = [] ∧ demo.holdOf 0 = none ∧ demo.Sound ∧ (demo.station 2).isSome
      ∧ demo.holdOf 2 = some ⟨2, 0, 1, 150, 1, -50, 6, .report, 50000⟩ ∧ demo.Hears 1 :=
  ⟨rfl, by decide +kernel, demo_sound, by decide +kernel, by decide +kernel, hears_of (by decide +kernel)⟩

theorem test_RoamSetReplacesTheSettings :
    demo.Sound ∧ demo.Takes 0x06 f0 demo ∧ (20 : Nat) < 21 ∧ (120 : Nat) ≤ 120 ∧ demo.roam.pub &&& ~~~ (1 : ChanSet) = 0
      ∧ demo.roam.pub &&& ~~~ (2 : ChanSet) ≠ 0 := ⟨demo_sound, demo_takes _, by decide +kernel⟩

/-! ## Premises met: passes, zones and census -/

/-- The part in RUN with nothing held but a full Pass Table. -/
def passesFull : State :=
  { State.reset with
    part := .run, passes := rows 8192 fun i => passIn (BitVec.ofNat 48 (i + 1)) 0 .issued none none }

theorem run_sound : { State.reset with part := .run }.Sound := .of_check (by decide +kernel)

theorem passesFull_get {p : Nat} {q : Pass} (h : passesFull.pass p = some q) :
    p < 8192 ∧ q = passIn (BitVec.ofNat 48 (p + 1)) 0 .issued none none := mem_rows (Table.mem_of_get h)

theorem passesFull_count (f : Pass → Bool) (h : ∀ n, f (passIn n 0 .issued none none) = false) :
    passesFull.passCount f = 0 := by
  refine List.countP_eq_zero.2 fun p m => ?_
  rw [(mem_rows m).2, h]
  decide

theorem passesFull_sound : passesFull.Sound :=
  { run_sound with
    store := ⟨run_sound.store.1,
      ⟨wf_rows _ _, fun p m => ⟨(mem_rows m).1, fun e => by
          have := (mem_rows m).1
          have := congrArg BitVec.toNat ((mem_rows m).2 ▸ e)
          simp [passIn] at this
          omega⟩,
        nodup_rows _ _ _ fun i j hi hj e => by
          have := congrArg BitVec.toNat e
          simp only [passIn, BitVec.toNat_ofNat] at this
          omega⟩, run_sound.store.2.2⟩
    moves := .of_check (by decide +kernel)
    rezone := ⟨nofun, by decide, by decide, by decide, fun p q e _ => by rw [(passesFull_get e).2]; rfl⟩
    chans := fun i st e => by cases e
    binding := ⟨fun p q i e f => (by rw [(passesFull_get e).2] at f; cases f), fun i st p e => (by cases e),
      fun p q e => by rw [(passesFull_get e).2]; simp [passIn]⟩
    census := fun z => ⟨(run_sound.census z).1.trans (passesFull_count _ fun _ => rfl).symm,
      (run_sound.census z).2.trans (passesFull_count _ fun _ => rfl).symm⟩ }

theorem test_PassLoadTakesEachEntry :
    demo.Sound ∧ demo.Takes 0x0E f0 demo ∧ 16 < (List.replicate 17 (⟨1, 0, none, none⟩ : PassEntry)).length
      ∧ (List.replicate 16 (⟨1, 0, none, none⟩ : PassEntry)).length ≤ 16 ∧ (0 : PassNumber) = 0 ∧ (4 : Nat) ≤ 4
      ∧ (demo.pass 0).map Pass.number = some 100 ∧ demo.pass 8 = none ∧ (∀ r, r < 8 → ¬ demo.pass r = none) :=
  ⟨demo_sound, demo_takes _, by decide +kernel⟩

theorem test_PassLoadTakesEachEntry_new_number : ∀ p q, demo.pass p = some q → q.number ≠ 999 :=
  forall_get (P := fun _ (q : Pass) => q.number ≠ 999) (by decide +kernel)

theorem test_PassLoadTakesEachEntry_full :
    passesFull.Sound ∧ passesFull.Takes 0x0E f0 passesFull ∧ (∀ p, p < 8192 → ¬ passesFull.pass p = none)
      ∧ ∀ p q, passesFull.pass p = some q → q.number ≠ 0xFFFFFFFFFFFF := by
  refine ⟨passesFull_sound, ⟨rfl, rfl, rfl⟩, fun p h e => ?_, fun p q e f => ?_⟩
  · have g : passesFull.pass p = some _ := get_rows _ h
    rw [g] at e
    cases e
  · have := (passesFull_get e).1
    have := congrArg BitVec.toNat ((passesFull_get e).2 ▸ f)
    simp [passIn] at this
    omega

/-- A number, its index and its state, as the demo state holds them. -/
def known (n : PassNumber) (p : Nat) (st : PassState) : Prop :=
  demo.lookupPass n = some p ∧ (demo.pass p).map Pass.state = some st

theorem demo_passes :
    known 100 0 .seated ∧ known 103 3 .admitted ∧ known 104 4 .issued ∧ known 105 5 .out ∧ known 106 6 .out ∧ known 107 7 .void
      ∧ demo.lookupPass 999 = none := by unfold known; decide +kernel

theorem test_PassAmendBringsTheStationIntoLine :
    demo.Sound ∧ demo.Takes 0x0F f0 demo ∧ (4 : Nat) ≤ 4 ∧ (32 : Nat) ≤ 32 ∧ demo.lookupPass 999 = none ∧ known 107 7 .void
      ∧ known 103 3 .admitted ∧ (demo.pass 3).map Pass.station = some none ∧ known 100 0 .seated
      ∧ (demo.pass 0).map Pass.station = some (some 1) ∧ (demo.pass 0).map Pass.tier ≠ some 3 :=
  ⟨demo_sound, demo_takes _, by decide, by decide, by unfold known; decide +kernel⟩

/-- An amend that gives nothing, of the pass of a capped station. -/
theorem test_PassAmendBringsTheStationIntoLine_no_change :
    known 102 2 .seated ∧ (demo.pass 2).map Pass.station = some (some 4) ∧ (demo.station 4).map Station.capped = some true
      ∧ (demo.pass 2).map Pass.cached = some (demo.cachedZone none none) := by unfold known; decide +kernel

theorem test_VoidDropAndUnbindUndoABinding :
    demo.Sound ∧ demo.Takes 0x10 f0 demo ∧ demo.Takes 0x11 f0 demo ∧ demo.lookupPass 999 = none ∧ known 107 7 .void
      ∧ known 100 0 .seated ∧ demo.Hears 0 ∧ demo.Member 0 0xA0 0 (assoc 0xA0 0) ∧ (assoc 0xA0 0).pass = none
      ∧ ∃ st q, demo.Member 0 0xA1 1 st ∧ st.pass = some 0 ∧ demo.pass 0 = some q :=
  ⟨demo_sound, demo_takes _, demo_takes _, by decide +kernel, by unfold known; decide +kernel, by unfold known; decide +kernel,
    hears_of (by decide +kernel), member_of (by decide +kernel), rfl, _, _, ⟨by decide +kernel, rfl, by decide +kernel⟩, rfl, rfl⟩

theorem test_GateScanIsAnsweredByThePassState :
    demo.Sound ∧ demo.Takes 0x13 f0 demo ∧ (255 : Nat) < 256 ∧ (255 : Nat) ≤ 255 ∧ demo.lookupPass 999 = none
      ∧ known 100 0 .seated ∧ known 103 3 .admitted ∧ known 104 4 .issued ∧ (demo.pass 4).map Pass.passbacks = some 2
      ∧ known 105 5 .out ∧ 0 < demo.tiers[1].reentryLimit ∧ known 106 6 .out ∧ demo.tiers[0].reentryLimit ≤ 0
      ∧ known 107 7 .void := ⟨demo_sound, demo_takes _, by decide, by decide, by unfold known; decide +kernel⟩

theorem test_BindIsDecidedInOrder :
    demo.Sound ∧ demo.Hears 0 ∧ demo.Member 0 0xA0 0 (assoc 0xA0 0) ∧ (assoc 0xA0 0).state ≠ .moving ∧ (assoc 0xA0 0).pass = none
      ∧ (∃ st, demo.Member 0 0xA2 2 st ∧ st.state = .moving) ∧ demo.lookupPass 999 = none ∧ known 107 7 .void
      ∧ known 104 4 .issued ∧ known 105 5 .out ∧ known 103 3 .admitted
      ∧ (∃ st, demo.Member 0 0xA1 1 st ∧ st.pass = some 0) ∧ known 100 0 .seated
      ∧ (demo.pass 0).map Pass.station = some (some 1) :=
  ⟨demo_sound, hears_of (by decide +kernel), member_of (by decide +kernel), by decide, rfl,
    ⟨_, ⟨by decide +kernel, rfl, by decide +kernel⟩, by decide +kernel⟩, by decide +kernel, by unfold known; decide +kernel,
    by unfold known; decide +kernel, by unfold known; decide +kernel, by unfold known; decide +kernel,
    ⟨_, ⟨by decide +kernel, rfl, by decide +kernel⟩, by decide +kernel⟩, by unfold known; decide +kernel, by decide +kernel⟩

theorem test_BindIsDecidedInOrder_holders :
    known 101 1 .seated ∧ (demo.pass 1).map Pass.station = some (some 3) ∧ (demo.station 3).map Station.state = some .lapsed
      ∧ known 102 2 .seated ∧ (demo.pass 2).map Pass.station = some (some 4)
      ∧ (demo.station 4).map Station.state ≠ some .lapsed ∧ (demo.pass 2).map Pass.conflicts = some 2 := by
  unfold known; decide +kernel

theorem test_BindIsDecidedInOrder_three_conflicts :
    let s : State := { demo with passes := Table.update demo.passes 2 fun q => { q with conflicts := 3 } }
    s.Sound ∧ s.lookupPass 102 = some 2 ∧ (s.pass 2).map Pass.conflicts = some 3 :=
  ⟨{ demo_sound with
      store := .of_check (by decide +kernel), binding := .of_check (by decide +kernel), moves := .of_check (by decide +kernel)
      rezone := (State.rezone_of_check (by decide +kernel)).1, chans := (State.rezone_of_check (by decide +kernel)).2
      census := by unfold State.CensusInv; decide +kernel }, by decide +kernel⟩

theorem test_SeatLookupFindsTheLowestZone :
    demo.seatZone 100 = some 0 ∧ demo.seatZone 110 = none ∧ demo.seatZone 121 = some 0 ∧ demo.seatZone 201 = none := by
  decide +kernel

theorem test_ZoneSetWritesAndStartsThePass :
    demo.Takes 0x14 f0 demo ∧ (32 : Nat) ≤ 32 ∧ demo.rezone.running = false
      ∧ (let s : State := { demo with rezone := ⟨true, 0, some 0, 0, 0⟩ }; s.Takes 0x14 f0 s ∧ s.rezone.running = true)
      ∧ (let d : ZoneSpec := ⟨100, 200, some (100, 150), some (150, 200), [0, 95], 1⟩
        ∃ p q n, d.hole1 = some p ∧ d.hole2 = some q ∧ p.1.toNat ≤ n ∧ n ≤ p.2.toNat ∧ q.1.toNat ≤ n ∧ n ≤ q.2.toNat) :=
  ⟨demo_takes _, by decide, rfl, ⟨⟨rfl, rfl, rfl⟩, rfl⟩, _, _, 150, rfl, rfl, by decide⟩

theorem test_ZoneSetWritesAndStartsThePass_taken :
    let d : ZoneSpec := ⟨100, 200, some (100, 149), some (150, 200), [0, 95], 1⟩
    ¬ (d.last.toNat < d.first.toNat
      ∨ (∃ p, (d.hole1 = some p ∨ d.hole2 = some p)
        ∧ (p.2.toNat < p.1.toNat ∨ p.1.toNat < d.first.toNat ∨ d.last.toNat < p.2.toNat))
      ∨ (∃ p q n, d.hole1 = some p ∧ d.hole2 = some q ∧ p.1.toNat ≤ n ∧ n ≤ p.2.toNat ∧ q.1.toNat ≤ n ∧ n ≤ q.2.toNat)
      ∨ d.heads.length = 0 ∨ 8 < d.heads.length ∨ (∃ n ∈ d.heads, 96 ≤ n) ∨ ¬ d.heads.Nodup) := by
  intro d
  rintro (h | ⟨p, h | h, e⟩ | ⟨p, q, n, h, g, e⟩ | h | h | h | h)
  · exact absurd h (by decide)
  · cases h; exact absurd e (by decide)
  · cases h; exact absurd e (by decide)
  · cases h; cases g
    have low : n ≤ 149 := e.2.1
    have high : 150 ≤ n := e.2.2.1
    omega
  all_goals exact absurd h (by decide)

theorem test_CensusIsLatchedAndRead :
    demo.Takes 0x16 f0 demo ∧ demo.Takes 0x17 f0 demo ∧ (demo.zone 31).latch = none
      ∧ let s := demo.setZone 0 { demo.zone 0 with latch := some ⟨2, 1, false⟩ }
        s.Takes 0x17 f0 s ∧ (s.zone 0).latch = some ⟨2, 1, false⟩ :=
  ⟨demo_takes _, demo_takes _, by decide +kernel, ⟨rfl, rfl, rfl⟩, by decide +kernel⟩

theorem test_RezoneVisitBringsARecordUpToDate :
    let s : State := { demo with rezone := ⟨true, 0, some 0, 0, 0⟩ }
    demo.held = [] ∧ demo.rezone.running = false ∧ s.Sound ∧ s.rezone.running = true ∧ s.rezone.cursor < 8192
      ∧ s.rezone.subject = some 0 ∧ (s.pass s.rezone.cursor).map Pass.station = some (some 1) ∧ (s.station 1).isSome :=
  ⟨rfl, rfl, rezone_sound (by decide +kernel), by decide +kernel⟩

theorem test_RezoneVisitBringsARecordUpToDate_last :
    let s : State := { demo with rezone := ⟨true, 8191, some 31, 3, 1⟩ }
    s.Sound ∧ s.rezone.cursor < 8192 ∧ s.pass s.rezone.cursor = none := ⟨rezone_sound (by decide +kernel), by decide +kernel⟩

/-! ## Premises met: ingest and clips -/

theorem takes_frame {s : State} {p : Port} {raw f : SegmentFrame}
    (e : decide (s.part = .run ∧ (s.mode = .single → p = .a) ∧ s.held = [] ∧ checkFrame s.strict (segmentBytes raw) = some (raw, false)
      ∧ f = { raw with
          isOpen := raw.isOpen && (p == .a || s.mode == .dual), isClose := raw.isClose && (p == .a || s.mode == .dual)
          handoff := raw.handoff && (p == .a && s.mode == .split) }) = true) : ∃ v, s.TakesFrame p (segmentBytes raw) f v :=
  let h := of_decide_eq_true e
  ⟨_, h.1, h.2.1, h.2.2.1, raw, false, h.2.2.2.1, h.2.2.2.2, rfl⟩

/-- A segment of one byte, without a marker. -/
def segment (k : Key) (n : Nat) : SegmentFrame := ⟨k, false, false, false, n, 0, [0xEE]⟩

/-- An OPEN without a payload. -/
def opens (k : Key) : SegmentFrame := ⟨k, true, false, false, 0, 0, []⟩

/-- A CLOSE without a payload. -/
def closes (k : Key) (last : Nat) : SegmentFrame := ⟨k, false, true, false, 0, last, []⟩

theorem no_clip {s : State} {k : Key} (e : ∀ p ∈ s.clips, p.2.key ≠ k) : ∀ i x, s.clip i = some x → x.key ≠ k :=
  forall_get (P := fun _ (x : Clip) => x.key ≠ k) e

theorem test_SegmentFramesAreChecked :
    (checkFrame false (0xC3 :: 0xA7 :: (segmentBytes (segment (key 1 8) 2)).drop 2)).map Prod.snd = none
      ∧ (let bytes := [0xC3, 0xA7] ++ (segmentBytes (segment (key 1 8) 2)).drop 2
        let header := bytes.take 11
        let fixed := header ++ [crc8 header] ++ bytes.drop 12
        checkFrame false fixed = some (segment (key 1 8) 2, true) ∧ checkFrame true fixed = none)
      ∧ checkFrame true (segmentBytes (segment (key 1 8) 2)) = some (segment (key 1 8) 2, false)
      ∧ demo.held = [] ∧ State.reset.part = .config ∧ demo.part = .run ∧ (demo.mode = .single → Port.b = .a)
      ∧ ¬ (IngestMode.single = .single → Port.b = .a) ∧ checkFrame demo.strict [] = none := by decide +kernel

theorem test_SegmentFramesAreChecked_no_marker :
    ∃ v, demo.TakesFrame .b (segmentBytes (opens (key 1 8))) { opens (key 1 8) with isOpen := false } v :=
  takes_frame (by decide +kernel)

/-- A check of the header bytes of R195: program 1, OPEN, clip 8, index 0, last 0, no payload. -/
theorem test_segment_header_bytes :
    (segmentBytes (opens (key 1 8))).take 11 = [0xC3, 0xA6, 0x18, 0x00, 0x08, 0x00, 0x00, 0x00, 0x00, 0x00, 0x00] := by
  decide +kernel

theorem test_OpenCreatesAClip_held :
    (∃ v, demo.TakesFrame .a (segmentBytes (opens (key 0 7))) (opens (key 0 7)) v)
      ∧ (∃ v, demo.TakesFrame .a (segmentBytes (opens (key 1 8))) (opens (key 1 8)) v)
      ∧ demo.clip 1 = some (clipOf (key 1 8) .filling [1, 5] none 0)
      ∧ demo.clip 0 = some (clipOf (key 0 7) .ready [0] (some 0) 1) ∧ demo.Sound
      ∧ (let s : State := { demo with mode := .dual }
        s.Sound ∧ (∃ v, s.TakesFrame .b (segmentBytes (opens (key 1 8))) (opens (key 1 8)) v)
          ∧ s.clip 1 = some (clipOf (key 1 8) .filling [1, 5] none 0)) :=
  ⟨takes_frame (by decide +kernel), takes_frame (by decide +kernel), rfl, rfl, demo_sound, { demo_sound with },
    takes_frame (by decide +kernel), rfl⟩

/-- An OPEN that closes its clip with its one segment. -/
def whole (k : Key) : SegmentFrame := ⟨k, true, true, false, 0, 0, [0xEE]⟩

theorem test_OpenCreatesAClip_new :
    (∃ v, demo.TakesFrame .a (segmentBytes (whole (key 5 1))) (whole (key 5 1)) v) ∧ (∃ v, demo.TakesFrame .a (segmentBytes (opens (key 5 1))) (opens (key 5 1)) v) ∧ (opens (key 5 1)).payload = []
      ∧ (opens (key 5 1)).isClose = false ∧ demo.programs[(5 : Program)].auto = 0
      ∧ (∀ i k, demo.clip i = some k → k.key ≠ key 5 1) ∧ LowestVacant demo.clips 64 3 :=
  ⟨takes_frame (by decide +kernel), takes_frame (by decide +kernel), rfl, rfl, by decide +kernel, no_clip (by decide +kernel), by decide, rfl,
    by decide +kernel⟩

/-- Program 5 cues channels 0 and 1, of which channel 1 is enabled. -/
theorem test_OpenCreatesAClip_cues :
    let s : State := { demo with
      programs := demo.programs.set 5 ⟨0, 3, false⟩, channels := demo.channels.set 1 { powerOnChannel with enabled := true } }
    s.Sound ∧ (s.channel 1).MayStart 0 ⟨3, 0, none, false, .cue⟩ ∧ ¬ (s.channel 0).MayStart 0 ⟨3, 0, none, false, .cue⟩ := by
  refine ⟨replay_sound rfl (by decide +kernel) (by decide +kernel) (by decide +kernel), ?_, ?_⟩ <;> unfold Channel.MayStart <;> decide +kernel

/-- The part in RUN with every clip record held, DAMAGED, pinned or not. -/
def clipsFull (pin : Bool) : State :=
  { State.reset with
    part := .run
    ages := (List.range 64).reverse
    clips := rows 64 fun i => { clipOf (key 1 (BitVec.ofNat 16 i)) .damaged [i] none 0 with pinned := pin }
    slots := rows 64 fun _ => 5 }

theorem clipsFull_sound (pin : Bool) : (clipsFull pin).Sound := by
  have r := State.replay_of_check (s := clipsFull pin) (by cases pin <;> decide +kernel)
  exact { run_sound with
    config := fun c => by cases c
    store := .of_check (by cases pin <;> decide +kernel), slots := r.1, use := r.2.1, ingest := r.2.2.1, play := r.2.2.2 }

theorem test_OpenCreatesAClip_evicts :
    let s := clipsFull false
    s.Sound ∧ (∃ v, s.TakesFrame .a (segmentBytes (opens (key 5 1))) (opens (key 5 1)) v) ∧ NoneVacant s.clips 64
      ∧ (∀ i k, s.clip i = some k → k.key ≠ key 5 1) ∧ s.ages = [] ++ 63 :: (List.range 63).reverse
      ∧ ∃ k, s.Candidate false 63 k :=
  ⟨clipsFull_sound _, takes_frame (by decide +kernel), by unfold NoneVacant; decide +kernel,
    no_clip (by decide +kernel), by decide +kernel, _, rfl, by decide +kernel⟩

theorem test_OpenCreatesAClip_refused :
    let s := clipsFull true
    s.Sound ∧ (∃ v, s.TakesFrame .a (segmentBytes (opens (key 5 1))) (opens (key 5 1)) v) ∧ NoneVacant s.clips 64
      ∧ ∀ i k, ¬ s.Candidate false i k :=
  ⟨clipsFull_sound _, takes_frame (by decide +kernel), by unfold NoneVacant; decide +kernel, fun i k h => by
    have := forall_get (t := (clipsFull true).clips) (P := fun _ x => x.pinned = true) (by decide +kernel) i k h.1
    rw [h.2.2.2.1] at this
    cases this⟩

theorem test_SegmentIsPlacedByItsIndex :
    demo.Sound ∧ demo.mode = .split ∧ demo.clip 1 = some (clipOf (key 1 8) .filling [1, 5] none 0)
      ∧ demo.clip 0 = some (clipOf (key 0 7) .ready [0] (some 0) 1)
      ∧ (∃ v, demo.TakesFrame .a (segmentBytes (segment (key 0 7) 1)) (segment (key 0 7) 1) v)
      ∧ (∃ v, demo.TakesFrame .a (segmentBytes (segment (key 1 8) 1)) (segment (key 1 8) 1) v)
      ∧ (∃ v, demo.TakesFrame .a (segmentBytes (segment (key 1 8) 2)) (segment (key 1 8) 2) v)
      ∧ (∃ v, demo.TakesFrame .a (segmentBytes (segment (key 1 8) 3)) (segment (key 1 8) 3) v)
      ∧ (∃ v, demo.TakesFrame .b (segmentBytes (segment (key 1 8) 3)) (segment (key 1 8) 3) v)
      ∧ (∃ v, demo.TakesFrame .b (segmentBytes (segment (key 1 8) 4)) (segment (key 1 8) 4) v)
      ∧ (⟨key 1 8, 3, 2⟩ : HeldSegment) ∈ (demo.ingest .b).queue ∧ (demo.ingest .b).queue.length < 256
      ∧ LowestVacant demo.slots 16384 6 :=
  ⟨demo_sound, rfl, rfl, rfl, takes_frame (by decide +kernel), takes_frame (by decide +kernel), takes_frame (by decide +kernel),
    takes_frame (by decide +kernel), takes_frame (by decide +kernel), takes_frame (by decide +kernel), by decide +kernel,
    by decide +kernel, by decide, rfl, by decide +kernel⟩

/-- Frames of an unopened key from B, which waits unless the mark names it; and payload frames of clip 1 with CLOSE and with
OPEN. -/
theorem test_SegmentIsPlacedByItsIndex_unopened :
    (∃ v, demo.TakesFrame .b (segmentBytes (segment (key 5 1) 7)) (segment (key 5 1) 7) v)
      ∧ (∀ i k, demo.clip i = some k → k.key ≠ key 5 1) ∧ demo.marks[(5 : Program)] = none ∧ ¬ demo.NoSlot
      ∧ (let s : State := { demo with marks := demo.marks.set 5 (some 1) }
        s.Sound ∧ (∃ v, s.TakesFrame .b (segmentBytes (segment (key 5 1) 7)) (segment (key 5 1) 7) v)
          ∧ s.marks[(5 : Program)] = some 1)
      ∧ (let f : SegmentFrame := { segment (key 1 8) 2 with isClose := true, last := 3 }
        ∃ v, demo.TakesFrame .a (segmentBytes f) f v)
      ∧ (let f : SegmentFrame := { segment (key 1 8) 0 with isOpen := true }
        (∃ v, demo.TakesFrame .a (segmentBytes f) f v) ∧ f.payload ≠ []) :=
  ⟨takes_frame (by decide +kernel), no_clip (by decide +kernel), by decide +kernel,
    fun h => absurd (h.1 6 (by decide)) (by decide +kernel), ⟨{ demo_sound with }, takes_frame (by decide +kernel), by decide +kernel⟩,
    takes_frame (by decide +kernel), takes_frame (by decide +kernel), by decide⟩

/-- The demo state with the last index of its FILLING clip set, and its handoff flag as given. -/
def lastSet (handoff : Bool) : State :=
  { demo with clips := Table.update demo.clips 1 fun k => { k with handoff := handoff, last := some 3 } }

theorem lastSet_sound (handoff : Bool) : (lastSet handoff).Sound :=
  replay_sound rfl (by cases handoff <;> decide +kernel) (by cases handoff <;> decide +kernel)
    (by cases handoff <;> decide +kernel)

theorem test_SegmentIsPlacedByItsIndex_other_modes :
    (let s : State := { demo with mode := .interleave }
     s.Sound ∧ (∃ v, s.TakesFrame .b (segmentBytes (segment (key 1 8) 2)) (segment (key 1 8) 2) v)
        ∧ ¬ (2 % 2 = 0 ↔ Port.b = Port.a))
      ∧ (let s : State := { demo with mode := .dual }
        s.Sound ∧ (∃ v, s.TakesFrame .b (segmentBytes (segment (key 1 8) 2)) (segment (key 1 8) 2) v)
          ∧ (s.clip 1).map Clip.owner ≠ some .b)
      ∧ (let s := lastSet true
        s.Sound ∧ (∃ v, s.TakesFrame .a (segmentBytes (segment (key 1 8) 2)) (segment (key 1 8) 2) v)
          ∧ (∃ v, s.TakesFrame .b (segmentBytes (segment (key 1 8) 4)) (segment (key 1 8) 4) v)
          ∧ (s.clip 1).map Clip.handoff = some true ∧ (s.clip 1).map Clip.last = some (some 3)) :=
  ⟨⟨{ demo_sound with }, takes_frame (by decide +kernel), by decide⟩,
    ⟨{ demo_sound with }, takes_frame (by decide +kernel), by decide +kernel⟩,
    lastSet_sound _, takes_frame (by decide +kernel), takes_frame (by decide +kernel), by decide +kernel⟩

/-- The part in RUN, in SPLIT, with the hold queue of port B full of one FILLING clip's segments. -/
def queueFull : State :=
  { State.reset with
    part := .run
    mode := .split
    clips := [(0, clipOf (key 1 8) .filling [] none 0)]
    ages := [0]
    portB := ⟨{}, (List.range 256).map fun i => ⟨key 1 8, i + 1, i⟩⟩
    holdTimers := [(key 1 8, 2000000)]
    slots := rows 256 fun _ => 5 }

theorem queueFull_entry {x : HeldSegment} (h : x ∈ queueFull.portA.queue ++ queueFull.portB.queue) :
    ∃ i, i < 256 ∧ x = ⟨key 1 8, i + 1, i⟩ := by
  have h : x ∈ (List.range 256).map fun i => (⟨key 1 8, i + 1, i⟩ : HeldSegment) := h
  obtain ⟨i, m, rfl⟩ := List.mem_map.1 h
  exact ⟨i, List.mem_range.1 m, rfl⟩

theorem queueFull_held : queueFull.slotsHeld = List.range 256 := by decide +kernel

theorem queueFull_keyHeld (k : Key) : queueFull.keyHeld k = true ↔ k = key 1 8 := by
  constructor
  · intro h
    obtain ⟨x, hx, rfl⟩ := State.held_of_keyHeld h
    obtain ⟨i, -, rfl⟩ := queueFull_entry hx
    rfl
  · rintro rfl
    decide +kernel

theorem queueFull_sound : queueFull.Sound :=
  { run_sound with
    config := fun c => by cases c
    store := ⟨run_sound.store.1, run_sound.store.2.1, ⟨by decide, by decide, by decide, wf_rows _ _, fun p m => by
      have := (mem_rows m).1
      omega⟩, run_sound.store.2.2.2⟩
    slots := by
      refine ⟨by rw [queueFull_held]; exact List.nodup_range, fun n => ?_⟩
      rw [queueFull_held, show queueFull.slots.map Prod.fst = List.range' 0 256 by simp [queueFull, rows, Function.comp_def], List.range_eq_range']
    use := ⟨forall_get (P := fun i (k : Clip) => k.useCount = queueFull.named.count i) (by decide +kernel), by decide +kernel⟩
    ingest := ⟨forall_get (P := fun _ k => ClipInOrder queueFull k) fun p m => by
        cases List.mem_singleton.1 m
        exact ⟨by decide, nofun, nofun, nofun, fun _ x h _ => ⟨Nat.zero_le _, nofun⟩⟩,
      by decide, fun i => by
        by_cases h : i = 0
        · subst h; decide
        · refine ⟨fun m => absurd (List.mem_singleton.1 m) h, fun m => ?_⟩
          obtain ⟨k, e⟩ := Option.isSome_iff_exists.1 m
          exact absurd (forall_get (t := queueFull.clips) (P := fun i _ => i = 0) (by decide) i k e) h,
      by decide, by decide +kernel, fun x h => (by obtain ⟨i, hi, rfl⟩ := queueFull_entry h; show i + 1 ≤ 4095; omega),
      by decide, fun k => by rw [queueFull_keyHeld]; exact List.mem_singleton⟩
    play := ⟨run_sound.play.1, fun c r e => (by
      have : ∀ c, (queueFull.channel c).read = none := by decide +kernel
      rw [this c] at e; cases e), run_sound.play.2.2.1, run_sound.play.2.2.2⟩ }

theorem test_SegmentIsPlacedByItsIndex_queue_full :
    queueFull.Sound ∧ (∃ v, queueFull.TakesFrame .b (segmentBytes (segment (key 5 1) 0)) (segment (key 5 1) 0) v) ∧ (∃ v, queueFull.TakesFrame .b (segmentBytes (segment (key 1 8) 300)) (segment (key 1 8) 300) v)
      ∧ (queueFull.ingest .b).queue.length = 256 ∧ queueFull.clip 0 = some (clipOf (key 1 8) .filling [] none 0)
      ∧ ∀ q x, x ∈ (queueFull.ingest q).queue → x.index ≠ 300 :=
  ⟨queueFull_sound, takes_frame (by decide +kernel), takes_frame (by decide +kernel), by decide +kernel, rfl, fun q => by
    cases q
    · intro x h; cases h
    · show ∀ x ∈ queueFull.portB.queue, x.index ≠ 300
      decide +kernel⟩

theorem test_CloseAndHoldTimerSettleAClip :
    demo.Sound ∧ (∃ v, demo.TakesFrame .a (segmentBytes (closes (key 5 1) 0)) (closes (key 5 1) 0) v)
      ∧ (∀ i k, demo.clip i = some k → k.key ≠ key 5 1)
      ∧ (∃ v, demo.TakesFrame .a (segmentBytes (closes (key 0 7) 0)) (closes (key 0 7) 0) v)
      ∧ demo.clip 0 = some (clipOf (key 0 7) .ready [0] (some 0) 1)
      ∧ (let f : SegmentFrame := { opens (key 1 8) with isClose := true, last := 1 }
        ∃ v, demo.TakesFrame .a (segmentBytes f) f v)
      ∧ (∃ v, demo.TakesFrame .a (segmentBytes (closes (key 1 8) 0)) (closes (key 1 8) 0) v)
      ∧ (∃ v, demo.TakesFrame .a (segmentBytes (closes (key 1 8) 1)) (closes (key 1 8) 1) v)
      ∧ demo.clip 1 = some (clipOf (key 1 8) .filling [1, 5] none 0) ∧ 0 + 1 < [1, 5].length ∧ [1, 5].length ≤ 1 + 1
      ∧ (let s := lastSet false
        s.Sound ∧ (∃ v, s.TakesFrame .a (segmentBytes (closes (key 1 8) 3)) (closes (key 1 8) 3) v)
          ∧ (∃ v, s.TakesFrame .a (segmentBytes (closes (key 1 8) 2)) (closes (key 1 8) 2) v)
          ∧ (s.clip 1).map Clip.last = some (some 3))
      ∧ (let s : State := { demo with mode := .dual }
        s.Sound ∧ (∃ v, s.TakesFrame .b (segmentBytes (closes (key 1 8) 1)) (closes (key 1 8) 1) v)) :=
  ⟨demo_sound, takes_frame (by decide +kernel), no_clip (by decide +kernel), takes_frame (by decide +kernel), rfl,
    takes_frame (by decide +kernel), takes_frame (by decide +kernel), takes_frame (by decide +kernel), rfl, by decide, by decide,
    ⟨lastSet_sound _, takes_frame (by decide +kernel), takes_frame (by decide +kernel), by decide +kernel⟩,
    { demo_sound with }, takes_frame (by decide +kernel)⟩

theorem test_CloseAndHoldTimerSettleAClip_timer :
    demo.held = [] ∧ (∀ due, (key 5 1, due) ∉ demo.holdTimers) ∧ (key 1 8, 2000000) ∈ demo.holdTimers
      ∧ demo.clip 1 = some (clipOf (key 1 8) .filling [1, 5] none 0) ∧ (key 3 10, 2000000) ∈ demo.holdTimers
      ∧ ∀ i k, demo.clip i = some k → k.key ≠ key 3 10 :=
  ⟨rfl, fun due => by simp [demo, key], by decide +kernel, rfl, by decide +kernel, no_clip (by decide +kernel)⟩

theorem test_ClipRequestsActOnTheStore :
    demo.Sound ∧ demo.Takes 0x20 f0 demo ∧ demo.Takes 0x21 f0 demo ∧ demo.Takes 0x18 f0 demo ∧ demo.clip 63 = none
      ∧ (demo.clip 0).map Clip.useCount = some 1 ∧ (demo.clip 2).map Clip.useCount = some 0
      ∧ (demo.clip 1).map Clip.useCount = some 0 ∧ (demo.clip 1).map Clip.state = some .filling ∧ demo.StoreInv :=
  ⟨demo_sound, demo_takes _, demo_takes _, demo_takes _, by decide +kernel, by decide +kernel, by decide +kernel, by decide +kernel,
    by decide +kernel, demo_sound.store⟩

theorem test_ClipRequestsActOnTheStore_idle :
    let s := clipsFull false
    s.Takes 0x18 f0 s ∧ s.StoreInv
      ∧ ¬ ((∃ i k, s.clip i = some k ∧ k.state = .filling) ∨ s.portA.queue ≠ [] ∨ s.portB.queue ≠ []) :=
  ⟨⟨rfl, rfl, rfl⟩, (clipsFull_sound false).store, by
    rintro (⟨i, k, h, e⟩ | h | h)
    · exact absurd e (forall_get (t := (clipsFull false).clips) (P := fun _ (k : Clip) => k.state ≠ .filling) (by decide +kernel) i k h)
    · exact h rfl
    · exact h rfl⟩

/-- The part in RUN, in SPLIT, with every slot held by four clips, pinned or not, and a FILLING clip that holds none. -/
def slotsFull (pin : Bool) : State :=
  { State.reset with
    part := .run
    mode := .split
    clips := (rows 4 fun i =>
      { clipOf (key 1 (BitVec.ofNat 16 i)) .damaged (List.range' (i * 4096) 4096) none 0 with pinned := pin })
      ++ [(4, clipOf (key 1 8) .filling [] none 0)]
    ages := [0, 1, 2, 3, 4]
    slots := rows 16384 fun _ => 5 }

theorem slotsFull_held (pin : Bool) : (slotsFull pin).slotsHeld = List.range' 0 16384 := by
  show List.range' (0 * 4096) 4096 ++ (List.range' (1 * 4096) 4096 ++ (List.range' (2 * 4096) 4096
    ++ (List.range' (3 * 4096) 4096 ++ ([] ++ [])))) ++ [] = _
  simp only [List.append_nil, Nat.zero_mul, Nat.one_mul]
  rw [show (3 * 4096 : Nat) = 2 * 4096 + 4096 from rfl, List.range'_append_1, List.range'_append_1 (s := 4096),
    List.range'_append_1 (s := 0)]

/-- The clips apart, the state is that of the part in RUN. -/
theorem slotsFull_sound (pin : Bool) : (slotsFull pin).Sound :=
  { run_sound with
    store := ⟨run_sound.store.1, run_sound.store.2.1,
      ⟨by decide +kernel +revert, by decide +kernel +revert, by decide +kernel +revert, wf_rows _ _, fun p m => (mem_rows m).1⟩, run_sound.store.2.2.2⟩
    config := fun c => by cases c
    slots := by
      refine ⟨by rw [slotsFull_held]; exact List.nodup_range', fun n => ?_⟩
      rw [slotsFull_held, show (slotsFull pin).slots.map Prod.fst = List.range' 0 16384 by simp [slotsFull, rows, Function.comp_def]]
    use := ⟨forall_get (P := fun i (k : Clip) => k.useCount = (slotsFull pin).named.count i) (by decide +kernel +revert), by decide +kernel +revert⟩
    ingest := ⟨forall_get (P := fun _ k => ClipInOrder (slotsFull pin) k) fun p m => by
        rcases List.mem_append.1 m with m | m
        · rw [(mem_rows m).2]
          refine ⟨Nat.le_of_eq List.length_range', fun _ => rfl, nofun, nofun, nofun⟩
        · cases List.mem_singleton.1 m
          exact ⟨by decide, nofun, nofun, nofun, fun _ x h => by cases h⟩,
      by decide +kernel +revert, fun i => by
        by_cases h : i < 5
        · have : ∀ j : Fin 5, j.val ∈ (slotsFull pin).ages ∧ ((slotsFull pin).clip j).isSome := by decide +kernel +revert
          exact ⟨fun _ => (this ⟨i, h⟩).2, fun _ => (this ⟨i, h⟩).1⟩
        · refine ⟨fun m => absurd m ?_, fun m => ?_⟩
          · simp [slotsFull]; omega
          · obtain ⟨k, e⟩ := Option.isSome_iff_exists.1 m
            exact absurd (forall_get (t := (slotsFull pin).clips) (P := fun i _ => i < 5) (by clear * -; decide +kernel +revert) i k e) h,
      by decide +revert, by decide +revert, fun _ m => (by cases m), by decide +revert, fun k => ⟨fun m => (by cases m), fun m => by
        obtain ⟨x, hx, -⟩ := State.held_of_keyHeld m
        cases hx⟩⟩
    play := ⟨run_sound.play.1, fun c r e => (by
      have : ∀ c, ((slotsFull pin).channel c).read = none := by decide +kernel +revert
      rw [this c] at e; cases e), run_sound.play.2.2.1, run_sound.play.2.2.2⟩ }

theorem test_SegmentIsPlacedByItsIndex_no_slot :
    (slotsFull true).Sound ∧ NoneVacant (slotsFull true).slots 16384 ∧ (∀ j y, ¬ (slotsFull true).Candidate true j y)
      ∧ (∃ v, (slotsFull true).TakesFrame .a (segmentBytes (segment (key 1 8) 0)) (segment (key 1 8) 0) v)
      ∧ (∃ v, (slotsFull true).TakesFrame .b (segmentBytes (segment (key 1 8) 1)) (segment (key 1 8) 1) v)
      ∧ (∃ v, (slotsFull true).TakesFrame .b (segmentBytes (segment (key 5 1) 1)) (segment (key 5 1) 1) v)
      ∧ (slotsFull true).clip 4 = some (clipOf (key 1 8) .filling [] none 0) :=
  ⟨slotsFull_sound true, fun i h => by
      have g : Table.get (slotsFull true).slots i = some 5 := get_rows (fun _ => 5) h
      rw [g]; rfl,
    fun j y h => by
      have := forall_get (t := (slotsFull true).clips) (P := fun _ (k : Clip) => k.state = .filling ∨ k.pinned = true) (by decide +kernel) j y h.1
      rcases this with g | g
      · exact h.2.1 g
      · exact absurd (h.2.2.2.1.symm.trans g) nofun,
    takes_frame (by decide +kernel), takes_frame (by decide +kernel), takes_frame (by decide +kernel), rfl⟩

/-- Without pins the oldest clip is evicted for its slots. -/
theorem test_SegmentIsPlacedByItsIndex_evicts :
    (slotsFull false).Sound ∧ (∃ k, (slotsFull false).Candidate true 0 k)
      ∧ (∃ v, (slotsFull false).TakesFrame .a (segmentBytes (segment (key 1 8) 0)) (segment (key 1 8) 0) v) :=
  ⟨slotsFull_sound false, ⟨_, rfl, by decide +kernel⟩, takes_frame (by decide +kernel)⟩

/-! ## Premises met: playout, cues and queries -/

/-- The demo state with channels 0 and 1 as given, each clip used as often as told, and the read port as given. -/
def playing (x y : Channel) (uses : Nat → Nat) (port : ReadPort) : State :=
  { demo with
    channels := (demo.channels.set 0 x).set 1 y
    clips := demo.clips.map fun p => (p.1, { p.2 with useCount := uses p.1 })
    port := port }

/-- Channel 0 as the demo state holds it, with its entry on a clip. -/
def runs (e : InService) : Channel := { demo.channel 0 with inService := powerOnChannel.inService.set 1 (some e) }

theorem playing_sound {x y : Channel} {uses : Nat → Nat} {port : ReadPort}
    (e : decide ((playing x y uses port).storeCheck = true ∧ (playing x y uses port).replayCheck = true
      ∧ ∀ h, optAll ((playing x y uses port).head h).account ((playing x y uses port).accountCheck h) = true) = true) :
    (playing x y uses port).Sound :=
  let h := of_decide_eq_true e
  replay_sound rfl h.1 h.2.2 h.2.1

theorem test_PaceExpiryServesTheCurrentEntry :
    demo.held = [] ∧ (demo.channel 7).timer = none ∧ (demo.channel 0).timer = some ⟨0, 1⟩ ∧ demo.Sound
      ∧ (demo.channel 0).read = none ∧ (demo.channel 0).currentLevel = some 1
      ∧ (demo.channel 0).entry 1 = some ⟨0, 0, none, false, 0⟩ ∧ (demo.clip 0).map Clip.segments = some [0] ∧ demo.port = .free := by
  refine ⟨rfl, by decide +kernel, by decide +kernel, demo_sound, by decide +kernel⟩

/-- At the end of the clip, without and with a loop; and at the end of a count that the clip still holds segments for. -/
theorem test_PaceExpiryServesTheCurrentEntry_end :
    (playing (runs ⟨0, 0, none, false, 1⟩) powerOnChannel (fun i => if i = 0 then 1 else 0) .free).Sound
      ∧ (playing (runs ⟨0, 0, none, true, 1⟩) powerOnChannel (fun i => if i = 0 then 1 else 0) .free).Sound
      ∧ (playing (runs ⟨1, 0, some 1, false, 1⟩) powerOnChannel (fun i => if i = 1 then 1 else 0) .free).Sound :=
  ⟨playing_sound (by decide +kernel), playing_sound (by decide +kernel), playing_sound (by decide +kernel)⟩

/-- A FILLING clip whose segment at the cursor has not come. -/
theorem test_PaceExpiryServesTheCurrentEntry_underrun :
    let s := playing (runs ⟨1, 0, none, false, 2⟩) powerOnChannel (fun i => if i = 1 then 1 else 0) .free
    s.Sound ∧ (s.clip 1).map (fun k => (k.state, k.segments.length, k.last)) = some (.filling, 2, none) :=
  ⟨playing_sound (by decide +kernel), by decide +kernel⟩

/-- Channel 0 with its current entry's read outstanding; channel 1 with one that waits. -/
def reading (valid : Bool) : State :=
  playing { runs ⟨0, 0, none, false, 0⟩ with read := some ⟨0, 0, 1, valid⟩ }
    { powerOnChannel with read := some ⟨1, 1, 0, false⟩ } (fun i => if i = 0 then 2 else if i = 1 then 1 else 0) (.busy 0)

theorem test_ReadCompletionDeliversAndGrants :
    demo.held = [] ∧ demo.port = .free ∧ ({ demo with port := .withdrawn } : State).port = .withdrawn ∧ (reading true).Sound
      ∧ (reading false).Sound ∧ (reading true).port = .busy 0 ∧ ((reading true).channel 0).read = some ⟨0, 0, 1, true⟩
      ∧ ((reading false).channel 0).read = some ⟨0, 0, 1, false⟩ ∧ ((reading true).clip 0).isSome
      ∧ ((reading true).channel 0).entry 1 = some ⟨0, 0, none, false, 0⟩ ∧ ((reading true).channel 1).read.isSome :=
  ⟨rfl, rfl, rfl, playing_sound (by decide +kernel), playing_sound (by decide +kernel), by decide +kernel⟩

/-- Channel 0 with a cue above its current level, and channel 1 with one that nothing is above; neither channel enabled. -/
def cued : State :=
  playing { runs ⟨0, 0, none, false, 0⟩ with pending := powerOnChannel.pending.set 2 (some ⟨2, 0, none, false, .cue⟩) }
    { powerOnChannel with pending := powerOnChannel.pending.set 0 (some ⟨1, 0, none, false, .cue⟩) } (fun _ => 1) .free

theorem cued_sound : cued.Sound := playing_sound (by decide +kernel)

theorem test_ChannelRequestsDoTheirWork :
    demo.Takes 0x1A f0 demo ∧ demo.Takes 0x19 f0 demo ∧ demo.Takes 0x1E f0 demo ∧ cued.Takes 0x1B f0 cued ∧ cued.Sound
      ∧ ((demo.channel 0).entry 1).isSome ∧ (demo.channel 1).enabled = false ∧ (∀ j, (demo.channel 1).entry j = none)
      ∧ (∀ c, (demo.channel c).enabled = false) ∧ (4 : Level).val + 1 = 5 ∧ ((15 : Program) = 15 ↔ (4 : Level) = 4)
      ∧ (cued.channel 0).enabled = false ∧ (cued.channel 0).currentLevel = some 1 :=
  ⟨demo_takes _, demo_takes _, demo_takes _, ⟨rfl, rfl, rfl⟩, cued_sound, by decide +kernel⟩

theorem test_ChannelRequestsDoTheirWork_locked :
    let s := demo.setChannel 7 { demo.channel 7 with enabled := true }
    s.Takes 0x19 f0 s ∧ ∃ c, (s.channel c).enabled = true := ⟨⟨rfl, rfl, rfl⟩, 7, by decide +kernel⟩

theorem test_ChannelRequestsDoTheirWork_starts :
    Channel.Next { cued.channel 0 with enabled := true } 2 ⟨2, 0, none, false, .cue⟩
      ∧ Channel.Next { cued.channel 1 with enabled := true } 0 ⟨1, 0, none, false, .cue⟩ := by
  refine ⟨⟨rfl, by unfold Channel.MayStart; decide +kernel, fun m q e _ => ?_⟩,
    ⟨rfl, by unfold Channel.MayStart; decide +kernel, fun m q e _ => ?_⟩⟩
  · have : ∀ m : Level, m ≤ 2 ∨ ({ cued.channel 0 with enabled := true } : Channel).waiting m = none := by decide +kernel
    rcases this m with h | h
    · exact h
    · rw [h] at e; cases e
  · have : ∀ m : Level, m ≤ 0 ∨ ({ cued.channel 1 with enabled := true } : Channel).waiting m = none := by decide +kernel
    rcases this m with h | h
    · exact h
    · rw [h] at e; cases e

theorem test_PlayAndStopChangeTheEntries :
    demo.Sound ∧ demo.Takes 0x1C f0 demo ∧ demo.Takes 0x1D f0 demo ∧ demo.part = .run ∧ demo.clip 63 = none
      ∧ demo.clip 0 = some (clipOf (key 0 7) .ready [0] (some 0) 1) ∧ (0 : Nat) < 1 ∧ (0 : Nat) ≤ 0
      ∧ (2 : Level).val + 1 = (if (key 0 7).program = 15 then 5 else (some 3).getD (demo.programs[(0 : Program)].level.val + 1))
      ∧ (0 : Level).val + 1 = (if (key 0 7).program = 15 then 5 else none.getD (demo.programs[(0 : Program)].level.val + 1))
      ∧ (4 : Level).val + 1 = (if (key 15 9).program = 15 then 5 else 1) ∧ (demo.clip 2).map Clip.key = some (key 15 9)
      ∧ (demo.channel 0).currentLevel = some 1 ∧ (2 : LevelSet).getLsbD (1 : Level).val = true
      ∧ (1 : LevelSet).getLsbD (1 : Level).val = false :=
  ⟨demo_sound, demo_takes _, demo_takes _, by decide +kernel⟩

theorem test_PlayAndStopChangeTheEntries_starts_or_not :
    (demo.channel 0).MayStart 2 ⟨0, 0, none, false, .host⟩ ∧ ¬ (demo.channel 0).MayStart 0 ⟨0, 0, none, false, .host⟩ := by
  unfold Channel.MayStart; decide +kernel

theorem test_PlayAndStopChangeTheEntries_config :
    let s : State := { State.reset with strict := true }
    s.Sound ∧ s.Takes 0x1C f0 s ∧ s.part = .config :=
  ⟨{ run_sound with config := .of_check (by decide +kernel) }, ⟨rfl, rfl, rfl⟩, rfl⟩

theorem test_QueriesReportTheRecord :
    demo.Takes 0x0B f0 demo ∧ demo.Takes 0x12 f0 demo ∧ demo.Takes 0x15 f0 demo ∧ demo.Takes 0x1F f0 demo
      ∧ demo.lookupStation 0xBB = none ∧ demo.lookupStation 0xA5 = some 5 ∧ demo.lookupPass 999 = none
      ∧ demo.lookupPass 107 = some 7 ∧ demo.StoreInv ∧ demo.clip 1 = some (clipOf (key 1 8) .filling [1, 5] none 0) :=
  ⟨demo_takes _, demo_takes _, demo_takes _, demo_takes _, by decide +kernel, by decide +kernel, by decide +kernel,
    by decide +kernel, demo_sound.store, rfl⟩

theorem test_QueriesReportTheRecord_no_key :
    ∀ i k, demo.clip i = some k → ¬ (k.key.program.val = 16 ∧ k.key.clip = 7) :=
  forall_get (P := fun _ (k : Clip) => ¬ (k.key.program.val = 16 ∧ k.key.clip = 7)) (by decide +kernel)

/-! ## Steps of the manual's worked sequences -/

/-- The state after one command. -/
def after (c : Instr) (s : State) : State :=
  match exec c s with
  | .next t => t
  | _ => s

/-- 3.14 and 4.10: rate classes of the RSSI values worked there. -/
theorem test_worked_rate_classes :
    [-71, -63, -60, -75, -80, -58].map rateClass = [3, 4, 5, 2, 1, 5] := by decide

/-- 6.2, Worked lookups. -/
theorem test_worked_lookups :
    let z := fun a b h => (⟨some ⟨a, b, h, none, [0], 0⟩, 0, 0, none⟩ : Zone)
    let s : State := { State.reset with
      zones := State.reset.zones.set 3 (z 100 199 (some (140, 149))) |>.set 4 (z 140 159 none) |>.set 9 (z 0 999 none) }
    [120, 145, 155, 500, 1200].map s.seatZone = [some 3, some 4, some 3, some 9, none]
      ∧ s.cachedZone none (some 4) = some 4 ∧ s.cachedZone none (some 12) = none := by decide +kernel

/-- 5.11: a third passback sets the suspect flag, and the gate is not recorded. -/
theorem test_worked_third_passback :
    ((after (.gateScan f0 104 4 (some .outOf)) demo).pass 4).map (fun q => (q.state, q.passbacks, q.suspect, q.lastGate))
      = some (.issued, 3, true, none) := by decide +kernel

/-- 5.11: an exit scan of a SEATED pass unbinds it, and its zone loses one admitted and one seated. -/
theorem test_worked_exit_scan :
    let t := after (.gateScan f0 100 5 (some .outOf)) demo
    (t.pass 0).map Pass.state = some .out ∧ (t.station 1).map (fun x => (x.state, x.res, x.chans)) = some (.assoc, 150, 1)
      ∧ (t.zone 0).admitted = 1 ∧ (t.zone 0).seated = 0 := by decide +kernel

/-- 4.10: a READY makes the station a member of the target with the hold's class. -/
theorem test_worked_ready :
    let t := after (.ready 1 0xA2 2) demo
    (t.station 2).map (fun x => (x.state, x.current, x.rate, x.handovers)) = some (.assoc, some 1, 6, 1) ∧ t.holds = []
      ∧ t.linkOut = [(0, .release 0xA2)] := by decide +kernel

/-- 9.9: a clip that is READY and played to its end ends the entry, and the channel goes IDLE. -/
theorem test_worked_end :
    let t := after (.paceTimerExpiry 0) (playing (runs ⟨0, 0, none, false, 1⟩) powerOnChannel (fun i => if i = 0 then 1 else 0) .free)
    (t.channel 0).running = false ∧ (t.channel 0).endFlags = 2 ∧ (t.channel 0).timer = none
      ∧ (t.clip 0).map Clip.useCount = some 0 := by decide +kernel

/-- 8.9: the segment at the expected index is appended in the lowest free slot. -/
theorem test_worked_append :
    let t := after (.segmentFrame .a (segmentBytes (segment (key 1 8) 2))) demo
    (t.clip 1).map Clip.segments = some [1, 5, 6] ∧ (t.ingest .a).counts.good = 1
      ∧ Memory.read t.dram (slotAddress 6) = 0xEE := by decide +kernel

/-- 9.10: after channel 5's read, FIXED grants channel 0 and ROTATING channel 6. -/
theorem test_worked_grants :
    let s : State := { demo with
      port := .busy 5, pointer := 5
      channels := (demo.channels.map fun x => { x with read := some ⟨0, 0, 0, false⟩ }).set 2 powerOnChannel
        |>.set 4 powerOnChannel |>.set 7 powerOnChannel }
    (after .readCompletion s).port = .busy 0 ∧ (after .readCompletion { s with arbMode := .rotating }).port = .busy 6 := by
  decide +kernel

/-- After R193 (Worked sequence): a DRAIN's reply takes a reserved place behind 60 notices, and its own notice is lost. -/
theorem test_worked_reply_behind_full_notices :
    let s : State := { demo with enables := 0x7F, outbound := List.replicate 60 (.notice (.ended 0 0 0 false)) }
    let t := after (.headControlDrain ⟨0x31, true⟩ 8 true) s
    t.outbound.length = 61 ∧ t.outbound.getLast? = some (.reply 0x88 0x31 .ok .none) ∧ t.lost = true
      ∧ (t.head 8).state = .dark := by decide +kernel
end Sys2Proof.Tests
end

/-!
PROOF LAYER. What the shared operations do to the head records. All but the drain check leave everything of a head but the
contents of its account (`State.headsView`); the drain check may bring a DRAINING head to DARK (`State.HeadsEase`).
-/
namespace Sys2Proof.Machine

/-! ## Reading a head after a write -/

theorem State.head_setHead (s : State) (h g : HeadId) (x : Head) :
    (s.setHead h x).head g = if g = h then x else s.head g := by
  simp only [State.head, State.setHead, Fin.getElem_fin, Vector.getElem_set, Fin.ext_iff, eq_comm]

@[simp] theorem State.head_setHead_self (s : State) (h : HeadId) (x : Head) : (s.setHead h x).head h = x := by
  simp [State.head_setHead]

theorem State.head_setHead_of_ne (s : State) {h g : HeadId} (x : Head) (ne : g ≠ h) :
    (s.setHead h x).head g = s.head g := by
  simp [State.head_setHead, ne]

/-- The head records decide what each head reads as. -/
theorem State.head_congr {s t : State} (e : t.heads = s.heads) (h : HeadId) : t.head h = s.head h := by
  simp only [State.head, e]

@[simp] theorem State.setHead_setHead (s : State) (h : HeadId) (x y : Head) :
    (s.setHead h x).setHead h y = s.setHead h y := by
  simp [State.setHead]

@[simp] theorem State.setHead_head (s : State) (h : HeadId) : s.setHead h (s.head h) = s := by
  simp [State.setHead, State.head]

/-! ## Heads apart from their accounts' contents -/

/-- Every head record without its account, and whether its account is open. -/
def State.headsView (s : State) : HeadId → Head × Bool := fun h => ((s.head h).closed, (s.head h).account.isSome)

theorem State.headsView_congr {s t : State} (e : t.heads = s.heads) : t.headsView = s.headsView := by
  funext h; simp only [State.headsView, State.head_congr e]

theorem State.closed_of_headsView {s t : State} (e : t.headsView = s.headsView) (h : HeadId) :
    (t.head h).closed = (s.head h).closed := congrArg Prod.fst (congrFun e h)

theorem State.account_isSome_of_headsView {s t : State} (e : t.headsView = s.headsView) (h : HeadId) :
    (t.head h).account.isSome = (s.head h).account.isSome := congrArg Prod.snd (congrFun e h)

theorem State.sameButAccount_of_headsView {s t : State} (e : t.headsView = s.headsView) (h : HeadId) :
    SameButAccount (s.head h) (t.head h) := (State.closed_of_headsView e h).symm

/-- A head rewritten with everything but its account's contents as it was. -/
theorem State.headsView_setHead {s : State} {h : HeadId} {x : Head} (e : x.closed = (s.head h).closed)
    (a : x.account.isSome = (s.head h).account.isSome) : (s.setHead h x).headsView = s.headsView := by
  funext g
  simp only [State.headsView, State.head_setHead]
  split
  · next e' => subst e'; rw [e, a]
  · rfl

section
variable (s : State)

@[simp] theorem State.setStation_headsView (i : Nat) (x : Station) : (s.setStation i x).headsView = s.headsView := rfl
@[simp] theorem State.updateStation_headsView (i : Nat) (f : Station → Station) :
    (s.updateStation i f).headsView = s.headsView := rfl
@[simp] theorem State.setPass_headsView (p : Nat) (x : Pass) : (s.setPass p x).headsView = s.headsView := rfl
@[simp] theorem State.updatePass_headsView (p : Nat) (f : Pass → Pass) : (s.updatePass p f).headsView = s.headsView := rfl
@[simp] theorem State.setZone_headsView (z : ZoneId) (x : Zone) : (s.setZone z x).headsView = s.headsView := rfl
@[simp] theorem State.count_headsView (z : Option ZoneId) (f : Zone → Zone) : (s.count z f).headsView = s.headsView := rfl
@[simp] theorem State.updateClip_headsView (i : Nat) (f : Clip → Clip) : (s.updateClip i f).headsView = s.headsView := rfl
@[simp] theorem State.setChannel_headsView (c : Chan) (x : Channel) : (s.setChannel c x).headsView = s.headsView := rfl
@[simp] theorem State.updateIngest_headsView (p : Port) (f : IngestPort → IngestPort) :
    (s.updateIngest p f).headsView = s.headsView := rfl
@[simp] theorem State.expireAt_headsView (due : Micros) : (s.expireAt due).headsView = s.headsView := rfl
@[simp] theorem State.note_headsView (n : Notice) : (s.note n).headsView = s.headsView := rfl
@[simp] theorem State.noteAll_headsView (ns : List Notice) : (s.noteAll ns).headsView = s.headsView := rfl
@[simp] theorem State.send_headsView (h : HeadId) (f : LinkFrame) : (s.send h f).headsView = s.headsView := rfl
@[simp] theorem State.discard_headsView (l : LinkId) : (s.discard l).headsView = s.headsView := rfl
@[simp] theorem State.updateHold_headsView (i : Nat) (f : Hold → Hold) : (s.updateHold i f).headsView = s.headsView := rfl
@[simp] theorem State.dropHold_headsView (i : Nat) : (s.dropHold i).headsView = s.headsView := rfl
@[simp] theorem State.freeSlotList_headsView (xs : List Nat) : (s.freeSlotList xs).headsView = s.headsView := rfl
@[simp] theorem State.fillSlot_headsView (n : Nat) (p : List Byte) : (s.fillSlot n p).headsView = s.headsView := rfl
@[simp] theorem State.stopIfEmpty_headsView (k : Key) : (s.stopIfEmpty k).headsView = s.headsView := rfl
@[simp] theorem State.reply_headsView (type tag : Byte) (c : Code) (d : Content) :
    (s.reply type tag c d).headsView = s.headsView := rfl
@[simp] theorem State.flush_headsView : s.flush.headsView = s.headsView := State.headsView_congr s.flush_heads

/-! ### The Airtime Unit -/

theorem State.setAccount_headsView {h : HeadId} (open_ : (s.head h).account.isSome = true) (r : Account × List Notice) :
    (s.setAccount h r).headsView = s.headsView :=
  State.headsView_setHead (s := s) rfl open_.symm

@[simp] theorem State.recompute_headsView (h : HeadId) : (s.recompute h).headsView = s.headsView := by
  unfold State.recompute
  split
  · rfl
  · next e => exact s.setAccount_headsView (by simp [e]) _

@[simp] theorem State.recomputeList_headsView (hs : List HeadId) : (s.recomputeList hs).headsView = s.headsView :=
  foldl_kept _ _ (fun t h => t.recompute_headsView h) hs s

@[simp] theorem State.recomputeAll_headsView : s.recomputeAll.headsView = s.headsView := s.recomputeList_headsView _

@[simp] theorem State.setReservation_headsView (i : Nat) : (s.setReservation i).headsView = s.headsView := by
  unfold State.setReservation
  split
  · rfl
  · split <;> simp

@[simp] theorem State.recomputeOf_headsView (i : Nat) : (s.recomputeOf i).headsView = s.headsView := by
  unfold State.recomputeOf; split <;> simp

@[simp] theorem State.settle_headsView (i : Nat) : (s.settle i).headsView = s.headsView := by
  unfold State.settle; dsimp only; split <;> simp

@[simp] theorem State.retryCapped_headsView (h : HeadId) : (s.retryCapped h).headsView = s.headsView :=
  foldl_kept _ _ (fun t i => t.settle_headsView i) _ _

@[simp] theorem State.restoreShed_headsView (h : HeadId) : (s.restoreShed h).headsView = s.headsView := by
  unfold State.restoreShed
  split
  · rfl
  · next e => exact s.setAccount_headsView (by simp [e]) _

@[simp] theorem State.toVenueAt_headsView (c : Chan) (h : HeadId) : (State.toVenueAt c s h).headsView = s.headsView := by
  unfold State.toVenueAt
  split
  · rfl
  · next e => split <;> first | rfl | exact s.setAccount_headsView (by simp [e]) _

@[simp] theorem State.fromVenueAt_headsView (c : Chan) (h : HeadId) :
    (State.fromVenueAt c s h).headsView = s.headsView := by
  unfold State.fromVenueAt
  split
  · rfl
  · next e => split <;> first | rfl | exact s.setAccount_headsView (by simp [e]) _

@[simp] theorem State.reportLevel_headsView (c : Chan) (l m : Level) : (s.reportLevel c l m).headsView = s.headsView := by
  unfold State.reportLevel
  split
  · split
    · rfl
    · exact foldl_kept _ _ (fun t h => t.fromVenueAt_headsView c h) _ _
  · split
    · exact foldl_kept _ _ (fun t h => t.toVenueAt_headsView c h) _ _
    · rfl

@[simp] theorem State.deliverAt_headsView (c : Chan) (f : Nat → LinkFrame) (h : HeadId) :
    (State.deliverAt c f s h).headsView = s.headsView := by
  unfold State.deliverAt; split <;> simp

@[simp] theorem State.deliver_headsView (c : Chan) (f : Nat → LinkFrame) : (s.deliver c f).headsView = s.headsView :=
  foldl_kept _ _ (fun t h => t.deliverAt_headsView c f h) _ _

/-! ### Stations, passes and zones -/

@[simp] theorem State.censusMove_headsView (z : Option ZoneId) (a b : Option PassState) :
    (s.censusMove z a b).headsView = s.headsView := rfl

@[simp] theorem State.rezoneCounts_headsView (st : PassState) (a b : Option ZoneId) :
    (s.rezoneCounts st a b).headsView = s.headsView := by
  unfold State.rezoneCounts; split <;> simp

@[simp] theorem State.markStale_headsView (z : Option ZoneId) : (s.markStale z).headsView = s.headsView := rfl

@[simp] theorem State.keepChans_headsView (i : Nat) (k : ChanSet) : (s.keepChans i k).headsView = s.headsView := rfl

@[simp] theorem State.trim_headsView (i : Nat) : (s.trim i).headsView = s.headsView := by
  unfold State.trim; split <;> simp

@[simp] theorem State.recomputeTarget_headsView (i : Nat) : (s.recomputeTarget i).headsView = s.headsView := by
  unfold State.recomputeTarget; split <;> simp

@[simp] theorem State.recomputeBoth_headsView (i : Nat) : (s.recomputeBoth i).headsView = s.headsView := by
  simp [State.recomputeBoth]

@[simp] theorem State.unbindPass_headsView (p : Nat) (a : PassState) : (s.unbindPass p a).headsView = s.headsView := by
  unfold State.unbindPass
  split
  · rfl
  · dsimp only; split <;> simp

@[simp] theorem State.unbindStation_headsView (i : Nat) : (s.unbindStation i).headsView = s.headsView := by
  simp [State.unbindStation]

@[simp] theorem State.unbind_headsView (p : Nat) (a : PassState) : (s.unbind p a).headsView = s.headsView := by
  unfold State.unbind; split <;> simp

@[simp] theorem State.noteHostEnd_headsView (x : Hold) (k : RoamEnd) : (s.noteHostEnd x k).headsView = s.headsView := by
  unfold State.noteHostEnd; split <;> simp

@[simp] theorem State.lapse_headsView (i : Nat) : (s.lapse i).headsView = s.headsView := rfl

@[simp] theorem State.cancel_headsView (x : Hold) : (s.cancel x).headsView = s.headsView := by
  unfold State.cancel; split <;> simp

@[simp] theorem State.abortTargetLost_headsView (x : Hold) : (s.abortTargetLost x).headsView = s.headsView := by
  simp [State.abortTargetLost]

@[simp] theorem State.startHandover_headsView (i : Nat) (st : Station) (g h : HeadId) (r : Int) (o : RoamOrigin) :
    (s.startHandover i st g h r o).headsView = s.headsView := by
  unfold State.startHandover
  dsimp only
  rw [State.send_headsView, State.recompute_headsView]
  rfl

@[simp] theorem State.refuseRoam_headsView (i : Nat) : (s.refuseRoam i).headsView = s.headsView := rfl

@[simp] theorem State.tryCandidate_headsView (i : Nat) (st : Station) (g : HeadId) (c : HeadId × Int) (o : RoamOrigin) :
    (s.tryCandidate i st g c o).headsView = s.headsView := by
  unfold State.tryCandidate; split <;> simp

@[simp] theorem State.weigh_headsView (i : Nat) : (s.weigh i).headsView = s.headsView := by
  unfold State.weigh
  repeat' split
  all_goals simp

@[simp] theorem State.associate_headsView (h : HeadId) (a : StationAddress) (r : Int) :
    (s.associate h a r).headsView = s.headsView := by
  unfold State.associate State.declineAssoc
  repeat' split
  all_goals simp

@[simp] theorem State.returnStation_headsView (h : HeadId) (i : Nat) (st : Station) (r : Int) :
    (s.returnStation h i st r).headsView = s.headsView := by
  unfold State.returnStation State.declineAssoc
  dsimp only
  repeat' split
  all_goals simp

@[simp] theorem State.takeRssi_headsView (h : HeadId) (i : Nat) (st : Station) (r : Int) :
    (s.takeRssi h i st r).headsView = s.headsView := by
  unfold State.takeRssi; dsimp only; split <;> simp

@[simp] theorem State.report_headsView (h : HeadId) (r : Int) (cs : List (Nat × Int)) (i : Nat) (st : Station) :
    (s.report h r cs i st).headsView = s.headsView := by
  unfold State.report; dsimp only; split <;> simp

@[simp] theorem State.join_headsView (h : HeadId) (c i : Nat) (st : Station) : (s.join h c i st).headsView = s.headsView := by
  unfold State.join
  dsimp only
  repeat' split
  all_goals simp

@[simp] theorem State.leave_headsView (h : HeadId) (c i : Nat) (st : Station) : (s.leave h c i st).headsView = s.headsView := by
  unfold State.leave
  dsimp only
  rw [State.send_headsView]
  repeat' split
  all_goals simp

@[simp] theorem State.suspectIf_headsView (p : Nat) (q : Pass) (b : Bool) (c : SuspectCause) :
    (s.suspectIf p q b c).headsView = s.headsView := by
  unfold State.suspectIf; split <;> simp

@[simp] theorem State.bindStation_headsView (i p : Nat) (st : Station) :
    (s.bindStation i p st).headsView = s.headsView := by
  simp [State.bindStation]

@[simp] theorem State.bind_headsView (i p : Nat) (st : Station) (q : Pass) : (s.bind i p st q).headsView = s.headsView := by
  simp [State.bind]

@[simp] theorem State.transfer_headsView (i p j : Nat) (st : Station) (q : Pass) :
    (s.transfer i p j st q).headsView = s.headsView := by
  simp [State.transfer]

@[simp] theorem State.conflict_headsView (p : Nat) (q : Pass) : (s.conflict p q).headsView = s.headsView := by
  unfold State.conflict; split <;> simp

@[simp] theorem State.bindRequest_headsView (h : HeadId) (n : PassNumber) (i : Nat) (st : Station) :
    (s.bindRequest h n i st).headsView = s.headsView := by
  unfold State.bindRequest
  dsimp only
  repeat' split
  all_goals simp

@[simp] theorem State.unbindRequest_headsView (h : HeadId) (i : Nat) (st : Station) :
    (s.unbindRequest h i st).headsView = s.headsView := by
  unfold State.unbindRequest; split <;> simp

@[simp] theorem State.trimAll_headsView : s.trimAll.headsView = s.headsView := by
  unfold State.trimAll
  dsimp only
  rw [State.recomputeList_headsView, foldl_kept _ _ fun t i => t.trim_headsView i]

@[simp] theorem State.loadEntry_headsView (e : PassEntry) : (s.loadEntry e).1.headsView = s.headsView := by
  unfold State.loadEntry
  repeat' split
  all_goals simp

@[simp] theorem State.loadEntries_headsView (es : List PassEntry) : (s.loadEntries es).1.headsView = s.headsView := by
  induction es generalizing s with
  | nil => rfl
  | cons e es ih => simp [State.loadEntries, ih]

@[simp] theorem State.bringIntoLine_headsView (i : Nat) : (s.bringIntoLine i).headsView = s.headsView := by
  unfold State.bringIntoLine; dsimp only; split <;> simp

@[simp] theorem State.amend_headsView (p : Nat) (q : Pass) (t : Tier) (n : Option (BitVec 16)) (d : Option ZoneId) :
    (s.amend p q t n d).headsView = s.headsView := by
  unfold State.amend
  dsimp only
  repeat' split
  all_goals simp

@[simp] theorem State.passback_headsView (p : Nat) (q : Pass) : (s.passback p q).headsView = s.headsView := by
  simp [State.passback]

@[simp] theorem State.admitPass_headsView (p g : Nat) (q : Pass) : (s.admitPass p g q).headsView = s.headsView := by
  simp [State.admitPass]

@[simp] theorem State.scanIn_headsView (p g : Nat) (q : Pass) : (s.scanIn p g q).1.headsView = s.headsView := by
  unfold State.scanIn
  repeat' split
  all_goals simp

@[simp] theorem State.scanOut_headsView (p g : Nat) (q : Pass) : (s.scanOut p g q).1.headsView = s.headsView := by
  unfold State.scanOut; split <;> simp

@[simp] theorem State.scan_headsView (p g : Nat) (q : Pass) (d : ScanDirection) :
    (s.scan p g q d).state.headsView = s.headsView := by
  unfold State.scan
  cases d <;> dsimp only <;> split <;> simp [Served.refuse]

@[simp] theorem State.visitZone_headsView (p : Nat) (q : Pass) : (s.visitZone p q).headsView = s.headsView := by
  have key : ∀ (t : State) (r : Rezone), ({ t with rezone := r } : State).headsView = t.headsView := fun _ _ => rfl
  unfold State.visitZone
  dsimp only
  split
  · rfl
  · rw [key]; split <;> simp

@[simp] theorem State.visitStation_headsView (q : Pass) : (s.visitStation q).headsView = s.headsView := by
  have key : ∀ (t : State) (r : Rezone), ({ t with rezone := r } : State).headsView = t.headsView := fun _ _ => rfl
  unfold State.visitStation
  split
  · split
    · dsimp only; rw [key]; simp
    · rfl
  · rfl

@[simp] theorem State.visitPass_headsView (p : Nat) : (s.visitPass p).headsView = s.headsView := by
  unfold State.visitPass; split <;> simp

@[simp] theorem State.advanceCursor_headsView : s.advanceCursor.headsView = s.headsView := by
  unfold State.advanceCursor
  dsimp only
  repeat' split
  all_goals rfl

/-! ### Clips and channels -/

@[simp] theorem State.use_headsView (i : Nat) : (s.use i).headsView = s.headsView := rfl
@[simp] theorem State.unuse_headsView (i : Nat) : (s.unuse i).headsView = s.headsView := rfl

@[simp] theorem State.startEntry_headsView (c : Chan) (l : Level) (p : Pending) :
    (s.startEntry c l p).headsView = s.headsView := by
  unfold State.startEntry
  dsimp only
  repeat' split
  all_goals simp

@[simp] theorem State.makePending_headsView (c : Chan) (l : Level) (p : Pending) :
    (s.makePending c l p).headsView = s.headsView := by
  unfold State.makePending; dsimp only; split <;> simp

@[simp] theorem State.requestEntry_headsView (c : Chan) (l : Level) (p : Pending) :
    (s.requestEntry c l p).headsView = s.headsView := by
  unfold State.requestEntry; dsimp only; split <;> simp

@[simp] theorem State.choose_headsView (c : Chan) (l : Level) : (s.choose c l).headsView = s.headsView := by
  unfold State.choose
  dsimp only
  repeat' split
  all_goals simp

@[simp] theorem State.weighPending_headsView (c : Chan) : (s.weighPending c).headsView = s.headsView := by
  unfold State.weighPending; split <;> simp

@[simp] theorem State.autoCue_headsView (i : Nat) (p : Program) : (s.autoCue i p).headsView = s.headsView :=
  foldl_kept _ _ (fun t c => t.requestEntry_headsView c _ _) _ _

@[simp] theorem State.grant_headsView : s.grant.headsView = s.headsView := by
  unfold State.grant
  repeat' split
  all_goals rfl

@[simp] theorem State.requestRead_headsView (c : Chan) (l : Level) (i n : Nat) :
    (s.requestRead c l i n).headsView = s.headsView := by
  simp [State.requestRead]

@[simp] theorem State.underrun_headsView (c : Chan) (n : Nat) : (s.underrun c n).headsView = s.headsView := by
  simp [State.underrun]

@[simp] theorem State.endEntry_headsView (c : Chan) (l : Level) (e : InService) :
    (s.endEntry c l e).headsView = s.headsView := by
  simp [State.endEntry]

theorem State.serveAt_headsView (c : Chan) (l : Level) (e : InService) (k : Clip) (f : State → State)
    (hf : ∀ t, (f t).headsView = t.headsView) : (s.serveAt c l e k f).headsView = s.headsView := by
  unfold State.serveAt
  split
  · simp
  · split
    · exact hf s
    · simp

@[simp] theorem State.atEntryEnd_headsView (c : Chan) (l : Level) (e : InService) (k : Clip) :
    (State.atEntryEnd c l e k s).headsView = s.headsView := by
  unfold State.atEntryEnd
  split
  · dsimp only
    rw [State.serveAt_headsView _ _ _ _ _ _ fun t => t.endEntry_headsView c l _, State.setChannel_headsView]
  · simp

@[simp] theorem State.serveCurrent_headsView (c : Chan) : (s.serveCurrent c).headsView = s.headsView := by
  unfold State.serveCurrent
  repeat' split
  all_goals first
    | rfl
    | exact s.atEntryEnd_headsView _ _ _ _
    | exact State.serveAt_headsView _ _ _ _ _ _ fun t => t.atEntryEnd_headsView c _ _ _

@[simp] theorem State.deliverSegment_headsView (c : Chan) (r : Read) : (s.deliverSegment c r).headsView = s.headsView := by
  unfold State.deliverSegment; dsimp only; split <;> simp

@[simp] theorem State.stopLevel_headsView (c : Chan) (l : Level) : (State.stopLevel c s l).headsView = s.headsView := by
  unfold State.stopLevel
  dsimp only
  rw [State.setChannel_headsView]
  repeat' split
  all_goals simp

@[simp] theorem State.stopLevels_headsView (c : Chan) (ls : LevelSet) :
    (s.stopLevels c ls).state.headsView = s.headsView := by
  unfold State.stopLevels
  dsimp only
  repeat' split
  all_goals simp [foldl_kept _ _ fun t l => t.stopLevel_headsView c l]

/-! ### Clip Store and Ingest Unit -/

@[simp] theorem State.vacateClip_headsView (i : Nat) : (s.vacateClip i).headsView = s.headsView := by
  unfold State.vacateClip; split <;> rfl

@[simp] theorem State.evict_headsView (b : Bool) : (s.evict b).headsView = s.headsView := by
  unfold State.evict; split <;> simp

@[simp] theorem State.roomForSlot_headsView : s.roomForSlot.headsView = s.headsView := by
  unfold State.roomForSlot; split <;> simp

@[simp] theorem State.roomForClip_headsView : s.roomForClip.headsView = s.headsView := by
  unfold State.roomForClip; split <;> simp

@[simp] theorem State.releaseAt_headsView (p : Port) (pick : HeldSegment → Bool) (f : Nat → PortCounts → PortCounts) :
    (s.releaseAt p pick f).headsView = s.headsView := by
  simp [State.releaseAt]

@[simp] theorem State.release_headsView (k : Key) (pick : HeldSegment → Bool) :
    (s.release k pick).headsView = s.headsView := by
  simp [State.release]

@[simp] theorem State.releaseKey_headsView (k : Key) : (s.releaseKey k).headsView = s.headsView := by
  simp [State.releaseKey]

@[simp] theorem State.releaseDuplicates_headsView (k : Key) (n : Nat) :
    (s.releaseDuplicates k n).headsView = s.headsView := by
  simp [State.releaseDuplicates]

@[simp] theorem State.tally_headsView (p : Port) (f : PortCounts → PortCounts) : (s.tally p f).headsView = s.headsView := rfl

@[simp] theorem State.dropUnplaced_headsView (p : Port) : (s.dropUnplaced p).headsView = s.headsView := rfl
@[simp] theorem State.dropForeign_headsView (p : Port) : (s.dropForeign p).headsView = s.headsView := rfl
@[simp] theorem State.dropDuplicate_headsView (p : Port) : (s.dropDuplicate p).headsView = s.headsView := rfl

@[simp] theorem State.damage_headsView (i : Nat) (k : Clip) (c : DamageCause) :
    (s.damage i k c).headsView = s.headsView := by
  simp [State.damage]

@[simp] theorem State.readyTest_headsView (i : Nat) : (s.readyTest i).headsView = s.headsView := by
  unfold State.readyTest
  repeat' split
  all_goals simp

@[simp] theorem State.drain_headsView (i n : Nat) : (State.drain i n s).headsView = s.headsView := by
  induction n generalizing s with
  | zero => rfl
  | succ n ih =>
    unfold State.drain
    repeat' split
    · rfl
    · rfl
    · rw [ih]; simp [State.drainOne]

@[simp] theorem State.settleClip_headsView (i : Nat) : (s.settleClip i).headsView = s.headsView := by
  unfold State.settleClip; dsimp only; split <;> simp

@[simp] theorem State.cannotHold_headsView (p : Port) (k : Key) (c : Option (Nat × Clip)) (d : DamageCause) :
    (s.cannotHold p k c d).headsView = s.headsView := by
  unfold State.cannotHold; split <;> simp

@[simp] theorem State.holdIn_headsView (p : Port) (f : SegmentFrame) (n : Nat) :
    (s.holdIn p f n).headsView = s.headsView := rfl

@[simp] theorem State.hold_headsView (p : Port) (f : SegmentFrame) (c : Option (Nat × Clip)) :
    (s.hold p f c).headsView = s.headsView := by
  unfold State.hold
  dsimp only
  repeat' split
  all_goals simp

@[simp] theorem State.append_headsView (p : Port) (f : SegmentFrame) (i : Nat) (k : Clip) :
    (s.append p f i k).headsView = s.headsView := by
  unfold State.append; dsimp only; split <;> simp

@[simp] theorem State.early_headsView (p : Port) (f : SegmentFrame) (i : Nat) (k : Clip) :
    (s.early p f i k).headsView = s.headsView := by
  unfold State.early
  repeat' split
  all_goals simp

@[simp] theorem State.place_headsView (p : Port) (f : SegmentFrame) (i : Nat) (k : Clip) :
    (s.place p f i k).headsView = s.headsView := by
  unfold State.place
  repeat' split
  all_goals simp

@[simp] theorem State.closeConflict_headsView (p : Port) (f : SegmentFrame) (i : Nat) (k : Clip) :
    (s.closeConflict p f i k).headsView = s.headsView := by
  unfold State.closeConflict; split <;> simp

@[simp] theorem State.afterClose_headsView (p : Port) (f : SegmentFrame) (i : Nat) :
    (s.afterClose p f i).headsView = s.headsView := by
  unfold State.afterClose
  repeat' split
  all_goals simp

@[simp] theorem State.closeAndPlace_headsView (p : Port) (f : SegmentFrame) (i : Nat) (k : Clip) :
    (s.closeAndPlace p f i k).headsView = s.headsView := by
  unfold State.closeAndPlace
  repeat' split
  all_goals simp

@[simp] theorem State.handleFrame_headsView (p : Port) (f : SegmentFrame) :
    (s.handleFrame p f).headsView = s.headsView := by
  unfold State.handleFrame
  repeat' split
  all_goals simp

@[simp] theorem State.refuseOpen_headsView (p : Port) (k : Key) : (s.refuseOpen p k).headsView = s.headsView := by
  unfold State.refuseOpen
  dsimp only
  rw [State.note_headsView, State.releaseKey_headsView]
  exact s.dropUnplaced_headsView p

@[simp] theorem State.openClip_headsView (i : Nat) (p : Port) (k : Key) : (s.openClip i p k).headsView = s.headsView := rfl

@[simp] theorem State.openFrame_headsView (p : Port) (f : SegmentFrame) : (s.openFrame p f).headsView = s.headsView := by
  unfold State.openFrame; dsimp only; split <;> simp

@[simp] theorem State.takeOpen_headsView (p : Port) (f : SegmentFrame) : (s.takeOpen p f).headsView = s.headsView := by
  unfold State.takeOpen
  repeat' split
  all_goals simp

@[simp] theorem State.takeSegment_headsView (p : Port) (f : SegmentFrame) :
    (s.takeSegment p f).headsView = s.headsView := by
  unfold State.takeSegment
  repeat' split
  all_goals simp

@[simp] theorem State.goodFrame_headsView (p : Port) (f : SegmentFrame) (b : Bool) :
    (s.goodFrame p f b).headsView = s.headsView := by
  unfold State.goodFrame; dsimp only; split <;> simp

@[simp] theorem State.holdTimeout_headsView (k : Key) : (s.holdTimeout k).headsView = s.headsView := by
  unfold State.holdTimeout
  repeat' split
  all_goals simp

end

end Sys2Proof.Machine

/-!
PROOF LAYER. The drain check and what rests on it: a head keeps everything but its account's contents, or goes from DRAINING to
DARK with its account closed.
-/
namespace Sys2Proof.Machine

/-! ## A head keeps its record, or is drained -/

/-- A head keeps all but its account's contents, or has gone from DRAINING to DARK with its account closed (R15). -/
def HeadEases (x y : Head) : Prop :=
  (y.closed = x.closed ∧ y.account.isSome = x.account.isSome)
    ∨ (x.state = .draining ∧ y = { x.closed with state := .dark })

theorem HeadEases.refl (x : Head) : HeadEases x x := .inl ⟨rfl, rfl⟩

theorem Head.state_of_closed {x y : Head} (e : y.closed = x.closed) : y.state = x.state :=
  show y.closed.state = x.closed.state by rw [e]

theorem Head.live_of_closed {x y : Head} (e : y.closed = x.closed) : y.live = x.live := by
  simp only [Head.live, Head.state_of_closed e]

/-- A head whose account is closed is what it is apart from its account. -/
theorem Head.eq_of_closed {x y : Head} (e : y.closed = x.closed) (a : y.account = x.account) : y = x := by
  cases x; cases y; simp_all [Head.closed]

theorem HeadEases.trans {x y z : Head} (a : HeadEases x y) (b : HeadEases y z) : HeadEases x z := by
  obtain ⟨a1, a2⟩ | ⟨a1, a2⟩ := a <;> obtain ⟨b1, b2⟩ | ⟨b1, b2⟩ := b
  · exact .inl ⟨b1.trans a1, b2.trans a2⟩
  · exact .inr ⟨(Head.state_of_closed a1).symm.trans b1, by rw [b2, a1]⟩
  · subst a2
    have closed : z.account = none := by simpa [Head.closed] using b2
    exact .inr ⟨a1, Head.eq_of_closed b1 (by rw [closed]; rfl)⟩
  · subst a2; cases b1

/-- A head in a state other than DRAINING keeps all but its account's contents. -/
theorem HeadEases.closed_eq {x y : Head} (e : HeadEases x y) (n : x.state ≠ .draining) : y.closed = x.closed := by
  obtain ⟨e, -⟩ | ⟨e, -⟩ := e
  · exact e
  · exact absurd e n

theorem HeadEases.live {x y : Head} (e : HeadEases x y) (n : x.live = false) : y.live = false := by
  obtain ⟨e, -⟩ | ⟨-, rfl⟩ := e
  · rw [Head.live_of_closed e, n]
  · rfl

/-- Every head keeps its record, or is drained. -/
def State.HeadsEase (s t : State) : Prop := ∀ h, HeadEases (s.head h) (t.head h)

theorem State.HeadsEase.refl (s : State) : s.HeadsEase s := fun h => .refl (s.head h)

theorem State.HeadsEase.trans {s t u : State} (a : s.HeadsEase t) (b : t.HeadsEase u) : s.HeadsEase u :=
  fun h => (a h).trans (b h)

theorem State.HeadsEase.of_view {s t : State} (e : t.headsView = s.headsView) : s.HeadsEase t :=
  fun h => .inl ⟨State.closed_of_headsView e h, State.account_isSome_of_headsView e h⟩

/-- A step that keeps the heads' view may follow. -/
theorem State.HeadsEase.view {s t u : State} (a : s.HeadsEase t) (e : u.headsView = t.headsView) : s.HeadsEase u :=
  a.trans (.of_view e)

theorem State.HeadsEase.foldl {α : Type} (f : State → α → State) (step : ∀ (s : State) a, s.HeadsEase (f s a)) (xs : List α) (s : State) :
    s.HeadsEase (xs.foldl f s) := by
  induction xs generalizing s with
  | nil => exact .refl s
  | cons x xs ih => exact (step s x).trans (ih _)

/-! ## Operations that make a drain check -/

section
variable (s : State)

theorem State.drainCheck_eases (h : HeadId) : s.HeadsEase (s.drainCheck h) := by
  unfold State.drainCheck
  split
  · next c =>
    refine .view (t := s.setHead h { (s.head h).closed with state := .dark }) (fun g => ?_) (by simp)
    by_cases e : g = h
    · subst e; exact .inr ⟨c.1, by simp⟩
    · rw [State.head_setHead_of_ne _ _ e]; exact .refl _
  · exact .refl s

theorem State.releaseHold_eases (x : Hold) : s.HeadsEase (s.releaseHold x) :=
  .trans (.of_view (by simp)) (State.drainCheck_eases _ _)

theorem State.undoHandover_eases (x : Hold) (k : RoamEnd) : s.HeadsEase (s.undoHandover x k) :=
  (s.releaseHold_eases x).view (by simp [State.undoHandover])

theorem State.abortSourceLost_eases (x : Hold) : s.HeadsEase (s.abortSourceLost x) :=
  (State.HeadsEase.trans (.of_view (s.cancel_headsView x)) (State.releaseHold_eases _ x)).view
    (by simp [State.abortSourceLost])

theorem State.abortDeparture_eases (x : Hold) (tell : Bool) : s.HeadsEase (s.abortDeparture x tell) := by
  have told : (if tell then s.cancel x else s).headsView = s.headsView := by split <;> simp
  exact (State.HeadsEase.trans (.of_view told) (State.releaseHold_eases _ x)).view (by simp [State.abortDeparture])

theorem State.loseMember_eases (i : Nat) : s.HeadsEase (s.loseMember i) := by
  unfold State.loseMember
  split
  · exact s.abortSourceLost_eases _
  · exact .of_view (by simp)

theorem State.vacate_eases (i : Nat) (a b : Bool) : s.HeadsEase (s.vacate i a b) := by
  have freed : ∀ o : Option Hold, s.HeadsEase (match o with | none => s | some x => s.abortDeparture x b) := by
    intro o
    cases o with
    | none => exact .refl s
    | some x => exact s.abortDeparture_eases x b
  have unbound : ∀ (u : State) (o : Option Nat), s.HeadsEase u →
      s.HeadsEase (match o with | none => u | some p => u.unbindPass p .admitted) := by
    intro u o e
    cases o with
    | none => exact e
    | some p => exact e.view (by simp)
  have dropped : ∀ u : State, ({ u with stations := Table.drop u.stations i } : State).headsView = u.headsView :=
    fun _ => rfl
  unfold State.vacate
  split
  · exact .refl s
  · next st _ =>
    dsimp only
    have ended := unbound _ st.pass (freed (s.holdOf i))
    split
    · exact ended.view (dropped _)
    · refine .trans (ended.view ?_) (State.drainCheck_eases _ _)
      rw [State.recompute_headsView, dropped]
      split
      · exact State.send_headsView _ _ _
      · rfl

theorem State.directMove_eases (g h : HeadId) (i : Nat) (st : Station) (r : Int) :
    s.HeadsEase (s.directMove g h i st r) := by
  unfold State.directMove State.declineAssoc
  split
  · exact .of_view (by simp)
  · split
    · dsimp only
      exact State.HeadsEase.trans (.of_view (by simp)) (State.drainCheck_eases _ g)
    · exact .of_view (by simp)

theorem State.assocRequest_eases (h : HeadId) (a : StationAddress) (r : Int) : s.HeadsEase (s.assocRequest h a r) := by
  have declined : ∀ c, s.HeadsEase (s.declineAssoc h a c) := fun c => .of_view (s.send_headsView h _)
  unfold State.assocRequest
  split
  · exact declined _
  · split
    · split
      · exact .of_view (s.associate_headsView h a r)
      · exact declined _
    · split
      · exact .refl s
      · split
        · exact declined _
        · split
          · exact .of_view (s.send_headsView h _)
          · split
            · split
              · exact .of_view (s.returnStation_headsView h _ _ r)
              · exact s.directMove_eases _ h _ _ r
            · exact declined _

theorem State.land_eases (i : Nat) (st : Station) (x : Hold) : s.HeadsEase (s.land i st x) := by
  unfold State.land
  refine State.HeadsEase.view (State.HeadsEase.trans (.of_view ?_) (State.drainCheck_eases _ x.source))
    (State.note_headsView _ _)
  simp

theorem State.forMember_eases (h : HeadId) (a : StationAddress) (work : Nat → Station → State)
    (hw : ∀ i st, s.HeadsEase (work i st)) : s.HeadsEase (s.forMember h a work) := by
  unfold State.forMember
  repeat' split
  all_goals first | exact hw _ _ | exact .refl s

end

/-! ## The loss of a head -/

/-- The loss of a head's stations and holds leaves the other heads as they were or drained. -/
theorem State.loseHead_eases_other (s : State) {h g : HeadId} (ne : g ≠ h) :
    HeadEases (s.head g) ((s.loseHead h).head g) := by
  unfold State.loseHead State.loseIdleMembers
  dsimp only
  rw [State.head_setHead_of_ne _ _ ne]
  have idle := State.HeadsEase.foldl State.lapse (fun s i => .of_view (s.lapse_headsView i))
  have arriving := State.HeadsEase.foldl State.abortTargetLost (fun s x => .of_view (s.abortTargetLost_headsView x))
  have departing := State.HeadsEase.foldl State.abortSourceLost (fun s x => s.abortSourceLost_eases x)
  exact ((idle _ _).trans ((arriving _ _).trans (departing _ _))) g

/-- The head itself, not DRAINING, keeps its record with its account closed. -/
theorem State.loseHead_head_self (s : State) {h : HeadId} (n : (s.head h).state ≠ .draining) :
    (s.loseHead h).head h = (s.head h).closed := by
  unfold State.loseHead State.loseIdleMembers
  dsimp only
  rw [State.head_setHead_self]
  have idle := State.HeadsEase.foldl State.lapse (fun s i => .of_view (s.lapse_headsView i))
  have arriving := State.HeadsEase.foldl State.abortTargetLost (fun s x => .of_view (s.abortTargetLost_headsView x))
  have departing := State.HeadsEase.foldl State.abortSourceLost (fun s x => s.abortSourceLost_eases x)
  exact HeadEases.closed_eq (((idle _ _).trans ((arriving _ _).trans (departing _ _))) h) n

end Sys2Proof.Machine

/-!
PROOF LAYER. Heads in order, and nothing live in CONFIG: what keeps both.
-/
namespace Sys2Proof.Machine

/-! ## Heads in order -/

theorem HeadInOrder.ease {h : HeadId} {x y : Head} (o : HeadInOrder h x) (e : HeadEases x y) : HeadInOrder h y := by
  obtain ⟨e, a⟩ | ⟨d, rfl⟩ := e
  · cases x; cases y
    simp only [Head.closed, Head.mk.injEq] at e
    obtain ⟨rfl, rfl, rfl, rfl, rfl, rfl, rfl, rfl, rfl, rfl, rfl, rfl, -⟩ := e
    simpa only [HeadInOrder, Head.serving, Head.live, a] using o
  · simp_all [HeadInOrder, Head.closed, Head.serving, Head.live]

theorem State.HeadsInv.ease {s t : State} (o : s.HeadsInv) (e : s.HeadsEase t) : t.HeadsInv :=
  fun h => (o h).ease (e h)

theorem State.HeadsInv.setHead {s : State} (o : s.HeadsInv) {h : HeadId} {x : Head} (hx : HeadInOrder h x) :
    (s.setHead h x).HeadsInv := by
  intro g
  rw [State.head_setHead]
  split
  · next e => exact e ▸ hx
  · exact o g

/-- A head that is not live is neither ON nor DRAINING, and its account is closed. -/
theorem HeadInOrder.account_none {h : HeadId} {x : Head} (o : HeadInOrder h x) (n : x.live = false) : x.account = none := by
  have unserving : x.serving = false := by
    simp only [Head.live, Bool.or_eq_false_iff] at n
    simp [Head.serving, n.1.2, n.2]
  simpa [unserving] using o.1

/-! ## Nothing stored while in CONFIG -/

/-- No station, hold or clip is stored, the hold queues are empty and every channel is IDLE. -/
def State.Bare (s : State) : Prop :=
  s.stations = [] ∧ s.holds = [] ∧ s.clips = [] ∧ s.portA.queue = [] ∧ s.portB.queue = []
    ∧ ∀ c, (s.channel c).running = false

/-- The heads are in order, and in CONFIG nothing is live. -/
def State.Orderly (s : State) : Prop := s.HeadsInv ∧ s.ConfigInv

theorem State.Orderly.of_run {s : State} (h : s.HeadsInv) (r : s.part = .run) : s.Orderly :=
  ⟨h, fun c => by rw [r] at c; cases c⟩

theorem State.Orderly.bare {s : State} (o : s.Orderly) (c : s.part = .config) : s.Bare := (o.2 c).2

theorem State.Orderly.not_live {s : State} (o : s.Orderly) (c : s.part = .config) (h : HeadId) : (s.head h).live = false :=
  (o.2 c).1 h

/-- A live head is found in RUN alone. -/
theorem State.Orderly.run_of_live {s : State} (o : s.Orderly) {h : HeadId} (l : (s.head h).live = true) : s.part = .run := by
  cases c : s.part with
  | run => rfl
  | config => rw [o.not_live c h] at l; cases l

theorem State.Sound.orderly {s : State} (h : s.Sound) : s.Orderly := ⟨h.heads, h.config⟩

/-- What keeps the part state, eases the heads and, in CONFIG, stores nothing, keeps the order. -/
theorem State.Orderly.keep {s t : State} (o : s.Orderly) (e : s.HeadsEase t) (p : t.part = s.part)
    (b : s.part = .config → s.Bare → t.Bare) : t.Orderly :=
  ⟨o.1.ease e, fun c =>
    have c' : s.part = .config := p ▸ c
    ⟨fun h => (e h).live (o.not_live c' h), b c' (o.bare c')⟩⟩

/-- What leaves the heads alone keeps the order likewise. -/
theorem State.Orderly.keep_view {s t : State} (o : s.Orderly) (e : t.headsView = s.headsView) (p : t.part = s.part)
    (b : s.part = .config → s.Bare → t.Bare) : t.Orderly := o.keep (.of_view e) p b

/-- A head record in order that is not live in CONFIG may be written. -/
theorem State.Orderly.setHead {s : State} (o : s.Orderly) {h : HeadId} {x : Head} (hx : HeadInOrder h x)
    (l : s.part = .config → x.live = false) : (s.setHead h x).Orderly := by
  refine ⟨o.1.setHead hx, fun c => ⟨fun g => ?_, o.bare c⟩⟩
  rw [State.head_setHead]
  split
  · exact l c
  · exact o.not_live c g

theorem State.Orderly.flush {s : State} (o : s.Orderly) : s.flush.Orderly :=
  o.keep_view s.flush_headsView (by rw [State.flush_eq]) fun _ b => by rw [State.flush_eq]; exact b

theorem State.Orderly.reply {s : State} (o : s.Orderly) (type tag : Byte) (c : Code) (d : Content) :
    (s.reply type tag c d).Orderly := o.keep_view rfl rfl fun _ b => b

theorem State.part_of_besideBowl {s t : State} (h : t.besideBowl = s.besideBowl) : t.part = s.part := by
  have := besideBowl_link h
  simp only [State.linkView, Prod.mk.injEq] at this
  exact this.2.2.2.1

theorem State.part_of_besideReplay {s t : State} (h : t.besideReplay = s.besideReplay) : t.part = s.part := by
  have := besideReplay_link h
  simp only [State.linkView, Prod.mk.injEq] at this
  exact this.2.2.2.1

/-- The work of a bowl command in RUN keeps the order if it eases the heads. -/
theorem State.Orderly.run_bowl {s t : State} (o : s.Orderly) (r : s.part = .run) (b : t.besideBowl = s.besideBowl)
    (e : s.HeadsInv → t.HeadsInv) : t.Orderly := .of_run (e o.1) ((State.part_of_besideBowl b).trans r)

/-! ## Operations on a bare state -/

section
variable {s : State} (b : s.Bare) (i : Nat)
include b

theorem State.Bare.station : s.station i = none := by simp [State.station, b.1, Table.get]
theorem State.Bare.holdOf : s.holdOf i = none := by simp [State.holdOf, b.2.1]
theorem State.Bare.clip : s.clip i = none := by simp [State.clip, b.2.2.1, Table.get]
theorem State.Bare.headOf : s.headOf i = none := by simp [State.headOf, b.station]

theorem State.Bare.updateStation (f : Station → Station) : s.updateStation i f = s := by
  obtain ⟨e, -⟩ := b
  simp only [State.updateStation, Table.update, e, List.map_nil]
  cases s; simp_all

theorem State.Bare.updateClip (f : Clip → Clip) : s.updateClip i f = s := by
  obtain ⟨-, -, e, -⟩ := b
  simp only [State.updateClip, Table.update, e, List.map_nil]
  cases s; simp_all

theorem State.Bare.setReservation : s.setReservation i = s := by simp [State.setReservation, b.station]
theorem State.Bare.trim : s.trim i = s := by simp [State.trim, b.station]
theorem State.Bare.recomputeOf : s.recomputeOf i = s := by simp [State.recomputeOf, b.headOf]
theorem State.Bare.recomputeBoth : s.recomputeBoth i = s := by
  simp [State.recomputeBoth, State.recomputeTarget, b.recomputeOf, b.station]
theorem State.Bare.settle : s.settle i = s := by simp [State.settle, b.setReservation]
theorem State.Bare.overSubscribed : s.overSubscribed i = false := by simp [State.overSubscribed, b.station]

theorem State.Bare.bringIntoLine : s.bringIntoLine i = s := by
  simp [State.bringIntoLine, b.setReservation, b.overSubscribed, b.recomputeOf]

theorem State.Bare.unbindStation : s.unbindStation i = s := by
  simp [State.unbindStation, b.updateStation, b.setReservation, b.trim, b.recomputeBoth]

theorem State.Bare.setPass (x : Pass) : (s.setPass i x).Bare := b

theorem State.Bare.count (z : Option ZoneId) (f : Zone → Zone) : (s.count z f).Bare := b

theorem State.Bare.censusMove (z : Option ZoneId) (x y : Option PassState) : (s.censusMove z x y).Bare := b

theorem State.Bare.note (n : Notice) : (s.note n).Bare := b

theorem State.Bare.setHead (h : HeadId) (x : Head) : (s.setHead h x).Bare := b

theorem State.Bare.rezoneCounts (x : PassState) (y z : Option ZoneId) : (s.rezoneCounts x y z).Bare := by
  unfold State.rezoneCounts; split <;> exact b

theorem State.Bare.unbindPass (a : PassState) : (s.unbindPass i a).Bare := by
  unfold State.unbindPass
  split
  · exact b
  · next q _ =>
    have moved : ((s.setPass i { q with station := none, state := a }).censusMove q.cached (some q.state) (some a)).Bare := b
    dsimp only
    split
    · exact moved
    · rw [moved.updateStation]; exact moved

theorem State.Bare.unbind (a : PassState) : (s.unbind i a).Bare := by
  unfold State.unbind
  split
  · exact b.unbindPass i a
  · rw [(b.unbindPass i a).unbindStation]; exact b.unbindPass i a

theorem State.Bare.suspectIf (q : Pass) (r : Bool) (c : SuspectCause) : (s.suspectIf i q r c).Bare := by
  unfold State.suspectIf; split <;> exact b

omit i in
theorem State.Bare.visitZone (p : Nat) (q : Pass) : (s.visitZone p q).Bare := by
  unfold State.visitZone
  dsimp only
  split
  · exact b
  · have moved := (b.setPass p { q with cached := s.cachedZone q.seat q.declared }).rezoneCounts q.state q.cached
      (s.cachedZone q.seat q.declared)
    split <;> exact moved

omit i in
theorem State.Bare.visitPass (p : Nat) : (s.visitPass p).Bare := by
  unfold State.visitPass
  split
  · exact b
  · next q _ =>
    have seen := b.visitZone p q
    unfold State.visitStation
    split
    · rw [seen.overSubscribed]; exact seen
    · exact seen

omit i in
theorem State.Bare.advanceCursor : s.advanceCursor.Bare := by
  unfold State.advanceCursor
  dsimp only
  repeat' split
  all_goals exact b

/-- A record that keeps a channel's in-service entries may be written. -/
theorem State.Bare.setChannel (c : Chan) {x : Channel} (e : x.inService = (s.channel c).inService) :
    (s.setChannel c x).Bare := by
  obtain ⟨b1, b2, b3, b4, b5, b6⟩ := b
  refine ⟨b1, b2, b3, b4, b5, fun d => ?_⟩
  have idle := b6 c
  by_cases h : d = c
  · subst h
    simpa [State.channel, State.setChannel, Channel.running, Channel.currentLevel, Channel.entry, e] using idle
  · have ne : c.val ≠ d.val := fun w => h (Fin.ext w.symm)
    simpa [State.channel, State.setChannel, Vector.getElem_set, ne] using b6 d

end

end Sys2Proof.Machine

/-!
PROOF LAYER. Every command keeps the heads in order, and nothing live in CONFIG.
-/
namespace Sys2Proof.Machine

/-- A command's outcome leaves the heads in order. -/
def OrderlyResult (r : Result) : Prop := ∀ t, r = .next t → t.Orderly

theorem OrderlyResult.next {s : State} (o : s.Orderly) : OrderlyResult (.next s) := by
  rintro t ⟨⟩; exact o

theorem OrderlyResult.done {s : State} (o : s.Orderly) : OrderlyResult s.done := .next o.flush

/-! ## Heads -/

section
variable {s : State} (o : s.Orderly) (h : HeadId)
include o

theorem State.Orderly.expireAt (due : Micros) : (s.expireAt due).Orderly := o.keep_view rfl rfl fun _ b => b

theorem State.Orderly.discard (l : LinkId) : (s.discard l).Orderly := o.keep_view rfl rfl fun _ b => b

theorem State.Orderly.note (n : Notice) : (s.note n).Orderly := o.keep_view rfl rfl fun _ b => b

/-- A head that is not live may be heard in DARK. -/
theorem State.Orderly.headToDark (n : (s.head h).live = false) : (s.headToDark h).Orderly := by
  have hx := o.1 h
  have closed := hx.account_none n
  unfold State.headToDark State.hearHead
  rw [State.setHead_setHead]
  refine o.setHead ?_ fun _ => by simp [Head.live]
  have starts : (s.head h).startTimer = none := by
    have := hx.2.2.1
    simp only [Head.live, Bool.or_eq_false_iff] at n
    simpa [n.1.1] using this
  obtain ⟨-, -, -, h4, h5, h6, -, h8, h9, h10, h11, -⟩ := hx
  simp [HeadInOrder, Head.serving, Head.live, closed, starts, h4, h5, h6, h8, h9, h10, h11]

/-- A head whose supervision timer runs may be heard. -/
theorem State.Orderly.hearHead (n : (s.head h).supervision.isSome = true) : (s.hearHead h).Orderly := by
  obtain ⟨h1, h2, h3, h4, h5, h6, -, h8, h9, h10, h11, h12⟩ := o.1 h
  refine o.setHead ⟨h1, h2.symm.trans n |>.symm, h3, h4, h5, h6, by simp, h8, h9, h10, h11, h12⟩ fun c => ?_
  exact o.not_live c h

/-- A head loses its stations: with its new record in order once its account is closed, all are in order. -/
theorem State.Orderly.loseHead {x : Head} (r : s.part = .run) (hx : HeadInOrder h x.closed) (n : x.state ≠ .draining) :
    ((s.setHead h x).loseHead h).Orderly := by
  refine .of_run (fun g => ?_) ((State.part_of_besideBowl (State.loseHead_besideBowl _ h)).trans r)
  by_cases e : g = h
  · subst e
    rw [State.loseHead_head_self _ (by simpa using n), State.head_setHead_self]
    exact hx
  · have eased := State.loseHead_eases_other (s.setHead h x) e
    rw [State.head_setHead_of_ne _ _ e] at eased
    exact (o.1 g).ease eased

theorem State.Orderly.headFault (l : (s.head h).live = true) (f : FaultReason) : (s.headFault h f).Orderly := by
  obtain ⟨-, -, -, h4, h5, h6, h7, h8, h9, h10, h11, h12⟩ := o.1 h
  have hx : HeadInOrder h
      ({ s.head h with state := .fault, startTimer := none, supervision := none } : Head).closed := by
    simp [HeadInOrder, Head.closed, Head.serving, Head.live, h4, h5, h6, h7, h8, h9, h10, h11]
  exact (o.loseHead h (o.run_of_live l) hx (by simp)).note _

/-- The miss count alone may be written. -/
theorem State.Orderly.setMiss {m : Nat} (le : m ≤ 3) : (s.setHead h { s.head h with miss := m }).Orderly := by
  obtain ⟨h1, h2, h3, h4, h5, h6, -, h8, h9, h10, h11, h12⟩ := o.1 h
  exact o.setHead ⟨h1, h2, h3, h4, h5, h6, le, h8, h9, h10, h11, h12⟩ fun c => o.not_live c h

end

theorem execAnnounce_orderly {s : State} (o : s.Orderly) (h : HeadId) : OrderlyResult (execAnnounce h s) := by
  refine .done ?_
  split
  · next e => exact o.headToDark h (by simp [Head.live, e])
  · next e =>
    have := (o.1 h).2.1
    exact o.hearHead h (by simpa [e] using this)
  · next e => exact o.headToDark h (by simp [Head.live, e])
  all_goals
    next e => exact (o.headFault h (by simp [Head.live, e]) _).setMiss h (by omega)

theorem execHeartbeat_orderly {s : State} (o : s.Orderly) (h : HeadId) : OrderlyResult (execHeartbeat h s) := by
  have supervised := (o.1 h).2.1
  refine .done ?_
  split
  · next e => exact o.headToDark h (by simp [Head.live, e])
  · next e => exact o.headToDark h (by simp [Head.live, e])
  all_goals
    next e => exact o.hearHead h (by simpa [Head.live, e] using supervised)

/-! ### The supervision timer -/

/-- A live head is STARTING, ON or DRAINING. -/
theorem Head.live_iff {x : Head} : x.live = true ↔ x.state = .starting ∨ x.state = .on ∨ x.state = .draining := by
  simp [Head.live, or_assoc]

/-- A head enters FAULT: its record is written first, then it loses its stations (R6). -/
theorem State.headFault_setHead (s : State) (h : HeadId) (x : Head) (r : FaultReason) :
    (s.setHead h x).headFault h r =
      ((s.setHead h { x with state := .fault, startTimer := none, supervision := none }).loseHead h).note
        (.head h (.fault r) .fault) := by
  simp only [State.headFault, State.setHead_setHead, State.head_setHead_self]

/-- Below the third miss the timer restarts (R5). -/
theorem State.missHeartbeat_restarts {s : State} {h : HeadId} (m : (s.head h).miss < 2) :
    s.missHeartbeat h =
      s.setHead h { s.head h with miss := (s.head h).miss + 1, supervision := some (s.now + ms 250) } := by
  have up : countUp 3 (s.head h).miss = (s.head h).miss + 1 := by unfold countUp; rw [if_pos (by omega)]
  have lt : (s.head h).miss + 1 < 3 := by omega
  simp only [State.missHeartbeat, up, lt, if_true]

theorem countUp_three {m : Nat} (le : 2 ≤ m) : countUp 3 m = 3 := by
  unfold countUp; split <;> omega

/-- At the third miss a DARK head enters ABSENT (R5). -/
theorem State.missHeartbeat_of_dark {s : State} {h : HeadId} (m : 2 ≤ (s.head h).miss) (e : (s.head h).state = .dark) :
    s.missHeartbeat h = s.setHead h { s.head h with state := .absent, miss := 3, supervision := none } := by
  simp [State.missHeartbeat, countUp_three m, e]

/-- At the third miss a live head enters FAULT (R5). -/
theorem State.missHeartbeat_of_live {s : State} {h : HeadId} (m : 2 ≤ (s.head h).miss) (l : (s.head h).live = true) :
    s.missHeartbeat h = (s.setHead h { s.head h with miss := 3, supervision := none }).headFault h .missed := by
  rcases Head.live_iff.1 l with e | e | e <;> simp [State.missHeartbeat, countUp_three m, e]

/-- The expiry of a running supervision timer. -/
theorem State.Orderly.missHeartbeat {s : State} (o : s.Orderly) (h : HeadId) (n : (s.head h).supervision.isSome = true) :
    (s.missHeartbeat h).Orderly := by
  obtain ⟨h1, h2, h3, h4, h5, h6, -, h8, h9, h10, h11, h12⟩ := o.1 h
  by_cases m : (s.head h).miss < 2
  · rw [State.missHeartbeat_restarts m]
    refine o.setHead ⟨h1, h2.symm.trans n |>.symm, h3, h4, h5, h6, ?_, h8, h9, h10, h11, h12⟩ fun c => ?_
    · dsimp only; omega
    · exact o.not_live c h
  · rw [Nat.not_lt] at m
    rw [n, eq_comm, Bool.or_eq_true, beq_iff_eq] at h2
    rcases h2 with e | l
    · rw [State.missHeartbeat_of_dark m e]
      have closed := (o.1 h).account_none (by simp [Head.live, e])
      have starts : (s.head h).startTimer = none := by
        rw [e] at h3
        simpa using (show _ = false from h3)
      refine o.setHead ?_ fun _ => by simp [Head.live]
      simp [HeadInOrder, Head.serving, Head.live, closed, starts, h4, h5, h6, h8, h9, h10, h11]
    · rw [State.missHeartbeat_of_live m l, State.headFault_setHead]
      refine (o.loseHead h (o.run_of_live l) ?_ (by simp)).note _
      simp [HeadInOrder, Head.closed, Head.serving, Head.live, h4, h5, h6, h8, h9, h10, h11]

theorem execSupervisionTimerExpiry_orderly {s : State} (o : s.Orderly) (h : HeadId) :
    OrderlyResult (execSupervisionTimerExpiry h s) := by
  refine .done ?_
  split
  · exact o
  · next due e => exact (o.expireAt due).missHeartbeat h (Option.isSome_iff_exists.2 ⟨due, e⟩)

theorem execStartTimerExpiry_orderly {s : State} (o : s.Orderly) (h : HeadId) : OrderlyResult (execStartTimerExpiry h s) := by
  refine .done ?_
  split
  · exact o
  · next due e =>
    have starting : (s.head h).state = .starting := by
      have := (o.1 h).2.2.1
      simpa [e] using this
    have starting' : ((s.expireAt due).head h).state = .starting := starting
    simp only [starting', if_true]
    exact (o.expireAt due).headFault h (by simp [Head.live, starting']) _

/-! ## Frames handed on -/

/-- A frame that is handed on is worked on in RUN; else it is discarded. -/
theorem State.Orderly.handOn {s : State} (o : s.Orderly) (h : HeadId) (work : State → State)
    (hw : s.part = .run → (work s).Orderly) : (s.handOn h work).Orderly := by
  unfold State.handOn
  split
  · exact o.discard _
  · next n =>
    refine hw ?_
    cases e : s.part with
    | run => rfl
    | config => simp [e] at n

/-- The work of a bowl frame that eases the heads. -/
theorem State.Orderly.handOn_eases {s : State} (o : s.Orderly) (h : HeadId) (work : State → State)
    (b : (work s).besideBowl = s.besideBowl) (e : s.HeadsEase (work s)) : (s.handOn h work).Orderly :=
  o.handOn h work fun r => o.run_bowl r b fun i => i.ease e

theorem execSetupDone_orderly {s : State} (o : s.Orderly) (h : HeadId) : OrderlyResult (execSetupDone h s) := by
  refine .done (o.handOn h _ fun r => ?_)
  split
  · next e =>
    obtain ⟨-, h2, -, h4, h5, h6, h7, h8, h9, h10, h11, h12⟩ := o.1 h
    have seq : (s.head h).seqPos = 0 := h12 (by simp [Head.live, e])
    have supervised : (s.head h).supervision.isSome = true := by simpa [Head.live, e] using h2
    refine .of_run (fun g => ?_) r
    simp only [State.openAccount, State.setHead_setHead, State.head_setHead_self]
    refine (o.1.setHead (h := h) ?_ : State.HeadsInv _) g
    simp [HeadInOrder, Head.serving, Head.live, supervised, h4, h5, h6, h7, h9, h10, h11, seq]
  · exact o

theorem execAssocReq_orderly {s : State} (o : s.Orderly) (h : HeadId) (a : StationAddress) (r : Int) :
    OrderlyResult (execAssocReq h a r s) := by
  refine .done ?_
  split
  · refine o.keep (s.assocRequest_eases h a r) (State.part_of_besideBowl (s.assocRequest_besideBowl h a r)) fun c b => ?_
    have declined : s.assocRequest h a r = s.declineAssoc h a .state := by simp [State.assocRequest, c]
    rw [declined]; exact b
  · exact o.discard _

theorem execDisassoc_orderly {s : State} (o : s.Orderly) (h : HeadId) (a : StationAddress) :
    OrderlyResult (execDisassoc h a s) := by
  refine .done (o.handOn_eases h _ ?_ ?_)
  · repeat' split
    all_goals simp
  · repeat' split
    all_goals first | exact .refl s | exact s.vacate_eases _ _ _

theorem execLost_orderly {s : State} (o : s.Orderly) (h : HeadId) (a : StationAddress) : OrderlyResult (execLost h a s) := by
  refine .done (o.handOn_eases h _ (State.forMember_besideBowl s h a _ fun i _ => by simp)
    (State.forMember_eases s h a _ fun i _ => ?_))
  exact ((s.loseMember_eases i).view (State.recompute_headsView _ h)).trans (State.drainCheck_eases _ h)

theorem execStationReport_orderly {s : State} (o : s.Orderly) (h : HeadId) (a : StationAddress) (r : Int)
    (cs : List (Nat × Int)) : OrderlyResult (execStationReport h a r cs s) := by
  refine .done ?_
  split
  · exact o.discard _
  · exact o.handOn_eases h _ (State.forMember_besideBowl s h a _ fun i st => by simp)
      (State.forMember_eases s h a _ fun i st => .of_view (by simp))

theorem execJoinReq_orderly {s : State} (o : s.Orderly) (h : HeadId) (a : StationAddress) (c : Nat) :
    OrderlyResult (execJoinReq h a c s) :=
  .done (o.handOn_eases h _ (State.forMember_besideBowl s h a _ fun i st => by simp)
    (State.forMember_eases s h a _ fun i st => .of_view (by simp)))

theorem execLeaveReq_orderly {s : State} (o : s.Orderly) (h : HeadId) (a : StationAddress) (c : Nat) :
    OrderlyResult (execLeaveReq h a c s) :=
  .done (o.handOn_eases h _ (State.forMember_besideBowl s h a _ fun i st => by simp)
    (State.forMember_eases s h a _ fun i st => .of_view (by simp)))

theorem execBindReq_orderly {s : State} (o : s.Orderly) (h : HeadId) (a : StationAddress) (n : PassNumber) :
    OrderlyResult (execBindReq h a n s) :=
  .done (o.handOn_eases h _ (State.forMember_besideBowl s h a _ fun i st => by simp)
    (State.forMember_eases s h a _ fun i st => .of_view (by simp)))

theorem execUnbindReq_orderly {s : State} (o : s.Orderly) (h : HeadId) (a : StationAddress) :
    OrderlyResult (execUnbindReq h a s) :=
  .done (o.handOn_eases h _ (State.forMember_besideBowl s h a _ fun i st => by simp)
    (State.forMember_eases s h a _ fun i st => .of_view (by simp)))

/-- A late answer raises the late count of the head that sent it, and nothing else of a head. -/
theorem State.HeadsInv.lateAnswer {s : State} (o : s.HeadsInv) (h : HeadId) (a : StationAddress) (i : Nat) :
    (s.lateAnswer h a i).HeadsInv := by
  have hx : HeadInOrder h { s.head h with late := count16 (s.head h).late } := o h
  exact (o.setHead hx).ease (.of_view (State.send_headsView _ h _))

theorem execReady_orderly {s : State} (o : s.Orderly) (h : HeadId) (a : StationAddress) (i : Nat) :
    OrderlyResult (execReady h a i s) := by
  refine .done (o.handOn h _ fun r => ?_)
  split
  · exact o.run_bowl r (by simp) fun w => w.ease (s.land_eases i _ _)
  · exact o.run_bowl r (by simp) fun w => w.lateAnswer h a i

theorem execDecline_orderly {s : State} (o : s.Orderly) (h : HeadId) (a : StationAddress) (i : Nat) :
    OrderlyResult (execDecline h a i s) := by
  refine .done (o.handOn h _ fun r => ?_)
  split
  · exact o.run_bowl r (by simp) fun w => w.ease (s.undoHandover_eases _ _)
  · exact o.run_bowl r (by simp) fun w => w.lateAnswer h a i

/-! ## Timers of stations and accounts -/

theorem execLapseTimerExpiry_orderly {s : State} (o : s.Orderly) (i : Nat) : OrderlyResult (execLapseTimerExpiry i s) := by
  refine .done ?_
  split
  · exact o
  · next due e =>
    refine (o.expireAt due).keep (State.vacate_eases _ i true true)
      (State.part_of_besideBowl (State.vacate_besideBowl _ i true true)) fun c b => ?_
    have vacant := State.Bare.station (s := s) b i
    simp [vacant] at e

theorem execHandoverTimerExpiry_orderly {s : State} (o : s.Orderly) (i : Nat) :
    OrderlyResult (execHandoverTimerExpiry i s) := by
  refine .done ?_
  split
  · exact o
  · next x e =>
    refine (o.expireAt x.due).keep (.trans (.of_view (State.cancel_headsView _ x)) (State.undoHandover_eases _ x _))
      (State.part_of_besideBowl (by simp)) fun c b => ?_
    have none_ := State.Bare.holdOf (s := s) b i
    rw [none_] at e; cases e

theorem execWindowTimerExpiry_orderly {s : State} (o : s.Orderly) (h : HeadId) :
    OrderlyResult (execWindowTimerExpiry h s) := by
  refine .done ?_
  split
  · exact o
  · next a e =>
    have r : s.part = .run := by
      cases c : s.part with
      | run => rfl
      | config => rw [(o.1 h).account_none (o.not_live c h)] at e; cases e
    refine (o.expireAt a.window).run_bowl r (by simp) fun w => w.ease (.of_view ?_)
    simp only [State.restoreShed_headsView, State.retryCapped_headsView]
    exact State.headsView_setHead rfl (by rw [show ((s.expireAt a.window).head h).account = some a from e]; rfl)

/-! ## Replay events -/

theorem execSegmentFrame_orderly {s : State} (o : s.Orderly) (p : Port) (bs : List Byte) :
    OrderlyResult (execSegmentFrame p bs s) := by
  have tallied : ∀ f, (s.tally p f).Orderly := fun f =>
    o.keep_view rfl rfl fun _ ⟨b1, b2, b3, b4, b5, b6⟩ =>
      ⟨b1, b2, b3, by cases p <;> exact b4, by cases p <;> exact b5, b6⟩
  refine .done ?_
  split
  · next u =>
    split
    · exact tallied _
    · refine o.keep_view (by simp) (State.part_of_besideReplay (by simp)) fun c => ?_
      simp [State.portInUse, c] at u
  · exact tallied _

theorem execHoldTimerExpiry_orderly {s : State} (h : s.Sound) (k : Key) : OrderlyResult (execHoldTimerExpiry k s) := by
  refine .done ?_
  split
  · exact h.orderly
  · next t e =>
    refine (h.orderly.expireAt t.2).keep_view (by simp) (State.part_of_besideReplay (by simp)) fun c b => ?_
    have held : s.keyHeld t.1 = true :=
      (h.ingest.2.2.2.2.2.2.2 t.1).1 (List.mem_map_of_mem (List.mem_of_find?_eq_some e))
    obtain ⟨-, -, -, b4, b5, -⟩ := h.orderly.bare c
    simp [State.keyHeld, State.heldOf, State.ingest, b4, b5] at held

theorem execPaceTimerExpiry_orderly {s : State} (h : s.Sound) (c : Chan) : OrderlyResult (execPaceTimerExpiry c s) := by
  refine .done ?_
  split
  · exact h.orderly
  · next tm e =>
    have r : s.part = .run := by
      cases p : s.part with
      | run => rfl
      | config =>
        have idle := (h.orderly.bare p).2.2.2.2.2 c
        have timer := (h.play.1 c).1
        rw [e, idle] at timer; cases timer
    dsimp only
    split
    · exact .of_run (h.heads.ease (.of_view rfl)) r
    · refine .of_run (h.heads.ease (.of_view (by simp))) ((State.part_of_besideReplay (s := s.expireAt (tm.due (s.channel c).pace)) ?_).trans r)
      rw [State.serveCurrent_besideReplay, State.setChannel_besideReplay]

theorem State.grant_records (s : State) :
    s.grant = { s with port := s.grant.port, pointer := s.grant.pointer } := by
  unfold State.grant
  repeat' split
  all_goals rfl

theorem State.Orderly.grant {s : State} (o : s.Orderly) : s.grant.Orderly :=
  o.keep_view s.grant_headsView (by rw [State.grant_records]) fun _ b => by rw [State.grant_records]; exact b

theorem execReadCompletion_orderly {s : State} (h : s.Sound) : OrderlyResult (execReadCompletion s) := by
  have freed : ({ s with port := .free } : State).Orderly := h.orderly.keep_view rfl rfl fun _ b => b
  refine .done ?_
  split
  · exact h.orderly
  · exact freed.grant
  · next c e =>
    have r : s.part = .run := by
      cases p : s.part with
      | run => rfl
      | config =>
        obtain ⟨r, hr⟩ := Option.isSome_iff_exists.1 (h.play.2.2.1 c e)
        obtain ⟨k, hk, -⟩ := h.play.2.1 c r hr
        rw [(h.orderly.bare p).clip] at hk; cases hk
    dsimp only
    split
    · exact freed.grant
    · refine .of_run (h.heads.ease (.of_view ?_)) ((State.part_of_besideReplay (s := s) ?_).trans r)
      · rw [State.grant_headsView]
        split
        · rw [State.deliverSegment_headsView]; rfl
        · rfl
      · rw [State.grant_besideReplay]
        split
        · rw [State.deliverSegment_besideReplay]; rfl
        · rfl

theorem State.visitPass_part (s : State) (p : Nat) : (s.visitPass p).part = s.part := by
  have counts : ∀ (t : State) (st : PassState) (a b : Option ZoneId), (t.rezoneCounts st a b).part = t.part :=
    fun t st a b => State.part_of_besideBowl (t.rezoneCounts_besideBowl st a b)
  have zone : ∀ q, (s.visitZone p q).part = s.part := by
    intro q
    unfold State.visitZone
    dsimp only
    split
    · rfl
    · split <;> simp [State.markStale, counts]
  unfold State.visitPass
  split
  · rfl
  · unfold State.visitStation
    split
    · split
      · exact (State.part_of_besideBowl (State.recomputeBoth_besideBowl _ _)).trans
          ((State.part_of_besideBowl (State.trim_besideBowl _ _)).trans (zone _))
      · exact zone _
    · exact zone _

theorem State.advanceCursor_part (s : State) : s.advanceCursor.part = s.part := by
  unfold State.advanceCursor
  dsimp only
  repeat' split
  all_goals rfl

theorem execRezoneVisit_orderly {s : State} (o : s.Orderly) : OrderlyResult (execRezoneVisit s) := by
  refine .done ?_
  split
  · exact o.keep_view (by simp) ((State.advanceCursor_part _).trans (s.visitPass_part _))
      fun _ b => (b.visitPass _).advanceCursor
  · exact o

end Sys2Proof.Machine

/-!
PROOF LAYER. Every request keeps the heads in order, and nothing live in CONFIG.
-/
namespace Sys2Proof.Machine

/-! ## Taking a request -/

/-- The state a request is taken from stays sound as it leaves the inbound queue. -/
theorem State.Sound.takeRequest {s u : State} (h : s.Sound) {type tag : Byte} (e : s.takeRequest type tag = some u) :
    u.Sound := by
  obtain ⟨-, ⟨-, rfl⟩ | ⟨g, rest, waits, -, -, -, rfl⟩⟩ := State.takeRequest_eq_some e
  · exact h
  · have short : rest.length ≤ 4 := by
      have := h.link.2.1
      rw [waits, List.length_cons] at this
      omega
    exact ⟨⟨h.link.1, short, h.link.2.2⟩, h.heads, h.config, h.store, h.moves, h.binding, h.census, h.rezone, h.chans,
      h.airtime, h.slots, h.use, h.ingest, h.play⟩

/-- A request whose work keeps the order keeps the order. -/
theorem State.Sound.serve_orderly {s : State} (h : s.Sound) (f : Req) (type : Byte) (work : State → Served)
    (wrong : State → Content) (hw : ∀ u : State, u.Sound → (work u).state.Orderly) :
    OrderlyResult (.next (s.serve f type work wrong)) := by
  refine .next ?_
  cases e : s.takeRequest type f.tag with
  | none => rw [State.serve_of_not_taken e]; exact h.orderly
  | some u =>
    cases fits : f.fits with
    | true => rw [State.serve_of_taken e fits]; exact ((hw u (h.takeRequest e)).reply _ _ _ _).flush
    | false => rw [State.serve_of_wrong e fits]; exact ((h.takeRequest e).orderly.reply _ _ _ _).flush

theorem headId?_val (h : HeadId) : headId? h.val = some h := by simp [headId?, h.isLt]

theorem headId?_of_le {n : Nat} (h : 96 ≤ n) : headId? n = none := by simp [headId?, Nat.not_lt.2 h]

/-! ## The setup sequence -/

theorem powerOnNeighbours_length (h : HeadId) : (powerOnNeighbours h).length ≤ 8 := by
  revert h; decide +kernel

theorem powerOnNeighbours_nodup (h : HeadId) : (powerOnNeighbours h).Nodup := (List.nodup_finRange 96).filter _

theorem not_mem_powerOnNeighbours (h : HeadId) : h ∉ powerOnNeighbours h := by simp [powerOnNeighbours]

/-- A head record as the end of its setup sequence leaves it (R11). -/
def Head.ended (x : Head) (h : HeadId) : Head :=
  { x with neighbours := if x.seqPos = 2 then powerOnNeighbours h else x.neighbours, seqPos := 0 }

theorem State.endSequence_eq (s : State) (h : HeadId) : s.endSequence h = s.setHead h ((s.head h).ended h) := rfl

theorem State.endSequence_head_self (s : State) (h : HeadId) :
    (s.endSequence h).head h = (s.head h).ended h := State.head_setHead_self _ _ _

theorem HeadInOrder.ended {h : HeadId} {x : Head} (o : HeadInOrder h x) : HeadInOrder h (x.ended h) := by
  obtain ⟨h1, h2, h3, h4, h5, h6, h7, -, h9, h10, h11, -⟩ := o
  refine ⟨h1, h2, h3, h4, h5, h6, h7, Nat.zero_le _, ?_, ?_, ?_, fun _ => rfl⟩ <;> simp only [Head.ended] <;> split
  · exact not_mem_powerOnNeighbours h
  · exact h9
  · exact powerOnNeighbours_length h
  · exact h10
  · exact powerOnNeighbours_nodup h
  · exact h11

/-- Of a live head the end of the sequence changes nothing: none is open. -/
theorem HeadInOrder.ended_of_live {h : HeadId} {x : Head} (o : HeadInOrder h x) (l : x.live = true) : x.ended h = x := by
  have seq : x.seqPos = 0 := o.2.2.2.2.2.2.2.2.2.2.2 l
  cases x
  simp_all [Head.ended]

theorem State.Orderly.endSequence {s : State} (o : s.Orderly) (h : HeadId) : (s.endSequence h).Orderly :=
  o.setHead (o.1 h).ended fun c => o.not_live c h

/-- A request naming a head: what keeps the order after the sequence is ended keeps it. -/
theorem State.Sound.withHead_orderly {s : State} (h : s.Sound) (head : Nat) (work : HeadId → State → Served)
    (hw : ∀ g, (s.endSequence g).Orderly → (work g (s.endSequence g)).state.Orderly) :
    (s.withHead head work).state.Orderly := by
  unfold State.withHead
  split
  · exact h.orderly
  · next g _ => exact hw g (h.orderly.endSequence g)

/-! ## Requests of the Seat Link Controller -/

section
variable {s : State} (h : s.Sound) (f : Req)
include h

theorem execHeadSetupPart1_orderly (head radio step : Nat) : OrderlyResult (execHeadSetupPart1 f head radio step s) := by
  refine h.serve_orderly f _ _ _ fun u hu => ?_
  split
  · exact hu.orderly
  · next g _ =>
    split
    · exact hu.orderly
    · next n =>
      split
      · obtain ⟨h1, h2, h3, h4, h5, h6, h7, -, h9, h10, h11, -⟩ := hu.heads g
        refine hu.orderly.setHead ⟨h1, h2, h3, h4, h5, h6, h7, by simp, h9, h10, h11, fun l => absurd l n⟩ fun _ => ?_
        exact Bool.eq_false_of_not_eq_true n
      · exact hu.orderly

theorem execHeadSetupPart2_orderly (head cap floor : Nat) : OrderlyResult (execHeadSetupPart2 f head cap floor s) := by
  refine h.serve_orderly f _ _ _ fun u hu => ?_
  split
  · exact hu.orderly
  · next g _ =>
    split
    · exact hu.orderly
    · next pos =>
      split
      · next ok =>
        simp only [limitsOk, Bool.and_eq_true, decide_eq_true_eq] at ok
        obtain ⟨⟨lo, hi⟩, fl⟩ := ok
        obtain ⟨h1, h2, h3, -, -, -, h7, -, h9, h10, h11, h12⟩ := hu.heads g
        refine hu.orderly.setHead ⟨h1, h2, h3, lo, hi, fl, h7, by simp, h9, h10, h11, fun l => ?_⟩ fun c =>
          hu.orderly.not_live c g
        exact absurd ((h12 l).symm.trans (not_not.1 pos)) (by decide)
      · exact hu.orderly

theorem execHeadSetupPart3_orderly (head : Nat) (ns : List Nat) : OrderlyResult (execHeadSetupPart3 f head ns s) := by
  refine h.serve_orderly f _ _ _ fun u hu => ?_
  split
  · exact hu.orderly
  · next g _ =>
    split
    · exact hu.orderly
    · next pos =>
      split
      · exact hu.orderly
      · next ks ok =>
        have fit : ks.length ≤ 8 ∧ g ∉ ks ∧ ks.Nodup := by
          unfold neighboursOk at ok
          split at ok
          · cases ok
          · split at ok
            · next fit => cases ok; exact fit
            · cases ok
        obtain ⟨len, other, nodup⟩ := fit
        obtain ⟨h1, h2, h3, h4, h5, h6, h7, -, -, -, -, h12⟩ := hu.heads g
        refine hu.orderly.setHead ⟨h1, h2, h3, h4, h5, h6, h7, by simp, other, len, nodup, fun l => ?_⟩ fun c =>
          hu.orderly.not_live c g
        exact absurd ((h12 l).symm.trans (not_not.1 pos)) (by decide)

theorem execHeadControlStart_orderly (head : Nat) (known : Bool) : OrderlyResult (execHeadControlStart f head known s) := by
  refine h.serve_orderly f _ _ _ fun u hu => hu.withHead_orderly head _ fun g o => ?_
  split
  · unfold State.startHead
    dsimp only
    split
    · next c =>
      obtain ⟨run, dark, -⟩ := c
      obtain ⟨h1, h2, h3, h4, h5, h6, h7, h8, h9, h10, h11, h12⟩ := o.1 g
      have supervised : ((u.endSequence g).head g).supervision.isSome = true := by simpa [dark] using h2
      have closed := (o.1 g).account_none (by simp [Head.live, dark])
      have seq : ((u.endSequence g).head g).seqPos = 0 := by rw [State.endSequence_head_self]; rfl
      refine .of_run ?_ run
      refine (o.1.setHead (h := g) ?_ : State.HeadsInv _).ease (.of_view (State.send_headsView _ g _))
      simp [HeadInOrder, Head.serving, Head.live, supervised, closed, h4, h5, h6, h7, h9, h10, h11, seq]
    · exact o
  · exact o

theorem execHeadControlDrain_orderly (head : Nat) (known : Bool) : OrderlyResult (execHeadControlDrain f head known s) := by
  refine h.serve_orderly f _ _ _ fun u hu => hu.withHead_orderly head _ fun g o => ?_
  split
  · unfold State.drainHead
    dsimp only
    split
    · next on =>
      have live : ((u.endSequence g).head g).live = true := by simp [Head.live, on]
      obtain ⟨h1, h2, h3, h4, h5, h6, h7, h8, h9, h10, h11, h12⟩ := o.1 g
      have opened : ((u.endSequence g).head g).account.isSome = true := by simpa [Head.serving, on] using h1
      have supervised : ((u.endSequence g).head g).supervision.isSome = true := by simpa [live] using h2
      have starts : ((u.endSequence g).head g).startTimer = none := by
        rw [on] at h3; simpa using (show _ = false from h3)
      have drained : (State.setHead (u.endSequence g) g { (u.endSequence g).head g with state := .draining }).Orderly := by
        refine o.setHead ?_ fun c => absurd live (by simp [o.not_live c g])
        simp [HeadInOrder, Head.serving, Head.live, opened, supervised, starts, h4, h5, h6, h7, h9, h10, h11, h12 live]
      have weighed : ∀ (xs : List Nat) (t : State), (xs.foldl State.weigh t).headsView = t.headsView := fun xs t =>
        foldl_kept _ _ (fun t i => t.weigh_headsView i) xs t
      have kept : ∀ (xs : List Nat) (t : State), (xs.foldl State.weigh t).besideBowl = t.besideBowl := fun xs t =>
        foldl_kept _ _ (fun t i => t.weigh_besideBowl i) xs t
      exact drained.run_bowl (o.run_of_live live) (by rw [State.drainCheck_besideBowl, kept]) fun w =>
        w.ease (State.HeadsEase.trans (.of_view (weighed _ _)) (State.drainCheck_eases _ g))
    · exact o
  · exact o

theorem execHeadControlStop_orderly (head : Nat) (known : Bool) : OrderlyResult (execHeadControlStop f head known s) := by
  refine h.serve_orderly f _ _ _ fun u hu => hu.withHead_orderly head _ fun g o => ?_
  split
  · unfold State.stopHead
    split
    · next live =>
      obtain ⟨h1, h2, h3, h4, h5, h6, h7, h8, h9, h10, h11, h12⟩ := o.1 g
      have supervised : ((u.endSequence g).head g).supervision.isSome = true := by simpa [live] using h2
      refine o.loseHead g (o.run_of_live live) ?_ (by simp)
      simp [HeadInOrder, Head.closed, Head.serving, Head.live, supervised, h4, h5, h6, h7, h8, h9, h10, h11]
    · exact o
  · exact o

theorem execHeadLimits_orderly (head cap floor : Nat) : OrderlyResult (execHeadLimits f head cap floor s) := by
  refine h.serve_orderly f _ _ _ fun u hu => hu.withHead_orderly head _ fun g o => ?_
  split
  · next live =>
    split
    · next ok =>
      simp only [limitsOk, Bool.and_eq_true, decide_eq_true_eq] at ok
      obtain ⟨⟨⟨lo, hi⟩, fl⟩, -⟩ := ok
      obtain ⟨h1, h2, h3, -, -, -, h7, h8, h9, h10, h11, h12⟩ := o.1 g
      have written : State.HeadsInv (State.setHead (u.endSequence g) g
          { (u.endSequence g).head g with cap := cap, floor := floor }) :=
        o.1.setHead ⟨h1, h2, h3, lo, hi, fl, h7, h8, h9, h10, h11, h12⟩
      exact .of_run (written.ease (.of_view (State.recompute_headsView _ g)))
        ((State.part_of_besideBowl (State.recompute_besideBowl _ g)).trans (o.run_of_live live))
    · exact o
  · exact o

theorem execHeadQuery_orderly (head : Nat) : OrderlyResult (execHeadQuery f head s) :=
  h.serve_orderly f _ _ _ fun _ hu => hu.withHead_orderly head _ fun _ o => o

theorem execHeadStats_orderly (head : Nat) : OrderlyResult (execHeadStats f head s) :=
  h.serve_orderly f _ _ _ fun _ hu => hu.withHead_orderly head _ fun _ o => o

/-! ## Requests of the part -/

theorem execHello_orderly : OrderlyResult (execHello f s) := h.serve_orderly f _ _ _ fun _ hu => hu.orderly

theorem execStart_orderly : OrderlyResult (execStart f s) := by
  refine h.serve_orderly f _ _ _ fun u hu => ?_
  split
  · exact .of_run hu.heads rfl
  · exact hu.orderly

theorem execNoticeEnable_orderly (a b : ClassSet) : OrderlyResult (execNoticeEnable f a b s) :=
  h.serve_orderly f _ _ _ fun _ hu => hu.orderly.keep_view rfl rfl fun _ b => b

theorem execTierSet_orderly (row : TierRow) : OrderlyResult (execTierSet f row s) := by
  refine h.serve_orderly f _ _ _ fun u hu => ?_
  repeat' split
  all_goals exact hu.orderly

end

/-! ### RESTART -/

theorem HeadInOrder.restarted {h : HeadId} {x : Head} (o : HeadInOrder h x) (now : Micros) :
    HeadInOrder h (x.restarted now) := by
  obtain ⟨-, -, -, h4, h5, h6, -, h8, h9, h10, h11, -⟩ := o
  by_cases e : x.state = .absent
  · simp [HeadInOrder, Head.restarted, Head.serving, Head.live, e, h4, h5, h6, h8, h9, h10, h11]
  · simp [HeadInOrder, Head.restarted, Head.serving, Head.live, e, h4, h5, h6, h8, h9, h10, h11]

theorem State.restarted_head (s : State) (h : HeadId) : s.restarted.head h = (s.head h).restarted s.now := by
  simp [State.restarted, State.head]

theorem State.Orderly.restarted {s : State} (o : s.Orderly) : s.restarted.Orderly := by
  refine ⟨fun h => by rw [State.restarted_head]; exact (o.1 h).restarted s.now, fun _ => ⟨fun h => ?_, rfl, rfl, rfl, rfl, rfl, fun c => ?_⟩⟩
  · rw [State.restarted_head]
    unfold Head.restarted Head.live
    dsimp only
    split <;> rfl
  · have idle : powerOnChannel.running = false := by decide
    simpa [State.restarted, State.channel, Channel.restarted, Channel.running, Channel.currentLevel, Channel.entry] using idle

theorem execRestart_orderly {s : State} (h : s.Sound) (f : Req) : OrderlyResult (execRestart f s) :=
  h.serve_orderly f _ _ _ fun _ hu => hu.orderly.restarted

theorem State.reset_head (h : HeadId) : State.reset.head h = powerOnHead h := by
  simp [State.head, State.reset]

theorem State.reset_orderly : State.reset.Orderly := by
  refine ⟨fun h => ?_, fun _ => ⟨fun h => ?_, rfl, rfl, rfl, rfl, rfl, fun c => ?_⟩⟩
  · rw [State.reset_head]
    have len := powerOnNeighbours_length h
    have other := not_mem_powerOnNeighbours h
    have nodup := powerOnNeighbours_nodup h
    simp [HeadInOrder, powerOnHead, Head.serving, Head.live, len, other, nodup]
  · rw [State.reset_head]; rfl
  · have idle : powerOnChannel.running = false := by decide
    simpa [State.reset, State.channel] using idle

theorem execPowerOn_orderly (s : State) : OrderlyResult (execPowerOn s) :=
  .next (State.reset_orderly.keep_view rfl rfl fun _ b => b)

end Sys2Proof.Machine

/-!
PROOF LAYER. The requests of the other blocks, and the whole of a step.
-/
namespace Sys2Proof.Machine

/-! ## Operations the requests share -/

theorem State.Orderly.moveTo {u : State} (o : u.Orderly) (r : u.part = .run) (i : Nat) (st : Station) (a b : HeadId) :
    (u.moveTo i st a b).state.Orderly := by
  unfold State.moveTo
  split
  · exact o
  · split
    · split
      · exact o.run_bowl r (State.startHandover_besideBowl ..) fun w => w.ease (.of_view (State.startHandover_headsView ..))
      · exact o.run_bowl r rfl fun w => w
    · exact o

theorem State.loadEntry_orderly {u : State} (o : u.Orderly) (e : PassEntry) : (u.loadEntry e).1.Orderly := by
  unfold State.loadEntry
  repeat' split
  all_goals exact o

theorem State.loadEntries_orderly {u : State} (o : u.Orderly) (es : List PassEntry) : (u.loadEntries es).1.Orderly := by
  induction es generalizing u with
  | nil => exact o
  | cons e es ih => exact ih (State.loadEntry_orderly o e)

theorem State.Bare.amend {u : State} (b : u.Bare) (p : Nat) (q : Pass) (t : Tier) (n : Option (BitVec 16))
    (d : Option ZoneId) : (u.amend p q t n d).Bare := by
  unfold State.amend
  dsimp only
  have moved := (b.setPass p { q with tier := t, seat := n, declared := d, cached := u.cachedZone n d }).rezoneCounts
    q.state q.cached (u.cachedZone n d)
  split
  · rw [moved.settle, moved.bringIntoLine, ite_self]; exact moved
  · exact moved

theorem State.bringIntoLine_besideBowl (u : State) (i : Nat) : (u.bringIntoLine i).besideBowl = u.besideBowl := by
  unfold State.bringIntoLine; dsimp only; split <;> simp

theorem State.amend_besideBowl (u : State) (p : Nat) (q : Pass) (t : Tier) (n : Option (BitVec 16)) (d : Option ZoneId) :
    (u.amend p q t n d).besideBowl = u.besideBowl := by
  unfold State.amend
  dsimp only
  split
  · split <;> simp [State.bringIntoLine_besideBowl]
  · simp

theorem State.Orderly.unbind {u : State} (o : u.Orderly) (p : Nat) (a : PassState) : (u.unbind p a).Orderly :=
  o.keep_view (by simp) (State.part_of_besideBowl (by simp)) fun _ b => b.unbind p a

theorem State.Orderly.scan {u : State} (o : u.Orderly) (p g : Nat) (q : Pass) (d : ScanDirection) :
    (u.scan p g q d).state.Orderly := by
  have suspected : ∀ (x : Pass) (r : Bool) (c : SuspectCause), (u.suspectIf p x r c).Orderly := fun x r c =>
    o.keep_view (by simp) (State.part_of_besideBowl (by simp)) fun _ b => b.suspectIf p x r c
  have entered : (u.scanIn p g q).1.Orderly := by
    unfold State.scanIn
    repeat' split
    all_goals first | exact o | exact suspected _ _ _
  have left_ : (u.scanOut p g q).1.Orderly := by
    unfold State.scanOut
    split
    case h_3 | h_4 => exact (o.unbind p .out).keep_view rfl rfl fun _ b => b
    all_goals first | exact o | exact suspected _ _ _
  unfold State.scan
  cases d with
  | into => dsimp only; split <;> exact entered
  | outOf => dsimp only; split <;> exact left_

/-- With no clip stored no entry waits (R143). -/
theorem State.Sound.waiting_none {u : State} (hu : u.Sound) (p : u.part = .config) (c : Chan) (l : Level) :
    (u.channel c).waiting l = none := by
  cases e : (u.channel c).waiting l with
  | none => rfl
  | some q =>
    have every : ∀ l : Level, l ∈ levelsDown := by decide
    have named : q.clip ∈ u.named := by
      refine List.mem_flatMap.2 ⟨c, List.mem_finRange c, ?_⟩
      refine List.mem_append_left _ (List.mem_append_right _ (List.mem_map_of_mem ?_))
      exact List.mem_filterMap.2 ⟨l, every l, e⟩
    have held := hu.use.2 _ named
    rw [(hu.orderly.bare p).clip] at held
    cases held

theorem Channel.running_eq_false_iff {x : Channel} : x.running = false ↔ ∀ l, x.entry l = none := by
  have all : ∀ l : Level, l ∈ levelsDown := by decide
  simp only [Channel.running, Channel.currentLevel, Option.isSome_eq_false_iff, Option.isNone_iff_eq_none, List.find?_eq_none]
  exact ⟨fun w l => by simpa using w l (all l), fun w l _ => by simp [w l]⟩

theorem State.Bare.stopLevel {u : State} (b : u.Bare) (c : Chan) (l : Level) : (State.stopLevel c u l).Bare := by
  have idle := Channel.running_eq_false_iff.1 (b.2.2.2.2.2 c)
  unfold State.stopLevel
  simp only [idle, State.unuse, b.updateClip]
  have same : (u.channel c).inService.set l none = (u.channel c).inService := by
    ext1 m hm
    have := idle ⟨m, hm⟩
    simp only [Channel.entry, Fin.getElem_fin] at this
    rw [Vector.getElem_set]
    split
    · exact this.symm
    · rfl
  split <;> exact b.setChannel c same

theorem State.Orderly.setZones {u : State} (o : u.Orderly) (zs : Vector Zone 32) : ({ u with zones := zs } : State).Orderly :=
  o.keep_view rfl rfl fun _ b => b

section
variable {s : State} (h : s.Sound) (f : Req)
include h

/-! ## Requests of the Station Table and the Roam Engine -/

theorem execRoamSet_orderly (a b c : Nat) (pub : ChanSet) : OrderlyResult (execRoamSet f a b c pub s) := by
  refine h.serve_orderly f _ _ _ fun u hu => ?_
  split
  · set t : State := { u with roam := ⟨a, b, c, pub⟩ } with ht
    have o : t.Orderly := hu.orderly
    dsimp only
    split
    · exact o
    · have kept : t.trimAll.besideBowl = t.besideBowl := by
        unfold State.trimAll
        dsimp only
        rw [State.recomputeList_besideBowl, foldl_kept _ _ fun t i => t.trim_besideBowl i]
      refine o.keep_view t.trimAll_headsView (State.part_of_besideBowl kept) fun _ bare => ?_
      have same : t.trimAll = t := by simp [State.trimAll, bare.1, State.recomputeList]
      rw [same]; exact bare
  · exact hu.orderly

theorem execStationQuery_orderly (r : StationRef) : OrderlyResult (execStationQuery f r s) := by
  refine h.serve_orderly f _ _ _ fun u hu => ?_
  repeat' split
  all_goals exact hu.orderly

theorem execStationMove_orderly (i target : Nat) : OrderlyResult (execStationMove f i target s) := by
  refine h.serve_orderly f _ _ _ fun u hu => hu.withHead_orderly target _ fun g o => ?_
  unfold State.moveChecks
  split
  · exact o
  · split
    · exact o
    · next st e =>
      have r : (u.endSequence g).part = .run := by
        cases p : (u.endSequence g).part with
        | run => rfl
        | config => rw [(o.bare p).station] at e; cases e
      split
      · exact o
      · exact o.moveTo r i st _ g
      · exact o.moveTo r i st _ g
      · exact o

theorem execStationEvict_orderly (i : Nat) : OrderlyResult (execStationEvict f i s) := by
  refine h.serve_orderly f _ _ _ fun u hu => ?_
  split
  · split
    · exact hu.orderly
    · next st e =>
      refine hu.orderly.keep (u.vacate_eases i true true) (State.part_of_besideBowl (u.vacate_besideBowl i true true))
        fun _ b => ?_
      rw [b.station] at e; cases e
  · exact hu.orderly

/-! ## Requests of the Pass Table -/

theorem execPassLoad_orderly (es : List PassEntry) : OrderlyResult (execPassLoad f es s) := by
  refine h.serve_orderly f _ _ _ fun u hu => ?_
  split
  · exact State.loadEntries_orderly hu.orderly es
  · exact hu.orderly

theorem execPassAmend_orderly (n : PassNumber) (t : Option Nat) (x : Change (BitVec 16)) (d : Change Nat) :
    OrderlyResult (execPassAmend f n t x d s) := by
  refine h.serve_orderly f _ _ _ fun u hu => ?_
  split
  · split
    · exact hu.orderly
    · split
      · exact hu.orderly
      · split
        · exact hu.orderly
        · exact hu.orderly.keep_view (u.amend_headsView ..) (State.part_of_besideBowl (u.amend_besideBowl ..))
            fun _ b => b.amend ..
  · exact hu.orderly

theorem execPassVoid_orderly (n : PassNumber) : OrderlyResult (execPassVoid f n s) := by
  refine h.serve_orderly f _ _ _ fun u hu => ?_
  split
  · exact hu.orderly
  · exact hu.orderly.unbind _ _

theorem execPassDrop_orderly (n : PassNumber) : OrderlyResult (execPassDrop f n s) := by
  refine h.serve_orderly f _ _ _ fun u hu => ?_
  split
  · exact hu.orderly
  · next p _ => exact (hu.orderly.unbind p .void).keep_view rfl rfl fun _ b => b

theorem execPassQuery_orderly (r : PassRef) : OrderlyResult (execPassQuery f r s) := by
  refine h.serve_orderly f _ _ _ fun u hu => ?_
  repeat' split
  all_goals exact hu.orderly

theorem execGateScan_orderly (n : PassNumber) (g : Nat) (d : Option ScanDirection) :
    OrderlyResult (execGateScan f n g d s) := by
  refine h.serve_orderly f _ _ _ fun u hu => ?_
  split
  · exact hu.orderly
  · split
    · exact hu.orderly
    · split
      · exact hu.orderly
      · split
        · exact hu.orderly
        · exact hu.orderly.scan _ _ _ _

/-! ## Requests of the Zone Map and Census -/

theorem execZoneSet_orderly (z : Nat) (d : Option ZoneSpec) : OrderlyResult (execZoneSet f z d s) := by
  refine h.serve_orderly f _ _ _ fun u hu => ?_
  repeat' split
  all_goals exact hu.orderly

theorem execZoneQuery_orderly (z : Nat) : OrderlyResult (execZoneQuery f z s) := by
  refine h.serve_orderly f _ _ _ fun u hu => ?_
  split <;> exact hu.orderly

theorem execCensusLatch_orderly (zs : ZoneSet) : OrderlyResult (execCensusLatch f zs s) := by
  refine h.serve_orderly f _ _ _ fun u hu => ?_
  exact hu.orderly.setZones _

theorem execCensusRead_orderly (z : Nat) : OrderlyResult (execCensusRead f z s) := by
  refine h.serve_orderly f _ _ _ fun u hu => ?_
  repeat' split
  all_goals exact hu.orderly

/-! ## Requests of the Ingest Unit and the Clip Store -/

theorem execIngestMode_orderly (m : Option IngestMode) (b : Bool) : OrderlyResult (execIngestMode f m b s) := by
  refine h.serve_orderly f _ _ _ fun u hu => ?_
  repeat' split
  all_goals exact hu.orderly

theorem execClipQuery_orderly (r : ClipRef) : OrderlyResult (execClipQuery f r s) := by
  refine h.serve_orderly f _ _ _ fun u hu => ?_
  dsimp only
  split
  · split <;> exact hu.orderly
  · split <;> exact hu.orderly

theorem execClipPin_orderly (i : Nat) (b : Bool) : OrderlyResult (execClipPin f i b s) := by
  refine h.serve_orderly f _ _ _ fun u hu => ?_
  split
  · split
    · exact hu.orderly
    · exact hu.orderly.keep_view rfl rfl fun _ b => by rw [b.updateClip]; exact b
  · exact hu.orderly

theorem execClipRetire_orderly (i : Nat) : OrderlyResult (execClipRetire f i s) := by
  refine h.serve_orderly f _ _ _ fun u hu => ?_
  split
  · split
    · exact hu.orderly
    · next k e =>
      split
      · exact hu.orderly
      · refine hu.orderly.keep_view ?_ (State.part_of_besideReplay ?_) fun _ b => ?_
        · dsimp only; split <;> simp
        · dsimp only; split <;> simp
        · rw [b.clip] at e; cases e
  · exact hu.orderly

/-! ## Requests of the Playout Unit and the Cue Controller -/

theorem execProgramSet_orderly (p l : Nat) (a : ChanSet) (b : Bool) : OrderlyResult (execProgramSet f p l a b s) := by
  refine h.serve_orderly f _ _ _ fun u hu => ?_
  repeat' split
  all_goals exact hu.orderly

theorem execChannelSetup_orderly (c p r : Nat) (m : Option ArbMode) : OrderlyResult (execChannelSetup f c p r m s) := by
  refine h.serve_orderly f _ _ _ fun u hu => ?_
  split
  · exact hu.orderly
  · next c _ =>
    split
    · exact hu.orderly
    · split
      · exact hu.orderly
      · split
        · exact hu.orderly.keep_view rfl rfl fun _ b =>
            b.setChannel c (x := { u.channel c with pace := p, rated := r }) rfl
        · exact hu.orderly

theorem execChannelEnable_orderly (a b : ChanSet) : OrderlyResult (execChannelEnable f a b s) := by
  refine h.serve_orderly f _ _ _ fun u hu => ?_
  dsimp only
  have view : ∀ (cs : List Chan) (t : State), (cs.foldl State.weighPending t).headsView = t.headsView := fun cs t =>
    foldl_kept _ _ (fun t c => t.weighPending_headsView c) cs t
  have kept : ∀ (cs : List Chan) (t : State), (cs.foldl State.weighPending t).besideReplay = t.besideReplay := fun cs t =>
    foldl_kept _ _ (fun t c => t.weighPending_besideReplay c) cs t
  generalize (u.enabledChans &&& a ||| b) = now
  set t : State := { u with channels := Vector.ofFn fun c => { u.channel c with enabled := hasChan now c } } with ht
  have channel : ∀ c, t.channel c = { u.channel c with enabled := hasChan now c } := fun c => by
    simp [ht, State.channel]
  refine hu.orderly.keep_view ((view _ t).trans rfl)
    ((State.part_of_besideReplay (kept _ t)).trans rfl) fun p bare => ?_
  have tbare : t.Bare := by
    obtain ⟨b1, b2, b3, b4, b5, b6⟩ := bare
    exact ⟨b1, b2, b3, b4, b5, fun c => by rw [channel]; exact b6 c⟩
  have still : ∀ c, t.weighPending c = t := by
    intro c
    have none_ : (t.channel c).nextPending = none := by
      simp only [Channel.nextPending, List.findSome?_eq_none_iff]
      intro l _
      have : (t.channel c).waiting l = none := by rw [channel]; exact hu.waiting_none p c l
      rw [this]
    simp [State.weighPending, none_]
  have all : ∀ cs : List Chan, cs.foldl State.weighPending t = t := by
    intro cs
    induction cs with
    | nil => rfl
    | cons c cs ih => rw [List.foldl_cons, still, ih]
  rw [all]
  exact tbare

theorem execPlay_orderly (c i : Nat) (l : Option Nat) (n : Nat) (m : Option Nat) (b : Bool) :
    OrderlyResult (execPlay f c i l n m b s) := by
  refine h.serve_orderly f _ _ _ fun u hu => ?_
  split
  · exact hu.orderly
  · split
    · split
      · exact hu.orderly
      · next r =>
        split
        · exact hu.orderly
        · split
          · exact hu.orderly
          · refine hu.orderly.keep_view (by simp [State.playEntry])
              (State.part_of_besideReplay (by simp [State.playEntry])) fun p => absurd p r
    · exact hu.orderly

theorem execStop_orderly (c : Nat) (ls : LevelSet) : OrderlyResult (execStop f c ls s) := by
  refine h.serve_orderly f _ _ _ fun u hu => ?_
  split
  · exact hu.orderly
  · next c _ =>
    have level : ∀ (t : State) l, (State.stopLevel c t l).besideReplay = t.besideReplay := by
      intro t l
      unfold State.stopLevel
      dsimp only
      rw [State.setChannel_besideReplay]
      repeat' split
      all_goals simp
    have kept : ∀ (xs : List Level) (t : State), (xs.foldl (State.stopLevel c) t).besideReplay = t.besideReplay := fun xs t =>
      foldl_kept _ _ level xs t
    refine hu.orderly.keep_view (by simp) (State.part_of_besideReplay ?_) fun _ b => ?_
    · unfold State.stopLevels
      dsimp only
      repeat' split
      all_goals simp [kept]
    · have idle : (u.channel c).currentLevel = none := by
        have := b.2.2.2.2.2 c
        simpa [Channel.running] using this
      have gone : ∀ (xs : List Level) (t : State), t.Bare → (xs.foldl (State.stopLevel c) t).Bare := by
        intro xs
        induction xs with
        | nil => exact fun _ b => b
        | cons x xs ih => exact fun t b => ih _ (b.stopLevel c x)
      simp only [State.stopLevels, idle]
      exact gone _ _ b

theorem execChannelStatus_orderly (c : Nat) : OrderlyResult (execChannelStatus f c s) := by
  refine h.serve_orderly f _ _ _ fun u hu => ?_
  split
  · exact hu.orderly
  · next c _ =>
    exact hu.orderly.keep_view rfl rfl fun _ b => b.setChannel c (x := { u.channel c with endFlags := 0 }) rfl

end

/-! ## The control link's events -/

section
variable {s : State} (o : s.Orderly)
include o

theorem execTransactionBegin_orderly : OrderlyResult (execTransactionBegin s) := by
  refine .next ?_
  split <;> exact o

theorem execTransactionEnd_orderly (bs : List Byte) : OrderlyResult (execTransactionEnd bs s) := by
  have stored : ∀ (t : State) (b : List Byte), t.Orderly → (t.storeFrame b).Orderly := by
    intro t b ot
    unfold State.storeFrame
    repeat' split
    all_goals exact ot
  refine .next ?_
  split
  · exact o
  · exact stored _ _ o

theorem execBadFrame_orderly : OrderlyResult (execBadFrame s) := by
  refine .next ?_
  unfold State.takeFrame
  repeat' split
  all_goals exact o

theorem execUnknownRequestType_orderly : OrderlyResult (execUnknownRequestType s) := by
  refine .next ?_
  unfold State.takeFrame
  repeat' split
  all_goals exact o

end

/-! ## The whole of a step -/

/-- Every command keeps the heads in order. -/
theorem exec_orderly {s : State} (h : s.Sound) (i : Instr) : OrderlyResult (exec i s) := by
  have o := h.orderly
  cases i with
  | powerOn => exact execPowerOn_orderly s
  | announce g => exact execAnnounce_orderly o g
  | heartbeat g => exact execHeartbeat_orderly o g
  | supervisionTimerExpiry g => exact execSupervisionTimerExpiry_orderly o g
  | setupDone g => exact execSetupDone_orderly o g
  | startTimerExpiry g => exact execStartTimerExpiry_orderly o g
  | seatLinkFrameDiscarded l => exact .done (o.discard l)
  | assocReq g a r => exact execAssocReq_orderly o g a r
  | disassoc g a => exact execDisassoc_orderly o g a
  | lost g a => exact execLost_orderly o g a
  | stationReport g a r cs => exact execStationReport_orderly o g a r cs
  | joinReq g a c => exact execJoinReq_orderly o g a c
  | leaveReq g a c => exact execLeaveReq_orderly o g a c
  | bindReq g a n => exact execBindReq_orderly o g a n
  | unbindReq g a => exact execUnbindReq_orderly o g a
  | ready g a n => exact execReady_orderly o g a n
  | decline g a n => exact execDecline_orderly o g a n
  | lapseTimerExpiry n => exact execLapseTimerExpiry_orderly o n
  | handoverTimerExpiry n => exact execHandoverTimerExpiry_orderly o n
  | windowTimerExpiry g => exact execWindowTimerExpiry_orderly o g
  | segmentFrame p bs => exact execSegmentFrame_orderly o p bs
  | holdTimerExpiry k => exact execHoldTimerExpiry_orderly h k
  | paceTimerExpiry c => exact execPaceTimerExpiry_orderly h c
  | readCompletion => exact execReadCompletion_orderly h
  | rezoneVisit => exact execRezoneVisit_orderly o
  | transactionBegin => exact execTransactionBegin_orderly o
  | transactionEnd bs => exact execTransactionEnd_orderly o bs
  | badFrame => exact execBadFrame_orderly o
  | unknownRequestType => exact execUnknownRequestType_orderly o
  | hello f => exact execHello_orderly h f
  | start f => exact execStart_orderly h f
  | restart f => exact execRestart_orderly h f
  | noticeEnable f a b => exact execNoticeEnable_orderly h f a b
  | tierSet f r => exact execTierSet_orderly h f r
  | roamSet f a b c p => exact execRoamSet_orderly h f a b c p
  | headSetupPart1 f g r x => exact execHeadSetupPart1_orderly h f g r x
  | headSetupPart2 f g c x => exact execHeadSetupPart2_orderly h f g c x
  | headSetupPart3 f g ns => exact execHeadSetupPart3_orderly h f g ns
  | headControlStart f g k => exact execHeadControlStart_orderly h f g k
  | headControlDrain f g k => exact execHeadControlDrain_orderly h f g k
  | headControlStop f g k => exact execHeadControlStop_orderly h f g k
  | headLimits f g c x => exact execHeadLimits_orderly h f g c x
  | headQuery f g => exact execHeadQuery_orderly h f g
  | headStats f g => exact execHeadStats_orderly h f g
  | stationQuery f r => exact execStationQuery_orderly h f r
  | stationMove f n g => exact execStationMove_orderly h f n g
  | stationEvict f n => exact execStationEvict_orderly h f n
  | passLoad f es => exact execPassLoad_orderly h f es
  | passAmend f n t x d => exact execPassAmend_orderly h f n t x d
  | passVoid f n => exact execPassVoid_orderly h f n
  | passDrop f n => exact execPassDrop_orderly h f n
  | passQuery f r => exact execPassQuery_orderly h f r
  | gateScan f n g d => exact execGateScan_orderly h f n g d
  | zoneSet f z d => exact execZoneSet_orderly h f z d
  | zoneQuery f z => exact execZoneQuery_orderly h f z
  | censusLatch f zs => exact execCensusLatch_orderly h f zs
  | censusRead f z => exact execCensusRead_orderly h f z
  | ingestMode f m b => exact execIngestMode_orderly h f m b
  | programSet f p l a b => exact execProgramSet_orderly h f p l a b
  | channelSetup f c p r m => exact execChannelSetup_orderly h f c p r m
  | channelEnable f a b => exact execChannelEnable_orderly h f a b
  | play f c i l n m b => exact execPlay_orderly h f c i l n m b
  | stop f c ls => exact execStop_orderly h f c ls
  | channelStatus f c => exact execChannelStatus_orderly h f c
  | clipQuery f r => exact execClipQuery_orderly h f r
  | clipPin f i b => exact execClipPin_orderly h f i b
  | clipRetire f i => exact execClipRetire_orderly h f i

/-- The queue of waiting commands is no part of what makes a state sound. -/
theorem State.Sound.withPending {s : State} (h : s.Sound) (cs : List Instr) : ({ s with pending := cs } : State).Sound :=
  ⟨h.link, h.heads, h.config, h.store, h.moves, h.binding, h.census, h.rezone, h.chans, h.airtime, h.slots, h.use,
    h.ingest, h.play⟩

/-- Settles O6: every command keeps the heads in order and, in CONFIG, stores nothing; an idle tick changes neither. -/
theorem everyStepKeepsHeadsInOrder : Obligations.EveryStepKeepsHeadsInOrder := by
  intro s t h e
  unfold step at e
  split at e
  · cases e; exact h.orderly
  · next c rest _ => exact exec_orderly (h.withPending rest) c t e

end Sys2Proof.Machine

/-!
PROOF LAYER. What an event's notices come to in the outbound queue, and the statements about single commands of the Seat Link
Controller.
-/
namespace Sys2Proof.Machine

/-! ## Notices produced and offered -/

theorem offer_foldl_lost (ns : List Notice) (s : State) :
    (ns.foldl State.offer s).lost = (s.lost || decide (60 - s.outbound.length < ns.length)) := by
  induction ns generalizing s with
  | nil => simp
  | cons n ns ih =>
    rw [List.foldl_cons, ih]
    unfold State.offer
    by_cases h : s.outbound.length < 60
    · simp only [h, if_true, List.length_append, List.length_cons, List.length_nil, decide_true, Bool.not_true, Bool.or_false]
      congr 2
      exact propext ⟨fun w => by omega, fun w => by omega⟩
    · have full : 60 - s.outbound.length = 0 := by omega
      simp [h, full]

/-- At an event's end notices lost is set if one of its notices found no place (R190). -/
theorem State.flush_lost (s : State) :
    s.flush.lost = (s.lost || decide (60 - s.outbound.length < s.held.length)) :=
  offer_foldl_lost s.held { s with held := [] }

/-- The command in progress has produced some notices: of those it holds the ones of an enabled class (R191). -/
def State.Produced (s t : State) (ns : List Notice) : Prop :=
  t.held = s.held ++ ns.filter fun n => s.classEnabled (noticeClass n)

theorem State.Produced.nil {s t : State} (e : t.held = s.held) : s.Produced t [] := by simp [State.Produced, e]

theorem State.Produced.trans {s t u : State} {ns ms : List Notice} (p : s.Produced t ns) (q : t.Produced u ms)
    (e : t.enables = s.enables) : s.Produced u (ns ++ ms) := by
  simp only [State.Produced, State.classEnabled, e] at p q ⊢
  rw [q, p, List.filter_append, List.append_assoc]

theorem State.note_produced (s : State) (n : Notice) : s.Produced (s.note n) [n] := by
  by_cases e : s.classEnabled (noticeClass n) <;> simp [State.Produced, State.note, e]

theorem State.noteAll_produced (s : State) (ns : List Notice) : s.Produced (s.noteAll ns) ns := rfl

/-- A command that keeps all beside the bowl and has produced some notices offers them at its end. -/
theorem State.InBowl.of_flush {s t : State} {ns : List Notice} (quiet : s.held = []) (b : t.besideBowl = s.besideBowl)
    (d : t.discards = s.discards) (p : s.Produced t ns) : s.InBowl t.flush ns := by
  have out := besideBowl_outbound b
  simp only [State.Produced, quiet, List.nil_append] at p
  simp only [State.besideBowl, Prod.mk.injEq] at b
  obtain ⟨b1, b2, b3, b4, b5, b6, -, b8⟩ := b
  refine ⟨?_, ?_, ?_⟩
  · simp [State.outsideBowl, b1, b2, b3, b4, b5, b6, d, quiet]
  · rw [State.flush_outbound, out, p]
  · rw [State.flush_lost, out, p, b8]

/-! ## The discard count -/

theorem count16_eq (n : Nat) : count16 n = min 65535 (n + 1) := by
  unfold count16 countUp; split <;> omega

theorem State.discard_eq (s : State) (l : LinkId) :
    s.discard l = { s with discards := s.discards.set l (min 65535 (s.discards[l] + 1)) } := by
  simp only [State.discard, count16_eq]

theorem Head.reachable_eq_false {x : Head} : x.reachable = false ↔ x.state = .absent ∨ x.state = .fault := by
  cases e : x.state <;> simp [Head.reachable, e]

/-- A frame that is not handed on is discarded and counted (R2). -/
theorem State.handOn_discards {s : State} {h : HeadId} (work : State → State)
    (c : s.part = .config ∨ (s.head h).state = .absent ∨ (s.head h).state = .fault) :
    s.handOn h work = s.discard (linkOf h) := by
  have shut : s.part = .config ∨ (!(s.head h).reachable) = true := by
    simpa [Head.reachable_eq_false] using c
  simp only [State.handOn, if_pos shut]

/-- A frame that is handed on is worked on. -/
theorem State.Hears.handOn {s : State} {h : HeadId} (c : s.Hears h) (work : State → State) : s.handOn h work = work s := by
  obtain ⟨run, present, sane, -⟩ := c
  simp [State.handOn, run, Head.reachable, present, sane]

/-- A frame for a station that is no member has no effect (R22). -/
theorem State.forMember_of_not_member {s : State} {h : HeadId} {a : StationAddress} (work : Nat → Station → State)
    (n : s.lookupStation a = none ∨
      ∃ i st, s.lookupStation a = some i ∧ s.station i = some st ∧ st.current ≠ some h) : s.forMember h a work = s := by
  obtain n | ⟨i, st, e1, e2, ne⟩ := n
  · simp [State.forMember, n]
  · simp [State.forMember, e1, e2, ne]

theorem State.done_of_held_nil {s : State} (h : s.held = []) : s.done = .next s := by
  rw [State.done, State.flush_of_held_nil h]

/-! ## Power-on -/

/-- Settles O2: POWER_ON leaves the reset state, record by record. -/
theorem powerOnLeavesResetValues : Obligations.PowerOnLeavesResetValues := by
  have channel : ∀ c : Chan, State.reset.channel c = powerOnChannel := fun c => by simp [State.reset, State.channel]
  refine ⟨fun s => rfl, fun h => by rw [State.reset_head]; rfl, fun l => ?_, rfl, rfl, fun i => rfl, rfl, rfl, fun p => rfl,
    fun z => ?_, rfl, rfl, rfl, fun p => by cases p <;> rfl, rfl, fun p => ?_, fun i => rfl, rfl, rfl, fun c => ?_, rfl, rfl,
    rfl, fun p => ?_, rfl, rfl, rfl, rfl, rfl, rfl, rfl, rfl, by decide⟩
  · simp [State.reset]
  · simp [State.reset, State.zone]
  · simp [State.reset]
  · rw [channel]
    exact ⟨rfl, rfl, rfl, rfl, rfl, rfl, rfl, rfl, rfl, fun l => by
      simp [powerOnChannel, Channel.entry, Channel.waiting]⟩
  · revert p; decide

/-! ## Heads heard, missed and set up -/

theorem State.headToDark_eq (s : State) (h : HeadId) :
    s.headToDark h = s.setHead h { s.head h with state := .dark, miss := 0, supervision := some (s.now + 250000) } := by
  simp only [State.headToDark, State.hearHead, State.setHead_setHead, State.head_setHead_self]
  rfl

/-- Settles O20. -/
theorem headIsHeardOrMissed : Obligations.HeadIsHeardOrMissed := by
  intro s h quiet
  have done_ : ∀ t : State, t.held = [] → State.done t = .next t := fun t => State.done_of_held_nil
  have dark : ∀ e : (s.head h).state = .dark, s.hearHead h = s.headToDark h := by
    intro e
    rw [State.headToDark_eq, ← e]; rfl
  refine ⟨fun c => ?_, fun c => ?_, fun c => ?_, fun due e => ⟨fun m => ?_, fun m d => ?_⟩⟩
  · have announced : exec (.announce h) s = State.done (s.headToDark h) := by
      show execAnnounce h s = _
      rcases c with e | e | e <;> simp [execAnnounce, e, dark]
    have heartbeat : exec (.heartbeat h) s = State.done (s.headToDark h) := by
      show execHeartbeat h s = _
      rcases c with e | e | e <;> simp [execHeartbeat, e, dark]
    rw [announced, heartbeat, done_ (s.headToDark h) quiet, State.headToDark_eq]
    exact ⟨rfl, rfl⟩
  · have heartbeat : exec (.heartbeat h) s = State.done (s.hearHead h) := by
      show execHeartbeat h s = _
      rcases c with e | e | e <;> simp [execHeartbeat, e]
    rw [heartbeat]
    exact done_ (s.hearHead h) quiet
  · show execSupervisionTimerExpiry h s = _
    simp only [execSupervisionTimerExpiry, c]
    exact done_ s quiet
  · show execSupervisionTimerExpiry h s = _
    simp only [execSupervisionTimerExpiry, e]
    rw [State.missHeartbeat_restarts (s := s.expireAt due) m]
    exact done_ _ quiet
  · show execSupervisionTimerExpiry h s = _
    simp only [execSupervisionTimerExpiry, e]
    rw [State.missHeartbeat_of_dark (s := s.expireAt due) m d]
    exact done_ _ quiet

/-- Settles O22. -/
theorem setupDoneBringsAHeadOn : Obligations.SetupDoneBringsAHeadOn := by
  refine ⟨fun s h c => ⟨fun n => ?_, fun e => ⟨_, rfl, ?_⟩⟩, fun s h quiet e => ?_⟩
  · show execSetupDone h s = _
    simp only [execSetupDone, c.handOn, if_neg n]
    exact State.done_of_held_nil c.2.2.2
  · rw [c.handOn, if_pos e]
    simp only [State.openAccount, State.setHead_setHead, State.head_setHead_self]
    refine ⟨by simp; rfl, by simp, by simp, by simp, .of_flush c.2.2.2 (by simp) (by simp) (State.note_produced _ _)⟩
  · show execStartTimerExpiry h s = _
    simp only [execStartTimerExpiry, e]
    exact State.done_of_held_nil quiet

/-! ## Frames that are not acted on -/

/-- Settles O23. -/
theorem framesNotActedOnAreDiscarded : Obligations.FramesNotActedOnAreDiscarded := by
  unfold Obligations.FramesNotActedOnAreDiscarded
  intro counted
  have discarded : ∀ (s : State) (l : LinkId), s.held = [] → (s.discard l).done = .next (counted s l) := by
    intro s l quiet
    rw [State.done_of_held_nil (by simpa using quiet), State.discard_eq]
  refine ⟨fun s l quiet => discarded s l quiet, fun s i h quiet e wf c => ?_, fun s h a r quiet c => ?_,
    fun s h a r cs quiet long => ?_, fun s h a c n => ⟨fun r cs d p short => ?_, fun m => ?_⟩⟩
  · have shut : ∀ work, (s.handOn h work).done = .next (counted s (linkOf h)) := fun work => by
      rw [State.handOn_discards work c, discarded s _ quiet]
    cases i <;> simp only [Instr.frameHead?, Option.some.injEq, reduceCtorEq] at e
    case stationReport g a r cs =>
      subst e
      have short : ¬ 4 < cs.length := by
        simpa [Instr.wf, candidatesOk] using wf
      show execStationReport g a r cs s = _
      rw [execStationReport, if_neg short]
      exact shut _
    all_goals subst e; exact shut _
  · show execAssocReq h a r s = _
    have gone := Head.reachable_eq_false.2 c
    simp only [execAssocReq, gone, Bool.false_eq_true, if_false]
    exact discarded s _ quiet
  · show execStationReport h a r cs s = _
    rw [execStationReport, if_pos long]
    exact discarded s _ quiet
  · have ignored : ∀ work : State → Nat → Station → State,
        (s.handOn h fun t => t.forMember h a (work t)).done = .next s := fun work => by
      rw [c.handOn, State.forMember_of_not_member _ n, State.done_of_held_nil c.2.2.2]
    refine ⟨ignored _, ?_, ignored _, ignored _, ignored _, ignored _⟩
    show execStationReport h a r cs s = _
    rw [execStationReport, if_neg (by omega)]
    exact ignored _
  · show execDisassoc h a s = _
    rw [execDisassoc, c.handOn]
    obtain n | ⟨i, st, e1, e2, ne⟩ := n
    · simp only [n]
      exact State.done_of_held_nil c.2.2.2
    · have elsewhere : ¬ (st.state = .moving ∧ st.target = some h) := fun w => m i st e1 e2 w.1 w.2
      simp only [e1, e2, if_neg ne, if_neg elsewhere]
      exact State.done_of_held_nil c.2.2.2

end Sys2Proof.Machine

/-!
PROOF LAYER. HEAD-SETUP, HEAD-CONTROL START, HEAD-QUERY and HEAD-STATS.
-/
namespace Sys2Proof.Machine

/-! ## Head numbers as carried -/

theorem headId?_eq_some {n : Nat} {h : HeadId} (e : headId? n = some h) : n = h.val := by
  unfold headId? at e
  split at e
  · cases e; rfl
  · cases e

theorem headIds?_cons (n : Nat) (ns : List Nat) :
    headIds? (n :: ns) = (headId? n).bind fun k => (headIds? ns).map (k :: ·) := by
  simp only [headIds?, List.mapM_cons]
  cases headId? n with
  | none => rfl
  | some k => cases List.mapM headId? ns <;> rfl

theorem headIds?_map_val (ks : List HeadId) : headIds? (ks.map Fin.val) = some ks := by
  induction ks with
  | nil => rfl
  | cons k ks ih => rw [List.map_cons, headIds?_cons, headId?_val, ih]; rfl

theorem headIds?_eq_some {ns : List Nat} {ks : List HeadId} (e : headIds? ns = some ks) : ns = ks.map Fin.val := by
  induction ns generalizing ks with
  | nil => cases e; rfl
  | cons n ns ih =>
    rw [headIds?_cons] at e
    obtain ⟨k, hk, e⟩ := Option.bind_eq_some_iff.1 e
    obtain ⟨ms, hm, rfl⟩ := Option.map_eq_some_iff.1 e
    rw [List.map_cons, ← headId?_eq_some hk, ← ih hm]

/-- The neighbour list a part 3 carries is taken as it is when it keeps R8's constraints. -/
theorem neighboursOk_map_val {h : HeadId} {ks : List HeadId} (len : ks.length ≤ 8) (other : h ∉ ks) (nodup : ks.Nodup) :
    neighboursOk h (ks.map Fin.val) = some ks := by
  simp [neighboursOk, headIds?_map_val, len, other, nodup]

/-- A list that breaks one of R8's constraints is refused. -/
theorem neighboursOk_eq_none {h : HeadId} {ns : List Nat}
    (bad : 8 < ns.length ∨ (∃ n ∈ ns, 96 ≤ n) ∨ h.val ∈ ns ∨ ¬ ns.Nodup) : neighboursOk h ns = none := by
  unfold neighboursOk
  split
  · rfl
  · next ks e =>
    refine if_neg fun ⟨len, other, nodup⟩ => ?_
    have shape := headIds?_eq_some e
    subst shape
    rcases bad with long | ⟨n, mem, big⟩ | self | twice
    · rw [List.length_map] at long; omega
    · obtain ⟨k, -, rfl⟩ := List.mem_map.1 mem
      exact absurd k.isLt (by omega)
    · obtain ⟨k, mem, same⟩ := List.mem_map.1 self
      exact other (Fin.ext same ▸ mem)
    · exact twice (nodup.map Fin.val_injective)

/-! ## Requests taken -/

/-- A taken request whose work draws a refusal draws the reply alone. -/
theorem State.Takes.refused {s u : State} {type : Byte} {f : Req} (h : s.Takes type f u) {work : State → Served}
    {wrong : State → Content} {c : Code} (e : work u = .refuse u c) :
    s.serve f type work wrong = u.reply type f.tag c .none := by
  rw [State.serve_of_takes h (by rw [e]; exact h.held), e]
  rfl

/-- A taken request naming no head draws RANGE. -/
theorem State.Takes.no_head {s u : State} {type : Byte} {f : Req} (h : s.Takes type f u) {head : Nat} (big : 96 ≤ head)
    {work : HeadId → State → Served} {wrong : State → Content} :
    s.serve f type (fun t => t.withHead head work) wrong = u.reply type f.tag .range .none :=
  h.refused (by simp [State.withHead, headId?_of_le big])

/-- A taken request naming a head is worked on once the head's setup sequence is ended (R11). -/
theorem State.Takes.withHead {s u : State} {type : Byte} {f : Req} (h : s.Takes type f u) (g : HeadId)
    {work : HeadId → State → Served} {wrong : State → Content} (quiet : (work g (u.endSequence g)).state.held = []) :
    s.serve f type (fun t => t.withHead g.val work) wrong =
      (work g (u.endSequence g)).state.reply type f.tag (work g (u.endSequence g)).code
        (work g (u.endSequence g)).content := by
  have named : u.withHead g.val work = work g (u.endSequence g) := by simp [State.withHead, headId?_val]
  rw [State.serve_of_takes h (by rw [named]; exact quiet), named]

/-! ## HEAD-SETUP -/

theorem radioOk_eq_false {radio step : Nat} : radioOk radio step = false ↔ radio < 1 ∨ 200 < radio ∨ 15 < step := by
  simp only [radioOk, Bool.and_eq_false_iff, decide_eq_false_iff_not]; omega

theorem limitsOk_eq_false {cap floor : Nat} : limitsOk cap floor = false ↔ cap < 10000 ∨ 90000 < cap ∨ 7 < floor := by
  simp only [limitsOk, Bool.and_eq_false_iff, decide_eq_false_iff_not]; omega

/-- Settles O24. -/
theorem headSetupWritesItsPart : Obligations.HeadSetupWritesItsPart := by
  intro s u f taken answer
  have refused : ∀ {work : State → Served} {c : Code}, work u = .refuse u c →
      (.next (s.serve f 0x07 work) : Result) = answer u c := fun e => congrArg _ (taken.refused e)
  have written : ∀ {work : State → Served} {v : State}, v.held = u.held → work u = ⟨v, .ok, .none⟩ →
      (.next (s.serve f 0x07 work) : Result) = answer v .ok := by
    intro work v quiet e
    rw [State.serve_of_takes taken (by rw [e]; exact quiet.trans taken.held), e]
  refine ⟨fun head _ _ big => refused ?_, fun head _ _ big => refused ?_, fun head _ big => refused ?_, fun h => ?_⟩
  · simp [headId?_of_le big]
  · simp [headId?_of_le big]
  · simp [headId?_of_le big]
  refine ⟨fun radio step => ?_, fun cap floor => ?_, fun ns pos => refused ?_, fun ns pos bad => refused ?_,
    fun ks pos len other nodup => written rfl ?_⟩
  · split
    · next l =>
      refine refused ?_
      simp [headId?_val, Head.live_iff.2 l]
    · next l =>
      have idle : (u.head h).live = false := Bool.eq_false_of_not_eq_true fun w => l (Head.live_iff.1 w)
      split
      · next bad =>
        refine refused ?_
        simp [headId?_val, idle, radioOk_eq_false.2 bad]
      · next ok =>
        have ok : radioOk radio step = true := Bool.eq_true_of_not_eq_false fun w => ok (radioOk_eq_false.1 w)
        refine written rfl ?_
        simp [headId?_val, idle, ok]
  · split
    · next pos =>
      refine refused ?_
      simp [headId?_val, pos]
    · next pos =>
      split
      · next bad =>
        refine refused ?_
        simp [headId?_val, not_not.1 pos, limitsOk_eq_false.2 bad]
      · next ok =>
        have ok : limitsOk cap floor = true := Bool.eq_true_of_not_eq_false fun w => ok (limitsOk_eq_false.1 w)
        refine written rfl ?_
        simp [headId?_val, not_not.1 pos, ok]
  · simp [headId?_val, pos]
  · simp [headId?_val, pos, neighboursOk_eq_none bad]
  · simp [headId?_val, pos, neighboursOk_map_val len other nodup]

/-! ## HEAD-CONTROL START -/

/-- START of a head that may not be started is refused (R13). -/
theorem State.startHead_refused {s : State} {h : HeadId}
    (n : ¬ (s.part = .run ∧ (s.head h).state = .dark ∧ (s.head h).complete = true)) :
    s.startHead h = .refuse s .state := by
  simp only [State.startHead, if_neg n]

/-- START of a DARK head whose setup is complete (R13). -/
theorem State.startHead_started {s : State} {h : HeadId} (run : s.part = .run) (dark : (s.head h).state = .dark)
    (complete : (s.head h).complete = true) :
    s.startHead h =
      ⟨(s.setHead h { s.head h with state := .starting, startTimer := some (s.now + 500000) }).send h
        (.setup (s.head h).radio (s.head h).step (s.head h).neighbours), .ok, .none⟩ := by
  have c : s.part = .run ∧ (s.head h).state = .dark ∧ (s.head h).complete = true := ⟨run, dark, complete⟩
  simp only [State.startHead, if_pos c]
  rfl

/-- A frame to a head that is neither ABSENT nor in FAULT is sent (R2). -/
theorem State.send_of_reachable {s : State} {h : HeadId} (r : (s.head h).reachable = true) (f : LinkFrame) :
    s.send h f = { s with linkOut := s.linkOut ++ [(h, f)] } := by
  simp only [State.send, if_pos r]

/-- Settles O25. -/
theorem headControlStartsAHead : Obligations.HeadControlStartsAHead := by
  intro s u f known taken
  have next_ : ∀ {v w : State}, v = w → (.next v : Result) = .next w := fun e => congrArg _ e
  refine ⟨fun head big => ⟨next_ (taken.no_head big), next_ (taken.no_head big), next_ (taken.no_head big)⟩, fun h => ?_⟩
  intro x ended
  have quiet : ended.held = [] := taken.held
  have own : (u.endSequence h).head h = x := State.head_setHead_self _ _ _
  refine ⟨⟨next_ (taken.withHead h quiet), next_ (taken.withHead h quiet), next_ (taken.withHead h quiet)⟩,
    fun n => ?_, fun run dark complete => ?_⟩
  · have refused : State.startHead (u.endSequence h) h = .refuse (u.endSequence h) .state :=
      State.startHead_refused (by rw [own]; exact n)
    refine (next_ (taken.withHead h ?_)).trans ?_
    · simp only [if_true, refused]; exact quiet
    · simp only [if_true, refused]; rfl
  · have started := State.startHead_started (s := u.endSequence h) run (by rw [own]; exact dark) (by rw [own]; exact complete)
    rw [own, State.endSequence_eq, State.setHead_setHead, State.send_of_reachable (by simp [Head.reachable])] at started
    refine (next_ (taken.withHead h ?_)).trans ?_
    · simp only [if_true]
      rw [State.endSequence_eq, started]
      exact quiet
    · simp only [if_true]
      rw [State.endSequence_eq, started]
      rfl

/-! ## Queries -/

/-- The COUNTED channels HEAD-STATS reports (R18). -/
theorem State.mem_headFigures_counted {s : State} {h : HeadId} {a : Account} (e : (s.head h).account = some a)
    (c : Chan) (k cost : Nat) : (c, k, cost) ∈ (s.headFigures h).counted ↔ a.entries[c] = .counted k cost := by
  simp only [State.headFigures, e, List.mem_filterMap, List.mem_finRange, true_and]
  constructor
  · rintro ⟨d, hd⟩
    split at hd
    · next k' cost' e' => cases hd; exact e'
    · cases hd
  · intro w
    exact ⟨c, by rw [w]⟩

/-- The SHED channels HEAD-STATS reports (R18). -/
theorem State.mem_headFigures_shed {s : State} {h : HeadId} {a : Account} (e : (s.head h).account = some a) (c : Chan) :
    c ∈ (s.headFigures h).shed ↔ ∃ k cost, a.entries[c] = .shed k cost := by
  simp only [State.headFigures, e, List.mem_filter, List.mem_finRange, true_and]
  cases w : a.entries[c] <;> simp

/-- Settles O28. -/
theorem headQueriesReportTheRecord : Obligations.HeadQueriesReportTheRecord := by
  refine ⟨fun s u f head taken => ⟨fun big => congrArg _ (taken.no_head big), fun h named => ?_⟩,
    fun s u f head taken => ⟨fun big => congrArg _ (taken.no_head big), fun h named => ?_⟩⟩
  · subst named
    intro x
    have own : (u.endSequence h).head h = x := State.head_setHead_self _ _ _
    refine (congrArg _ (taken.withHead h taken.held)).trans ?_
    simp only [State.headReport, own]
    rfl
  · subst named
    intro x
    have own : (u.endSequence h).head h = x := State.head_setHead_self _ _ _
    have late : ((u.endSequence h).headFigures h).late = x.late := by
      cases e : x.account <;> simp [State.headFigures, own, e]
    refine ⟨(u.endSequence h).headFigures h, congrArg _ (taken.withHead h taken.held), late, fun e => ?_, fun a e => ?_⟩
    · rw [← own] at e
      simp [State.headFigures, e]
    · rw [← own] at e
      exact ⟨by simp [State.headFigures, e], by simp [State.headFigures, e], State.mem_headFigures_counted e,
        State.mem_headFigures_shed e⟩

end Sys2Proof.Machine

/-!
PROOF LAYER. The Airtime Unit: what a recompute leaves. Its account is true (R43, R45), within the cap where the reservations are
(R46, R47), and its notices are all of class AIRTIME.
-/
namespace Sys2Proof.Machine

/-! ## Entries brought up to date -/

theorem State.freshEntries_get (s : State) (ps : List Party) (floor : Nat) (old : Vector Entry 8) (c : Chan) :
    (s.freshEntries ps floor old)[c] = freshEntry (s.channel c) ps floor c old[c] := by
  simp [State.freshEntries]

/-- An entry brought up to date is what R43 says. -/
theorem freshEntry_true (x : Channel) (ps : List Party) (floor : Nat) (c : Chan) (old : Entry) :
    EntryTrue x ps floor c (freshEntry x ps floor c old) := by
  unfold EntryTrue freshEntry
  cases x.running <;> cases plannedRate ps floor c <;> simp only
  cases old <;> simp [channelCost]

/-- Bringing an entry up to date sheds none. -/
theorem shed_of_freshEntry {x : Channel} {ps : List Party} {floor : Nat} {c : Chan} {old : Entry} {k cost : Nat}
    (e : freshEntry x ps floor c old = .shed k cost) : ∃ k' cost', old = .shed k' cost' := by
  unfold freshEntry at e
  split at e
  · split at e
    · exact ⟨_, _, rfl⟩
    · cases e
  · cases e

/-- No venue-level channel is SHED in an account (R47). -/
def State.NoVenueShed (s : State) (a : Account) : Prop :=
  ∀ c, s.atVenue c = true → ∀ k cost, a.entries[c] ≠ .shed k cost

/-! ## The shedding rule -/

/-- A channel that the shedding rule may take: COUNTED and below the venue level (R47). -/
def State.Sheddable (s : State) (entries : Vector Entry 8) (c : Chan) : Prop :=
  s.atVenue c = false ∧ ∃ k cost, entries[c] = .counted k cost

/-- A fold that keeps one of two takes its result from the list. -/
theorem foldl_pick_mem {α : Type} (f : α → α → α) (pick : ∀ a b, f a b = a ∨ f a b = b) (xs : List α) (b : α) :
    xs.foldl f b = b ∨ xs.foldl f b ∈ xs := by
  induction xs generalizing b with
  | nil => exact .inl rfl
  | cons x xs ih =>
    rw [List.foldl_cons]
    rcases ih (f b x) with e | e
    · rcases pick b x with p | p
      · exact .inl (e.trans p)
      · exact .inr (List.mem_cons.2 (.inl (e.trans p)))
    · exact .inr (List.mem_cons_of_mem _ e)

/-- The fold of the shedding rule's choice: none for the empty list, else one of the list. -/
theorem State.shedFold (s : State) (xs : List Chan) :
    (xs = [] ∧ xs.foldl (fun (best : Option Chan) c => match best with
        | none => some c
        | some b => if s.shedsBefore c b then some c else some b) none = none)
      ∨ ∃ c ∈ xs, xs.foldl (fun (best : Option Chan) c => match best with
        | none => some c
        | some b => if s.shedsBefore c b then some c else some b) none = some c := by
  have some_ : ∀ (ys : List Chan) (b : Chan), ys.foldl (fun (best : Option Chan) c => match best with
        | none => some c
        | some b => if s.shedsBefore c b then some c else some b) (some b)
      = some (ys.foldl (fun b c => if s.shedsBefore c b then c else b) b) := by
    intro ys
    induction ys with
    | nil => exact fun b => rfl
    | cons y ys ih =>
      intro b
      simp only [List.foldl_cons]
      split <;> exact ih _
  cases xs with
  | nil => exact .inl ⟨rfl, rfl⟩
  | cons x xs =>
    refine .inr ⟨xs.foldl (fun b c => if s.shedsBefore c b then c else b) x, ?_, some_ xs x⟩
    rcases foldl_pick_mem (fun b c => if s.shedsBefore c b then c else b)
      (fun a b => by split; exacts [.inr rfl, .inl rfl]) xs x with e | e
    · exact List.mem_cons.2 (.inl e)
    · exact List.mem_cons_of_mem _ e

theorem State.mem_sheddable (s : State) (entries : Vector Entry 8) (c : Chan) :
    (c ∈ (List.finRange 8).filter fun c =>
        !s.atVenue c && (match entries[c] with | .counted _ _ => true | _ => false)) ↔ s.Sheddable entries c := by
  simp only [List.mem_filter, List.mem_finRange, true_and, Bool.and_eq_true, Bool.not_eq_true', State.Sheddable]
  refine and_congr_right fun _ => ?_
  cases entries[c] <;> simp

/-- The channel chosen may be taken. -/
theorem State.sheddable_of_choice {s : State} {entries : Vector Entry 8} {c : Chan} (e : s.shedChoice entries = some c) :
    s.Sheddable entries c := by
  unfold State.shedChoice at e
  obtain ⟨-, n⟩ | ⟨d, mem, n⟩ := s.shedFold ((List.finRange 8).filter fun c =>
      !s.atVenue c && (match entries[c] with | .counted _ _ => true | _ => false))
  · cases n.symm.trans e
  · cases n.symm.trans e
    exact (s.mem_sheddable entries c).1 mem

/-- With none chosen none may be taken. -/
theorem State.not_sheddable_of_choice {s : State} {entries : Vector Entry 8} (e : s.shedChoice entries = none) (c : Chan) :
    ¬ s.Sheddable entries c := by
  unfold State.shedChoice at e
  obtain ⟨n, -⟩ | ⟨d, mem, n⟩ := s.shedFold ((List.finRange 8).filter fun c =>
      !s.atVenue c && (match entries[c] with | .counted _ _ => true | _ => false))
  · rw [← s.mem_sheddable entries c, n]; simp
  · cases n.symm.trans e

/-- An account with one channel's entry made SHED (R47). -/
def Account.shedAt (a : Account) (c : Chan) (k cost : Nat) : Account :=
  { a with entries := a.entries.set c (.shed k cost), committed := a.committed - cost }

/-- What holds of an account and survives each channel's shedding holds of what the shedding rule leaves. -/
theorem State.shedLoop_induct {s : State} {h : HeadId} {cap : Nat} (P : Account → List Notice → Prop)
    (shed : ∀ a ns c k cost, P a ns → s.atVenue c = false → a.entries[c] = .counted k cost →
      P (a.shedAt c k cost) (ns ++ [.shed h c cost])) (n : Nat) (a : Account) (ns : List Notice) (base : P a ns) :
    P (s.shedLoop h cap n a ns).1 (s.shedLoop h cap n a ns).2 := by
  induction n generalizing a ns with
  | zero => exact base
  | succ n ih =>
    unfold State.shedLoop
    split
    · exact base
    · split
      · exact base
      · next c e =>
        obtain ⟨below, k, cost, counted⟩ := State.sheddable_of_choice e
        simp only [counted]
        exact ih _ _ (shed a ns c k cost base below counted)

/-- The rule does nothing where the committed total is within the cap. -/
theorem State.shed_of_le {s : State} {h : HeadId} {cap : Nat} {a : Account} (le : a.committed ≤ cap) :
    s.shed h cap a = (a, []) := by
  unfold State.shed State.shedLoop
  rw [if_pos le]

/-! ## Totals -/

/-- A sum over the channels that one channel's term leaves. -/
theorem sum_finRange_of_removed (f g : Chan → Nat) (c : Chan) (cost : Nat) (at_ : f c = g c + cost)
    (other : ∀ d, d ≠ c → f d = g d) :
    ((List.finRange 8).map f).sum = ((List.finRange 8).map g).sum + cost := by
  have each : ∀ d, f d = g d + if d = c then cost else 0 := by
    intro d
    split
    · next e => rw [e, at_]
    · next e => rw [other d e, Nat.add_zero]
  rw [← Fin.sum_univ_def, ← Fin.sum_univ_def, Finset.sum_congr rfl fun d _ => each d, Finset.sum_add_distrib]
  simp

theorem Account.shedAt_get (a : Account) (c d : Chan) (k cost : Nat) :
    (a.shedAt c k cost).entries[d] = if d = c then .shed k cost else a.entries[d] := by
  simp only [Account.shedAt, Fin.getElem_fin, Vector.getElem_set, Fin.ext_iff, eq_comm]

/-- Shedding a COUNTED channel below the venue level takes its cost out of the committed total (R45, R47). -/
theorem State.committedOf_shedAt (s : State) (ps : List Party) (a : Account) {c : Chan} {k cost : Nat}
    (below : s.atVenue c = false) (counted : a.entries[c] = .counted k cost) :
    s.committedOf ps a.entries = s.committedOf ps (a.shedAt c k cost).entries + cost := by
  unfold State.committedOf
  rw [sum_finRange_of_removed (fun c => if s.atVenue c then 0 else a.entries[c].countedCost)
    (fun d => if s.atVenue d then 0 else (a.shedAt c k cost).entries[d].countedCost) c cost]
  · exact (Nat.add_assoc _ _ _).symm
  · simp only [below, Account.shedAt_get, if_true, counted]
    simp [Entry.countedCost]
  · intro d ne
    simp only [Account.shedAt_get, if_neg ne]

/-- The venue load is no part of what is shed. -/
theorem State.venueOf_shedAt (s : State) (a : Account) {c : Chan} {k cost : Nat} (below : s.atVenue c = false) :
    s.venueOf (a.shedAt c k cost).entries = s.venueOf a.entries := by
  unfold State.venueOf
  congr 2
  funext d
  rw [Account.shedAt_get]
  split
  · next v =>
    have ne : d ≠ c := fun e => by rw [e, below] at v; cases v
    rw [if_neg ne]
  · rfl

theorem State.AccountTrue.shedAt {s : State} {h : HeadId} {a : Account} (t : s.AccountTrue h a) {c : Chan} {k cost : Nat}
    (below : s.atVenue c = false) (counted : a.entries[c] = .counted k cost) : s.AccountTrue h (a.shedAt c k cost) := by
  obtain ⟨entries, committed, venue, shed⟩ := t
  refine ⟨fun d => ?_, ?_, ?_, fun d v k' cost' => ?_⟩
  · rw [Account.shedAt_get]
    split
    · next e =>
      subst e
      have was := entries d
      rw [counted] at was
      unfold EntryTrue at was ⊢
      split at was <;> simp_all
    · exact entries d
  · have total := s.committedOf_shedAt (s.parties h) a below counted
    show a.committed - cost = _
    omega
  · rw [s.venueOf_shedAt a below]; exact venue
  · have ne : d ≠ c := fun e => by rw [e, below] at v; cases v
    rw [Account.shedAt_get, if_neg ne]
    exact shed d v k' cost'

/-! ## What a recompute leaves -/

theorem State.recompute_of_closed {s : State} {h : HeadId} (e : (s.head h).account = none) : s.recompute h = s := by
  simp only [State.recompute, e]

theorem State.recompute_of_open {s : State} {h : HeadId} {a : Account} (e : (s.head h).account = some a) :
    s.recompute h = s.setAccount h (s.recomputed h a) := by
  simp only [State.recompute, e]

/-- The account before the shedding rule is true. -/
theorem State.resum_true (s : State) (h : HeadId) {a : Account} (v : s.NoVenueShed a) :
    s.AccountTrue h (s.resum (s.parties h)
      { a with entries := s.freshEntries (s.parties h) (s.head h).floor a.entries }) := by
  refine ⟨fun c => ?_, rfl, rfl, fun c at_ k cost e => ?_⟩
  · simp only [State.resum, State.freshEntries_get]
    exact freshEntry_true _ _ _ _ _
  · simp only [State.resum, State.freshEntries_get] at e
    obtain ⟨k', cost', e⟩ := shed_of_freshEntry e
    exact v c at_ k' cost' e

/-- A recomputed account is true (R46). -/
theorem State.recomputed_true (s : State) (h : HeadId) {a : Account} (v : s.NoVenueShed a) :
    s.AccountTrue h (s.recomputed h a).1 :=
  State.shedLoop_induct (fun b _ => s.AccountTrue h b) (fun _ _ _ _ _ t below counted => t.shedAt below counted) _ _ _
    (s.resum_true h v)

/-- A recompute produces notices of class AIRTIME alone (R47). -/
theorem State.recomputed_notices (s : State) (h : HeadId) (a : Account) :
    ∀ n ∈ (s.recomputed h a).2, noticeClass n = .airtime :=
  State.shedLoop_induct (fun _ ns => ∀ n ∈ ns, noticeClass n = .airtime)
    (fun _ _ _ _ _ airtime _ _ n mem => by
      rcases List.mem_append.1 mem with m | m
      · exact airtime n m
      · rw [List.mem_singleton.1 m]; rfl) _ _ _ (by simp)

/-- How many channels the shedding rule may still take. -/
def State.sheddableCount (s : State) (entries : Vector Entry 8) : Nat :=
  ((List.finRange 8).map fun c =>
    if !s.atVenue c && (match entries[c] with | .counted _ _ => true | _ => false) then 1 else 0).sum

theorem State.sheddableCount_shedAt (s : State) (a : Account) {c : Chan} {k cost : Nat} (below : s.atVenue c = false)
    (counted : a.entries[c] = .counted k cost) :
    s.sheddableCount a.entries = s.sheddableCount (a.shedAt c k cost).entries + 1 := by
  refine sum_finRange_of_removed _ _ c 1 ?_ fun d ne => ?_
  · simp only [below, counted, Account.shedAt_get, if_true]; rfl
  · simp only [Account.shedAt_get, if_neg ne]

theorem State.sheddableCount_le (s : State) (entries : Vector Entry 8) : s.sheddableCount entries ≤ 8 := by
  unfold State.sheddableCount
  refine (List.sum_le_card_nsmul _ 1 ?_).trans (by simp)
  intro x mem
  obtain ⟨c, -, rfl⟩ := List.mem_map.1 mem
  split <;> split <;> omega

/-- With none left to take, the committed total is the reservations. -/
theorem State.committedOf_of_not_sheddable {s : State} {ps : List Party} {entries : Vector Entry 8}
    (n : ∀ c, ¬ s.Sheddable entries c) : s.committedOf ps entries = resSum ps := by
  have zero : ∀ c, (if s.atVenue c then 0 else entries[c].countedCost) = 0 := by
    intro c
    split
    · rfl
    · next below =>
      cases e : entries[c] with
      | counted k cost => exact absurd ⟨Bool.eq_false_of_not_eq_true below, k, cost, e⟩ (n c)
      | notCounted => rfl
      | shed k cost => rfl
  simp only [State.committedOf, zero]
  simp

/-- The shedding rule brings the committed total within the cap where the reservations are within it (R47). -/
theorem State.shedLoop_committed_le {s : State} {h : HeadId} {cap : Nat} {ps : List Party} (fits : resSum ps ≤ cap) (n : Nat)
    (a : Account) (ns : List Notice) (total : a.committed = s.committedOf ps a.entries)
    (count : s.sheddableCount a.entries ≤ n) : (s.shedLoop h cap n a ns).1.committed ≤ cap := by
  induction n generalizing a ns with
  | zero =>
    have none_ : ∀ c, ¬ s.Sheddable a.entries c := by
      rintro c ⟨below, k, cost, counted⟩
      have := s.sheddableCount_shedAt a below counted
      omega
    rw [State.committedOf_of_not_sheddable none_] at total
    exact total.trans_le fits
  | succ n ih =>
    unfold State.shedLoop
    split
    · assumption
    · split
      · next e => rw [total, State.committedOf_of_not_sheddable (State.not_sheddable_of_choice e)]; exact fits
      · next c e =>
        obtain ⟨below, k, cost, counted⟩ := State.sheddable_of_choice e
        simp only [counted]
        refine ih (a.shedAt c k cost) _ ?_ ?_
        · have := s.committedOf_shedAt ps a below counted
          show a.committed - cost = _
          omega
        · have := s.sheddableCount_shedAt a below counted
          omega

/-- A recomputed account is within the cap where the reservations are (R46). -/
theorem State.recomputed_committed_le {s : State} {h : HeadId} (a : Account)
    (fits : resSum (s.parties h) ≤ (s.head h).cap) : (s.recomputed h a).1.committed ≤ (s.head h).cap :=
  State.shedLoop_committed_le fits 8 _ _ rfl (s.sheddableCount_le _)

/-! ## The state a recompute leaves -/

@[simp] theorem State.head_note (s : State) (n : Notice) (g : HeadId) : (s.note n).head g = s.head g := rfl
@[simp] theorem State.head_noteAll (s : State) (ns : List Notice) (g : HeadId) : (s.noteAll ns).head g = s.head g := rfl
@[simp] theorem State.head_send (s : State) (h : HeadId) (f : LinkFrame) (g : HeadId) : (s.send h f).head g = s.head g := rfl

theorem State.recompute_head_of_ne (s : State) {h g : HeadId} (ne : g ≠ h) : (s.recompute h).head g = s.head g := by
  cases e : (s.head h).account with
  | none => rw [State.recompute_of_closed e]
  | some a => rw [State.recompute_of_open e]; exact State.head_setHead_of_ne _ _ ne

/-- The head recomputed keeps its record with the recomputed account. -/
theorem State.recompute_head_self {s : State} {h : HeadId} {a : Account} (e : (s.head h).account = some a) :
    (s.recompute h).head h = { s.head h with account := some (s.recomputed h a).1 } := by
  rw [State.recompute_of_open e]; exact State.head_setHead_self _ _ _

theorem State.recompute_produced (s : State) (h : HeadId) :
    ∃ ns, s.Produced (s.recompute h) ns ∧ ∀ n ∈ ns, noticeClass n = .airtime := by
  cases e : (s.head h).account with
  | none => exact ⟨[], .nil (by rw [State.recompute_of_closed e]), by simp⟩
  | some a =>
    refine ⟨(s.recomputed h a).2, ?_, s.recomputed_notices h a⟩
    rw [State.recompute_of_open e]
    rfl

/-! ## What a bowl command may change -/

/-- A state with the stations, holds, heads, frames sent and notices produced taken out of it. -/
def State.aside (s : State) : State :=
  { s with stations := [], holds := [], heads := Vector.replicate 96 (powerOnHead 0), linkOut := [], held := [] }

/-- States alike in all that `aside` keeps differ in what it takes out alone. -/
theorem State.eq_of_aside {s t : State} (e : t.aside = s.aside) :
    t = { s with
      stations := t.stations, holds := t.holds, heads := t.heads, linkOut := t.linkOut, held := t.held } := by
  have put : ∀ u : State, u = { u.aside with
      stations := u.stations, holds := u.holds, heads := u.heads, linkOut := u.linkOut, held := u.held } := fun _ => rfl
  have same := put t
  rw [e] at same
  exact same

theorem State.besideBowl_of_aside {s t : State} (e : t.aside = s.aside) : t.besideBowl = s.besideBowl := by
  rw [State.eq_of_aside e]; rfl

theorem State.passView_of_aside {s t : State} (e : t.aside = s.aside) : t.passView = s.passView := by
  rw [State.eq_of_aside e]; rfl

theorem State.discards_of_aside {s t : State} (e : t.aside = s.aside) : t.discards = s.discards := by
  rw [State.eq_of_aside e]

theorem State.now_of_aside {s t : State} (e : t.aside = s.aside) : t.now = s.now := by
  rw [State.eq_of_aside e]

theorem State.enables_of_aside {s t : State} (e : t.aside = s.aside) : t.enables = s.enables := by
  rw [State.eq_of_aside e]

theorem State.channels_of_aside {s t : State} (e : t.aside = s.aside) : t.channels = s.channels := by
  rw [State.eq_of_aside e]

section
variable (s : State)

@[simp] theorem State.setHead_aside (h : HeadId) (x : Head) : (s.setHead h x).aside = s.aside := rfl
@[simp] theorem State.setStation_aside (i : Nat) (x : Station) : (s.setStation i x).aside = s.aside := rfl
@[simp] theorem State.updateStation_aside (i : Nat) (f : Station → Station) : (s.updateStation i f).aside = s.aside := rfl
@[simp] theorem State.dropHold_aside (i : Nat) : (s.dropHold i).aside = s.aside := rfl
@[simp] theorem State.note_aside (n : Notice) : (s.note n).aside = s.aside := rfl
@[simp] theorem State.noteAll_aside (ns : List Notice) : (s.noteAll ns).aside = s.aside := rfl
@[simp] theorem State.send_aside (h : HeadId) (f : LinkFrame) : (s.send h f).aside = s.aside := rfl

@[simp] theorem State.recompute_aside (h : HeadId) : (s.recompute h).aside = s.aside := by
  unfold State.recompute; split <;> rfl

@[simp] theorem State.drainCheck_aside (h : HeadId) : (s.drainCheck h).aside = s.aside := by
  unfold State.drainCheck; split <;> rfl

@[simp] theorem State.noteHostEnd_aside (x : Hold) (k : RoamEnd) : (s.noteHostEnd x k).aside = s.aside := by
  unfold State.noteHostEnd; split <;> rfl

@[simp] theorem State.cancel_aside (x : Hold) : (s.cancel x).aside = s.aside := by
  unfold State.cancel; split <;> rfl

@[simp] theorem State.lapse_aside (i : Nat) : (s.lapse i).aside = s.aside := rfl

@[simp] theorem State.recompute_stations (h : HeadId) : (s.recompute h).stations = s.stations := by
  unfold State.recompute; split <;> rfl

@[simp] theorem State.recompute_holds (h : HeadId) : (s.recompute h).holds = s.holds := by
  unfold State.recompute; split <;> rfl

@[simp] theorem State.recompute_linkOut (h : HeadId) : (s.recompute h).linkOut = s.linkOut := by
  unfold State.recompute; split <;> rfl

end

/-! ## Replies and the notices behind them -/

/-- A request's work keeps all beside the bowl and has produced some notices: behind its reply they are offered. -/
theorem State.InBowl.of_reply {u w : State} {ns : List Notice} {type tag : Byte} {code : Code} {content : Content}
    (quiet : u.held = []) (b : w.besideBowl = u.besideBowl) (d : w.discards = u.discards) (p : u.Produced w ns) :
    (u.reply type tag code content).InBowl (w.reply type tag code content).flush ns := by
  refine .of_flush quiet ?_ d p
  simp only [State.besideBowl, Prod.mk.injEq] at b ⊢
  obtain ⟨b1, b2, b3, b4, b5, b6, b7, b8⟩ := b
  exact ⟨b1, b2, b3, b4, b5, b6, by simp [State.reply, b7], b8⟩

/-- Settles O27. -/
theorem headLimitsRecomputeTheHead : Obligations.HeadLimitsRecomputeTheHead := by
  intro s u f head cap floor taken
  have next_ : ∀ {v w : State}, v = w → (.next v : Result) = .next w := fun e => congrArg _ e
  refine ⟨fun big => next_ (taken.no_head big), fun h named => ?_⟩
  subst named
  intro ended x w
  have quiet : ended.held = [] := taken.held
  refine ⟨fun idle => ?_, fun live bad => ?_, fun live lo hi fl fits => ?_⟩
  · have idle : (ended.head h).live = false := Bool.eq_false_of_not_eq_true fun l => idle (Head.live_iff.1 l)
    refine (next_ (taken.withHead h ?_)).trans ?_
    · simp only [show ((u.endSequence h).head h).live = false from idle]; exact quiet
    · simp only [show ((u.endSequence h).head h).live = false from idle]; rfl
  · have live : (ended.head h).live = true := Head.live_iff.2 live
    have live' : ((u.endSequence h).head h).live = true := live
    have refused : (limitsOk cap floor && decide (resSum ((u.endSequence h).parties h) ≤ cap)) = false := by
      rw [Bool.and_eq_false_iff, limitsOk_eq_false, decide_eq_false_iff_not]
      rcases bad with b | b | b | b
      · exact .inl (.inl b)
      · exact .inl (.inr (.inl b))
      · exact .inl (.inr (.inr b))
      · exact .inr (Nat.not_le.2 b)
    refine (next_ (taken.withHead h ?_)).trans ?_
    · simp only [live', if_true, refused, Bool.false_eq_true, if_false]; exact quiet
    · simp only [live', if_true, refused, Bool.false_eq_true, if_false]; rfl
  · have live : (ended.head h).live = true := Head.live_iff.2 live
    have accepted : (limitsOk cap floor && decide (resSum ((u.endSequence h).parties h) ≤ cap)) = true := by
      rw [Bool.and_eq_true, decide_eq_true_eq]
      exact ⟨Bool.eq_true_of_not_eq_false fun b => by rw [limitsOk_eq_false] at b; omega, fits⟩
    have served : exec (.headLimits f h cap floor) s = .next (w.reply 0x09 f.tag .ok .none).flush := by
      refine next_ ((State.serve_of_taken taken.1 taken.2.1).trans ?_)
      simp only [State.withHead, headId?_val, show ((u.endSequence h).head h).live = true from live, if_true, accepted]
      rfl
    have written : (ended.setHead h { x with cap := cap, floor := floor }).head h = { x with cap := cap, floor := floor } :=
      State.head_setHead_self _ _ _
    obtain ⟨ns, produced, -⟩ := State.recompute_produced (ended.setHead h { x with cap := cap, floor := floor }) h
    have closed : (w.head h).closed = ({ x with cap := cap, floor := floor } : Head).closed :=
      (State.closed_of_headsView (State.recompute_headsView _ h) h).trans (congrArg Head.closed written)
    have head : State.head (w.reply 0x09 f.tag .ok .none).flush h = w.head h := State.head_congr (by simp) h
    refine ⟨_, served, by simp, ?_, ?_, fun a e => ?_, ?_, ?_, ?_, ?_⟩
    · rw [head]; exact congrArg Head.cap closed
    · rw [head]; exact congrArg Head.floor closed
    · rw [head] at e
      cases was : x.account with
      | none =>
        have still := State.account_isSome_of_headsView
          (State.recompute_headsView (ended.setHead h { x with cap := cap, floor := floor }) h) h
        rw [e, written] at still
        simp [was] at still
      | some b =>
        have after := State.recompute_head_self (s := ended.setHead h { x with cap := cap, floor := floor }) (h := h)
          (a := b) (by rw [written]; exact was)
        have le := State.recomputed_committed_le (s := ended.setHead h { x with cap := cap, floor := floor }) (h := h) b
          (by rw [written]; exact fits)
        rw [written] at le
        have same := e.symm.trans (congrArg Head.account after)
        cases same
        exact le
    · simp [State.stationView, w]; exact ⟨rfl, rfl⟩
    · rw [State.flush_passView, State.reply_passView]
      exact State.passView_of_aside (State.recompute_aside _ h)
    · simp [w]; rfl
    · refine .of_reply taken.held (State.recompute_besideBowl _ h) (State.discards_of_aside (State.recompute_aside _ h)) ?_
      have held : w.held = ns.filter fun n => u.classEnabled (noticeClass n) := by
        have : w.held = ended.held ++ ns.filter fun n => u.classEnabled (noticeClass n) := produced
        rw [this, quiet]; rfl
      simp [State.Produced, taken.held, held]

end Sys2Proof.Machine

/-!
PROOF LAYER. The start of a handover: what a hold adds to its target's account, the station's record, and STATION-MOVE.
-/
namespace Sys2Proof.Machine

/-! ## Records written where one stands -/

/-- Writing over a record is changing it. -/
theorem Table.update_eq_put {α : Type} {t : Table α} (w : Table.wf t) {i : Nat} {x : α} (e : Table.get t i = some x)
    (f : α → α) : Table.update t i f = Table.put t i (f x) := by
  induction t with
  | nil => cases e
  | cons p t ih =>
    obtain ⟨j, y⟩ := p
    simp only [Table.wf, List.map_cons, List.pairwise_cons] at w
    obtain ⟨above, w⟩ := w
    simp only [Table.get] at e
    split at e
    · next same =>
      cases e
      subst same
      have rest : t.map (fun p => if p.1 = j then (p.1, f p.2) else p) = t := by
        refine (List.map_congr_left fun p mem => if_neg ?_).trans (List.map_id t)
        exact Nat.ne_of_gt (above p.1 (List.mem_map_of_mem mem))
      simp [Table.update, Table.put, rest]
    · next other =>
      have up : j < i := above i (List.mem_map_of_mem (f := Prod.fst) (Table.get_eq_some_mem e))
      have put : Table.put ((j, y) :: t) i (f x) = (j, y) :: Table.put t i (f x) := by
        simp only [Table.put, if_neg (Nat.not_lt.2 (Nat.le_of_lt up)), if_neg (Nat.ne_of_gt up)]
      rw [put, ← ih w e]
      simp [Table.update, other]

theorem State.updateStation_eq_setStation {s : State} (w : Table.wf s.stations) {i : Nat} {st : Station}
    (e : s.station i = some st) (f : Station → Station) : s.updateStation i f = s.setStation i (f st) := by
  simp only [State.updateStation, State.setStation, Table.update_eq_put w e f]

theorem State.setStation_eq_updateStation {s : State} (w : Table.wf s.stations) {i : Nat} {st : Station}
    (e : s.station i = some st) (x : Station) : s.setStation i x = s.updateStation i fun _ => x :=
  (State.updateStation_eq_setStation w e fun _ => x).symm

/-! ## Members as parties -/

/-- What a head owes its members (R42). -/
def State.memberParties (s : State) (h : HeadId) : List Party :=
  (s.stations.filter fun p => p.2.current == some h).map fun p => ⟨p.2.res, p.2.chans, p.2.rate⟩

/-- What a head owes a hold (R42). -/
def Hold.party (x : Hold) : Party := ⟨x.res, x.chans, x.rate⟩

theorem State.parties_eq (s : State) (h : HeadId) : s.parties h = s.memberParties h ++ (s.holdsAt h).map Hold.party := rfl

/-- The table with each record changed by a function of its index. -/
def Table.change {α : Type} (t : Table α) (f : Nat → α → α) : Table α := t.map fun p => (p.1, f p.1 p.2)

theorem Table.get_change {α : Type} (t : Table α) (f : Nat → α → α) (i : Nat) :
    Table.get (Table.change t f) i = (Table.get t i).map (f i) := by
  induction t with
  | nil => rfl
  | cons p t ih =>
    obtain ⟨j, x⟩ := p
    simp only [Table.change, List.map_cons, Table.get] at ih ⊢
    split
    · next e => subst e; rfl
    · exact ih

theorem Table.keys_change {α : Type} (t : Table α) (f : Nat → α → α) : (Table.change t f).map Prod.fst = t.map Prod.fst := by
  simp [Table.change]

theorem Table.wf_change {α : Type} {t : Table α} (w : Table.wf t) (f : Nat → α → α) : Table.wf (Table.change t f) := by
  simpa only [Table.wf, Table.keys_change] using w

theorem Table.change_change {α : Type} (t : Table α) (f g : Nat → α → α) :
    Table.change (Table.change t f) g = Table.change t fun i x => g i (f i x) := by
  simp [Table.change]

theorem Table.update_eq_change {α : Type} (t : Table α) (i : Nat) (f : α → α) :
    Table.update t i f = Table.change t fun j x => if j = i then f x else x := by
  refine List.map_congr_left fun p _ => ?_
  dsimp only
  split <;> rfl

/-- Records changed where what is picked, and what is made of it, stay. -/
theorem Table.filter_map_change {α β : Type} {t : Table α} (w : Table.wf t) {f : Nat → α → α} {pick : α → Bool}
    {g : Nat × α → β} (keep : ∀ i x, Table.get t i = some x →
      pick (f i x) = pick x ∧ (pick x = true → g (i, f i x) = g (i, x))) :
    ((Table.change t f).filter fun p => pick p.2).map g = (t.filter fun p => pick p.2).map g := by
  have each : ∀ p ∈ t, pick (f p.1 p.2) = pick p.2 ∧ (pick p.2 = true → g (p.1, f p.1 p.2) = g p) := fun p mem =>
    keep p.1 p.2 (Table.get_of_mem w mem)
  unfold Table.change
  clear keep w
  induction t with
  | nil => rfl
  | cons p t ih =>
    obtain ⟨same, out⟩ := each p List.mem_cons_self
    have rest := ih fun q mem => each q (List.mem_cons_of_mem _ mem)
    simp only [List.map_cons, List.filter_cons, same]
    split
    · next on => rw [List.map_cons, List.map_cons, rest, out on]
    · exact rest

/-- Stations' records changed in a way that keeps what a head owes them keep what the head owes its members. -/
theorem State.memberParties_of_change {s t : State} (w : Table.wf s.stations) {f : Nat → Station → Station}
    (e : t.stations = Table.change s.stations f) {h : HeadId}
    (keep : ∀ i st, s.station i = some st → ((f i st).current = some h ↔ st.current = some h)
      ∧ (st.current = some h → (f i st).res = st.res ∧ (f i st).chans = st.chans ∧ (f i st).rate = st.rate)) :
    t.memberParties h = s.memberParties h := by
  rw [State.memberParties, e]
  refine Table.filter_map_change w (pick := fun st => st.current == some h) fun i st at_ => ?_
  obtain ⟨same, owed⟩ := keep i st at_
  refine ⟨by rw [Bool.eq_iff_iff, beq_iff_eq, beq_iff_eq]; exact same, fun on => ?_⟩
  obtain ⟨h1, h2, h3⟩ := owed (by simpa using on)
  simp only [h1, h2, h3]

/-- Stations' records changed in a way that keeps whether they are a head's members keep the head's members. -/
theorem State.members_of_change {s t : State} (w : Table.wf s.stations) {f : Nat → Station → Station}
    (e : t.stations = Table.change s.stations f) {h : HeadId}
    (keep : ∀ i st, s.station i = some st → ((f i st).current = some h ↔ st.current = some h)) :
    t.members h = s.members h := by
  rw [State.members, e]
  refine Table.filter_map_change w (pick := fun st => st.current == some h) fun i st at_ => ⟨?_, fun _ => rfl⟩
  rw [Bool.eq_iff_iff, beq_iff_eq, beq_iff_eq]; exact keep i st at_

/-- A station's record changed in a way that keeps what a head owes it keeps what the head owes its members. -/
theorem State.memberParties_updateStation {s : State} (w : Table.wf s.stations) {i : Nat} {f : Station → Station} {h : HeadId}
    (keep : ∀ st, s.station i = some st → ((f st).current = some h ↔ st.current = some h)
      ∧ (st.current = some h → (f st).res = st.res ∧ (f st).chans = st.chans ∧ (f st).rate = st.rate)) :
    (s.updateStation i f).memberParties h = s.memberParties h := by
  refine State.memberParties_of_change w (Table.update_eq_change _ _ _) fun j st e => ?_
  split
  · next at_ => subst at_; exact keep st e
  · exact ⟨Iff.rfl, fun _ => ⟨rfl, rfl, rfl⟩⟩

/-- A station's record changed in a way that keeps whether it is a head's member keeps the head's members. -/
theorem State.members_updateStation {s : State} (w : Table.wf s.stations) {i : Nat} {f : Station → Station} {h : HeadId}
    (keep : ∀ st, s.station i = some st → ((f st).current = some h ↔ st.current = some h)) :
    (s.updateStation i f).members h = s.members h := by
  refine State.members_of_change w (Table.update_eq_change _ _ _) fun j st e => ?_
  split
  · next at_ => subst at_; exact keep st e
  · exact Iff.rfl

theorem State.mem_members {s : State} (w : Table.wf s.stations) {h : HeadId} {i : Nat} :
    i ∈ s.members h ↔ ∃ st, s.station i = some st ∧ st.current = some h := by
  simp only [State.members, List.mem_map, List.mem_filter, beq_iff_eq]
  constructor
  · rintro ⟨⟨j, st⟩, ⟨mem, cur⟩, rfl⟩
    exact ⟨st, Table.get_of_mem w mem, cur⟩
  · rintro ⟨st, e, cur⟩
    exact ⟨(i, st), ⟨Table.get_eq_some_mem e, cur⟩, rfl⟩

/-! ## Accounts that stay true -/

/-- An account stays true where the channels, what the head owes, and its floor stay. -/
theorem State.AccountTrue.congr {s t : State} {g : HeadId} {a : Account} (true_ : s.AccountTrue g a)
    (channels : t.channels = s.channels) (parties : t.parties g = s.parties g) (floor : (t.head g).floor = (s.head g).floor) :
    t.AccountTrue g a := by
  obtain ⟨h1, h2, h3, h4⟩ := true_
  have chan : ∀ c, t.channel c = s.channel c := fun c => by simp only [State.channel, channels]
  have venue : ∀ c, t.atVenue c = s.atVenue c := fun c => by simp only [State.atVenue, chan]
  refine ⟨fun c => ?_, ?_, ?_, fun c at_ => ?_⟩
  · rw [chan, parties, floor]; exact h1 c
  · simp only [State.committedOf, venue, parties]; exact h2
  · simp only [State.venueOf, venue]; exact h3
  · exact h4 c (by rw [← venue]; exact at_)

theorem State.AccountTrue.noVenueShed {s : State} {g : HeadId} {a : Account} (t : s.AccountTrue g a) : s.NoVenueShed a := t.2.2.2

/-- The account of a head brought up to date with a hold added and no channel shed (R58). -/
def State.accountWith (s : State) (h : HeadId) (a : Account) (p : Party) : Account :=
  s.resum (s.parties h ++ [p])
    { a with entries := s.freshEntries (s.parties h ++ [p]) (s.head h).floor a.entries }

theorem State.accountWith_committed (s : State) (h : HeadId) (a : Account) (p : Party) :
    (s.accountWith h a p).committed = s.committedWith h a p := rfl

/-- A hold is admitted exactly where it fits (R58). -/
theorem State.admitsHold_iff {s : State} {g : HeadId} {p : Party} : s.admitsHold g p = true ↔ s.HoldFits g p := by
  unfold State.admitsHold State.HoldFits State.crowd
  cases e : (s.head g).account <;> simp

/-! ## A handover started -/

/-- The hold a handover places at its target (R61, R69). -/
def State.newHold (s : State) (i : Nat) (st : Station) (here target : HeadId) (rssi : Int) (o : RoamOrigin) : Hold :=
  ⟨i, here, target, st.res, st.chans, rssi, rateClass rssi, o, s.now + 50000⟩

/-- The state with a station on its way to a head: its hold stands last, and its target is yet to be recomputed. -/
def State.withMove (s : State) (i : Nat) (st : Station) (x : Hold) : State :=
  { s.setStation i { st with state := .moving, target := some x.target } with holds := s.holds ++ [x] }

theorem State.startHandover_eq_recompute (s : State) (i : Nat) (st : Station) (here target : HeadId) (rssi : Int)
    (o : RoamOrigin) : s.startHandover i st here target rssi o =
      ((s.withMove i st (s.newHold i st here target rssi o)).recompute target).send target (.offer st.addr i) := rfl

/-- With a hold placed its target owes it too; no other head owes anything new. -/
theorem State.parties_withMove {s : State} (w : Table.wf s.stations) {i : Nat} {st : Station} (e : s.station i = some st)
    (x : Hold) (g : HeadId) :
    (s.withMove i st x).parties g = s.parties g ++ if x.target = g then [x.party] else [] := by
  have members : (s.withMove i st x).memberParties g = s.memberParties g := by
    refine Eq.trans ?_ (State.memberParties_updateStation w (i := i)
      (f := fun _ => { st with state := .moving, target := some x.target }) fun st' e' => ?_)
    · rw [State.updateStation_eq_setStation w e]; rfl
    · cases e.symm.trans e'; exact ⟨Iff.rfl, fun _ => ⟨rfl, rfl, rfl⟩⟩
  have holds : (s.withMove i st x).holdsAt g = s.holdsAt g ++ if x.target = g then [x] else [] := by
    simp only [State.holdsAt, State.withMove, List.filter_append, List.filter_singleton, Bool.cond_eq_ite, beq_iff_eq]
  rw [State.parties_eq, State.parties_eq, members, holds, List.map_append, List.append_assoc]
  congr 2
  split <;> rfl

/-- The recompute of a head at which a hold has been placed that fits sheds nothing (R58, R69). -/
theorem State.recompute_withMove {s : State} (w : Table.wf s.stations) {i : Nat} {st : Station} (e : s.station i = some st)
    {x : Hold} {a : Account} (acc : (s.head x.target).account = some a)
    (le : s.committedWith x.target a x.party ≤ (s.head x.target).cap) :
    (s.withMove i st x).recompute x.target = (s.withMove i st x).setHead x.target
      { s.head x.target with account := some (s.accountWith x.target a x.party) } := by
  have owed : (s.withMove i st x).parties x.target = s.parties x.target ++ [x.party] := by
    rw [State.parties_withMove w e, if_pos rfl]
  have none_shed : (s.withMove i st x).recomputed x.target a = (s.accountWith x.target a x.party, []) := by
    unfold State.recomputed
    simp only [owed]
    exact State.shed_of_le le
  rw [State.recompute_of_open (show ((s.withMove i st x).head x.target).account = some a from acc), none_shed]
  simp only [State.setAccount, State.noteAll, List.filter_nil, List.append_nil]
  rfl

/-- What the start of a handover that fits leaves, in full: the station MOVING, its hold last, the target's account with the
hold added, and OFFER sent (R69). -/
def State.withHandover (s : State) (i : Nat) (st : Station) (x : Hold) (a : Account) : State :=
  { s with
    stations := Table.put s.stations i { st with state := .moving, target := some x.target }
    heads := s.heads.set x.target { s.head x.target with account := some (s.accountWith x.target a x.party) }
    holds := s.holds ++ [x]
    linkOut := s.linkOut ++ [(x.target, .offer st.addr i)] }

theorem State.withHandover_head_self (s : State) (i : Nat) (st : Station) (x : Hold) (a : Account) :
    (s.withHandover i st x a).head x.target
      = { s.head x.target with account := some (s.accountWith x.target a x.party) } := State.head_setHead_self s x.target _

theorem State.withHandover_head_of_ne (s : State) (i : Nat) (st : Station) (x : Hold) (a : Account) {g : HeadId}
    (ne : g ≠ x.target) : (s.withHandover i st x a).head g = s.head g := State.head_setHead_of_ne s _ ne

theorem State.withHandover_headsKept (s : State) (i : Nat) (st : Station) (x : Hold) (a : Account) :
    s.HeadsKept (s.withHandover i st x a) [x.target] := by
  refine fun g => ⟨fun mem => ?_, fun n => s.withHandover_head_of_ne i st x a fun w => n (List.mem_singleton.2 w)⟩
  rw [List.mem_singleton.1 mem, State.withHandover_head_self]
  rfl

theorem State.startHandover_eq {s : State} (w : Table.wf s.stations) {i : Nat} {st : Station} (e : s.station i = some st)
    (here : HeadId) {target : HeadId} {rssi : Int} (o : RoamOrigin) {a : Account} (acc : (s.head target).account = some a)
    (on : (s.head target).state = .on)
    (le : s.committedWith target a ⟨st.res, st.chans, rateClass rssi⟩ ≤ (s.head target).cap) :
    s.startHandover i st here target rssi o = s.withHandover i st (s.newHold i st here target rssi o) a := by
  have after := State.recompute_withMove w e (x := s.newHold i st here target rssi o) acc le
  rw [State.startHandover_eq_recompute]
  refine (congrArg (fun t => State.send t target (.offer st.addr i)) after).trans ?_
  refine (State.send_of_reachable ?_ _).trans rfl
  refine (congrArg Head.reachable (State.head_setHead_self _ target _)).trans ?_
  simp [Head.reachable, State.newHold, on]

/-- The account that the start of a handover leaves is true. -/
theorem State.withHandover_accountTrue {s : State} (w : Table.wf s.stations) {i : Nat} {st : Station}
    (e : s.station i = some st) (x : Hold) {a : Account} (v : s.NoVenueShed a) :
    (s.withHandover i st x a).AccountTrue x.target (s.accountWith x.target a x.party) := by
  have owed : (s.withMove i st x).parties x.target = s.parties x.target ++ [x.party] := by
    rw [State.parties_withMove w e, if_pos rfl]
  have base := State.resum_true (s.withMove i st x) x.target (a := a) v
  rw [owed] at base
  exact State.AccountTrue.congr (s := s.withMove i st x) base rfl rfl
    (by rw [s.withHandover_head_self i st x a]; rfl)

/-- A handover refused leaves the station with one more refused roam and its dwell start now (R68). -/
theorem State.refuseRoam_eq {s : State} (w : Table.wf s.stations) {i : Nat} {st : Station} (e : s.station i = some st) :
    s.refuseRoam i = s.setStation i { st with refused := min 65535 (st.refused + 1), dwell := s.now / 1000 } := by
  rw [State.refuseRoam, State.updateStation_eq_setStation w e, count16_eq]
  rfl

/-! ## STATION-MOVE -/

/-- A request is taken with nothing changed but the inbound queue. -/
theorem State.Takes.eq {s u : State} {type : Byte} {f : Req} (h : s.Takes type f u) :
    ∃ rest, u = { s with inbound := rest } := by
  obtain ⟨taken, -, -⟩ := h
  obtain ⟨-, ⟨-, rfl⟩ | ⟨g, rest, -, -, -, -, rfl⟩⟩ := State.takeRequest_eq_some taken
  · exact ⟨u.inbound, rfl⟩
  · exact ⟨rest, rfl⟩

/-- A command that produces no notice changes nothing beside the bowl. -/
theorem State.InBowl.of_silent {s t : State} (b : t.outsideBowl = s.outsideBowl) (o : t.outbound = s.outbound)
    (l : t.lost = s.lost) : s.InBowl t [] := by
  refine ⟨b, ?_, ?_⟩
  · simp [o]
  · simp [l]

theorem Station.candidate_eq_none {st : Station} {h : HeadId} : st.candidate h = none ↔ h ∉ st.candidates.map Prod.fst := by
  simp only [Station.candidate, List.find?_eq_none, beq_iff_eq, List.mem_map, not_exists, not_and]

/-- The checks of STATION-MOVE of a member with no handover are those of its target (R81). -/
theorem State.moveChecks_of_idle {s : State} {i : Nat} {st : Station} {here h : HeadId} (small : i < 4096)
    (e : s.station i = some st) (cur : st.current = some here) (idle : st.state = .assoc ∨ st.state = .seated) :
    s.moveChecks i h = s.moveTo i st here h := by
  simp only [State.moveChecks, if_neg (Nat.not_le.2 small), e, cur]
  rcases idle with w | w <;> simp only [w]

theorem State.moveTo_range {s : State} {i : Nat} {st : Station} {here h : HeadId}
    (bad : (s.head h).state ≠ .on ∨ h ∉ (s.head here).neighbours ∨ st.candidate h = none) :
    s.moveTo i st here h = .refuse s .range := by
  unfold State.moveTo
  split
  · rfl
  · next c e =>
    refine if_neg fun ⟨on, near⟩ => ?_
    rcases bad with b | b | b
    · exact b on
    · exact b near
    · cases b.symm.trans e

theorem State.moveTo_tried {s : State} {i : Nat} {st : Station} {here h : HeadId} {c : HeadId × Int}
    (on : (s.head h).state = .on) (near : h ∈ (s.head here).neighbours) (e : st.candidate h = some c) :
    s.moveTo i st here h = if s.admitsStation st c then ⟨s.startHandover i st here h c.2 .host, .started, .none⟩
      else .refuse (s.refuseRoam i) .airtime := by
  simp only [State.moveTo, e, if_pos (And.intro on near)]

/-- Settles O37. -/
theorem stationMoveIsOrderedByTheHost : Obligations.StationMoveIsOrderedByTheHost := by
  intro s u f i target sound taken
  have next_ : ∀ {v w : State}, v = w → (.next v : Result) = .next w := fun e => congrArg _ e
  refine ⟨fun big => next_ (taken.no_head big), fun h named => ?_⟩
  subst named
  intro v answer
  have w : Table.wf v.stations := (sound.takeRequest taken.1).store.1.1
  have served : ∀ {r : Served}, v.moveChecks i h = r → r.state.held = [] →
      exec (.stationMove f i h.val) s = .next (r.state.reply 0x0C f.tag r.code r.content) := by
    rintro r rfl quiet
    exact next_ (taken.withHead h quiet)
  have refused : ∀ {c : Code}, v.moveChecks i h = .refuse v c → answer c := fun e => served e taken.held
  obtain ⟨rest, rfl⟩ := taken.eq
  have own : v.head h = (s.head h).ended h := State.head_setHead_self _ _ _
  refine ⟨fun big => refused (if_pos big), fun small e => refused ?_, fun st e => ?_⟩
  · have e : v.station i = none := e
    simp only [State.moveChecks, if_neg (Nat.not_le.2 small), e]
  have small : i < 4096 := sound.store.1.2.1 _ (Table.get_eq_some_mem e)
  have e : v.station i = some st := e
  refine ⟨fun lapsed => refused ?_, fun moving => refused ?_, fun here cur idle => ⟨fun bad => refused ?_,
    fun x a on near cand acc => ?_⟩⟩
  · simp only [State.moveChecks, if_neg (Nat.not_le.2 small), e, lapsed]
  · simp only [State.moveChecks, if_neg (Nat.not_le.2 small), e, moving]
  · rw [State.moveChecks_of_idle small e cur idle]
    refine State.moveTo_range ?_
    rw [Station.candidate_eq_none, own]
    exact bad
  intro party total fits
  have on : (v.head h).state = .on := by rw [own]; exact on
  have acc : (v.head h).account = some a := by rw [own]; exact acc
  have cap : (v.head h).cap = (s.head h).cap := by rw [own]; rfl
  have same : v.committedWith h a party = total := by
    unfold State.committedWith
    rw [own]
    rfl
  have tried : v.moveChecks i h = if v.admitsStation st (h, x) then ⟨v.startHandover i st here h x .host, .started, .none⟩
      else .refuse (v.refuseRoam i) .airtime := by
    rw [State.moveChecks_of_idle small e cur idle, State.moveTo_tried on near cand]
  have admitted : v.admitsStation st (h, x) = true ↔ fits := by
    refine State.admitsHold_iff.trans (and_congr_right' ?_)
    rw [acc, cap]
    simp only [Option.some.injEq, exists_eq_left']
    rw [same]
  refine ⟨fun n => ?_, fun y => ?_⟩
  · rw [if_neg fun b => n (admitted.1 b), State.refuseRoam_eq w e] at tried
    exact served tried taken.held
  · rw [if_pos (admitted.2 y), State.startHandover_eq w e here .host acc on (by rw [cap]; exact same.trans_le y.2)] at tried
    have head := v.withHandover_head_self i st (v.newHold i st here h x .host) a
    refine ⟨_, served tried taken.held, Table.get_put_self _ _ _, fun j ne => Table.get_put_other _ _ ne, rfl,
      v.withHandover_headsKept i st (v.newHold i st here h x .host) a, ?_, rfl, rfl, .of_silent rfl rfl rfl⟩
    exact (congrArg (fun x : Head => x.account.map Account.committed) head).trans (congrArg some same)

end Sys2Proof.Machine

/-!
PROOF LAYER. Weighing: the best candidate, what a weighing at a DRAINING head can do, and HEAD-CONTROL DRAIN.
-/
namespace Sys2Proof.Machine

/-! ## The best candidate -/

theorem State.mem_keptCandidates {s : State} {st : Station} {here : HeadId} {c : HeadId × Int} :
    c ∈ s.keptCandidates st here ↔ s.Kept st here c := by
  simp [State.keptCandidates, State.Kept, and_assoc]

/-- A candidate is no worse than another: a higher score, or an equal one and no higher head number (R67). -/
def State.NoWorse (s : State) (st : Station) (c d : HeadId × Int) : Prop :=
  s.score st d.1 d.2 < s.score st c.1 c.2 ∨ s.score st d.1 d.2 = s.score st c.1 c.2 ∧ c.1.val ≤ d.1.val

theorem State.NoWorse.refl {s : State} {st : Station} (c : HeadId × Int) : s.NoWorse st c c := .inr ⟨rfl, le_refl _⟩

theorem State.NoWorse.trans {s : State} {st : Station} {b c d : HeadId × Int} (x : s.NoWorse st b c) (y : s.NoWorse st c d) :
    s.NoWorse st b d := by
  unfold State.NoWorse at x y ⊢
  omega

/-- The one kept of two candidates is one of them, and no worse than either. -/
theorem State.better_spec (s : State) (st : Station) (c d : HeadId × Int) :
    (s.better st c d = c ∨ s.better st c d = d) ∧ s.NoWorse st (s.better st c d) c ∧ s.NoWorse st (s.better st c d) d := by
  unfold State.better
  dsimp only
  split
  · next worse => exact ⟨.inr rfl, worse.imp_right (And.imp_right Nat.le_of_lt), .refl d⟩
  · next top =>
    refine ⟨.inl rfl, .refl c, ?_⟩
    rw [Fin.lt_def] at top
    unfold State.NoWorse; omega

/-- The candidate left of a list is one of the list, and no worse than any. -/
theorem State.foldl_better_spec (s : State) (st : Station) (cs : List (HeadId × Int)) (c : HeadId × Int) :
    cs.foldl (s.better st) c ∈ c :: cs ∧ ∀ d ∈ c :: cs, s.NoWorse st (cs.foldl (s.better st) c) d := by
  induction cs generalizing c with
  | nil => simpa using State.NoWorse.refl c
  | cons b cs ih =>
    obtain ⟨pick, overC, overB⟩ := s.better_spec st c b
    obtain ⟨mem, best⟩ := ih (s.better st c b)
    rw [List.foldl_cons]
    refine ⟨?_, fun d hd => ?_⟩
    · rcases List.mem_cons.1 mem with e | e
      · rw [e]; rcases pick with p | p <;> simp [p]
      · simp [e]
    · have top := best _ List.mem_cons_self
      rcases List.mem_cons.1 hd with rfl | hd
      · exact top.trans overC
      · rcases List.mem_cons.1 hd with rfl | hd
        · exact top.trans overB
        · exact best d (List.mem_cons_of_mem _ hd)

theorem State.bestCandidate_eq_none {s : State} {st : Station} {here : HeadId} (e : s.bestCandidate st here = none)
    (c : HeadId × Int) : ¬ s.Kept st here c := by
  unfold State.bestCandidate at e
  split at e
  · next empty => rw [← State.mem_keptCandidates, empty]; simp
  · cases e

theorem State.best_of_bestCandidate {s : State} {st : Station} {here : HeadId} {c : HeadId × Int}
    (e : s.bestCandidate st here = some c) : s.Best st here c := by
  unfold State.bestCandidate at e
  split at e
  · cases e
  · next b cs list =>
    obtain ⟨mem, best⟩ := s.foldl_better_spec st cs b
    rw [Option.some.inj e] at mem best
    rw [← list] at mem best
    exact ⟨State.mem_keptCandidates.1 mem, fun d kept => best d (State.mem_keptCandidates.2 kept)⟩

/-- The best candidate is one: on equal scores of one head the RSSI is the same. -/
theorem State.Best.unique {s : State} {st : Station} {here : HeadId} {c d : HeadId × Int} (x : s.Best st here c)
    (y : s.Best st here d) : c = d := by
  obtain ⟨xk, xb⟩ := x
  obtain ⟨yk, yb⟩ := y
  have one := xb d yk
  have two := yb c xk
  rw [Fin.le_def] at one two
  have head : c.1 = d.1 := Fin.ext (by omega)
  have score : s.scoreAt st c.1 c.2 = s.scoreAt st d.1 d.2 := by omega
  rw [head] at score
  simp only [State.scoreAt] at score
  exact Prod.ext head (by omega)

/-! ## A weighing at a DRAINING head -/

/-- What a weighing of a member of a DRAINING head can do (R66–R68, R83). -/
theorem State.weigh_cases {v : State} {h : HeadId} {i : Nat} {st : Station} (w : Table.wf v.stations)
    (e : v.station i = some st) (cur : st.current = some h) (draining : (v.head h).state = .draining) :
    (st.state ≠ .assoc ∧ st.state ≠ .seated ∧ v.weigh i = v)
      ∨ (st.state = .assoc ∨ st.state = .seated) ∧
        ((∀ c, ¬ v.Kept st h c) ∧ v.weigh i = v
          ∨ ∃ c, v.Best st h c ∧
            (¬ v.HoldFits c.1 ⟨st.res, st.chans, rateClass c.2⟩
                ∧ v.weigh i = v.setStation i { st with refused := min 65535 (st.refused + 1), dwell := v.now / 1000 }
              ∨ v.HoldFits c.1 ⟨st.res, st.chans, rateClass c.2⟩ ∧ ∃ a, (v.head c.1).account = some a
                ∧ v.weigh i = v.withHandover i st (v.newHold i st h c.1 c.2 .drain) a)) := by
  by_cases idle : st.state = .assoc ∨ st.state = .seated
  · refine .inr ⟨idle, ?_⟩
    have tried : v.weigh i = match v.bestCandidate st h with
        | none => v
        | some c => v.tryCandidate i st h c .drain := by
      unfold State.weigh
      rcases idle with q | q <;> simp only [e, cur, q, draining, if_true] <;> rfl
    cases best : v.bestCandidate st h with
    | none => exact .inl ⟨State.bestCandidate_eq_none best, by rw [tried, best]⟩
    | some c =>
      have top := State.best_of_bestCandidate best
      refine .inr ⟨c, top, ?_⟩
      rw [tried, best]
      simp only [State.tryCandidate]
      by_cases fits : v.admitsStation st c = true
      · have holds := State.admitsHold_iff.1 fits
        obtain ⟨room, a, acc, le⟩ := holds
        obtain ⟨⟨-, -, -, on⟩, -⟩ := top
        rw [if_pos fits]
        exact .inr ⟨⟨room, a, acc, le⟩, a, acc, State.startHandover_eq w e h .drain acc on le⟩
      · rw [if_neg fits]
        exact .inl ⟨fun n => fits (State.admitsHold_iff.2 n), State.refuseRoam_eq w e⟩
  · obtain ⟨na, ns⟩ := not_or.1 idle
    refine .inl ⟨na, ns, ?_⟩
    unfold State.weigh
    simp only [e]
    split
    · exact absurd ‹_› na
    · exact absurd ‹_› ns
    · rfl

/-- A weighing of a member of a DRAINING head is as the statement of it says. -/
theorem State.weigh_drainWeighed {v : State} {h : HeadId} {i : Nat} {st : Station} (w : Table.wf v.stations)
    (e : v.station i = some st) (cur : st.current = some h) (draining : (v.head h).state = .draining)
    (accounts : ∀ g a, (v.head g).account = some a → v.AccountTrue g a) : v.DrainWeighed (v.weigh i) h i := by
  intro st' e'
  cases e.symm.trans e'
  intro others
  obtain ⟨na, ns, same⟩ | ⟨idle, cases_⟩ := State.weigh_cases w e cur draining
  · exact ⟨fun _ _ => same, fun idle => absurd idle (not_or.2 ⟨na, ns⟩)⟩
  refine ⟨fun na ns => absurd idle (not_or.2 ⟨na, ns⟩), fun _ => ?_⟩
  obtain ⟨none_, same⟩ | ⟨c, top, ⟨full, after⟩ | ⟨fits, a, acc, after⟩⟩ := cases_
  · exact ⟨fun _ => same, fun c top => absurd top.1 (none_ c)⟩
  · refine ⟨fun none_ => absurd top.1 (none_ c), fun d top' => ?_⟩
    cases top.unique top'
    intro party
    refine ⟨fun _ => ?_, fun fits => absurd fits full⟩
    simp only [others, after]
    exact ⟨rfl, fun j ne => Table.get_put_other _ _ ne, Table.get_put_self _ _ _⟩
  · refine ⟨fun none_ => absurd top.1 (none_ c), fun d top' => ?_⟩
    cases top.unique top'
    intro party
    refine ⟨fun full => absurd fits full, fun _ => ?_⟩
    simp only [others, after]
    refine ⟨fun j ne => Table.get_put_other _ _ ne, v.withHandover_headsKept i st (v.newHold i st h c.1 c.2 .drain) a, rfl,
      Table.get_put_self _ _ _, fun b acc' => ?_⟩
    cases acc.symm.trans acc'
    exact ⟨_, congrArg Head.account (v.withHandover_head_self i st (v.newHold i st h c.1 c.2 .drain) a),
      State.withHandover_accountTrue w e (v.newHold i st h c.1 c.2 .drain) (accounts _ _ acc).noVenueShed, rfl⟩

/-! ## One member after another -/

theorem SameButAccount.state {x y : Head} (e : SameButAccount x y) : x.state = y.state := (Head.mk.inj e).1

/-- How a member that has been weighed stands against what it was. -/
def Station.DrainedFrom (h : HeadId) (base v : State) (i : Nat) : Prop :=
  v.station i = base.station i ∨ ∃ st g, base.station i = some st ∧ st.current = some h
    ∧ (st.state = .assoc ∨ st.state = .seated)
    ∧ (v.station i = some { st with refused := min 65535 (st.refused + 1), dwell := base.now / 1000 }
      ∨ (v.station i = some { st with state := .moving, target := some g } ∧ (base.head g).state = .on ∧ g ≠ h
        ∧ ∃ y ∈ v.holds, y.station = i ∧ y.source = h ∧ y.target = g ∧ y.res = st.res ∧ y.chans = st.chans
          ∧ y.origin = .drain ∧ y.due = base.now + 50000))

/-- How the weighing of a DRAINING head's members stands with some of them weighed. -/
structure State.DrainedTo (base v : State) (h : HeadId) (weighed : List Nat) : Prop where
  wf       : Table.wf v.stations
  head     : v.head h = base.head h
  heads    : ∀ g, g ≠ h → SameButAccount (base.head g) (v.head g)
  members  : v.members h = base.members h
  holdsAt  : v.holdsAt h = base.holdsAt h
  accounts : ∀ g a, (v.head g).account = some a → v.AccountTrue g a
  aside    : v.aside = base.aside
  held     : v.held = base.held
  waiting  : ∀ i, i ∉ weighed → v.station i = base.station i
  drained  : ∀ i, Station.DrainedFrom h base v i

theorem State.DrainedTo.start {base : State} {h : HeadId} (wf : Table.wf base.stations)
    (accounts : ∀ g a, (base.head g).account = some a → base.AccountTrue g a) : base.DrainedTo base h [] :=
  ⟨wf, rfl, fun _ _ => rfl, rfl, rfl, accounts, rfl, rfl, fun _ _ => rfl, fun _ => .inl rfl⟩

/-- A record written over one that stands, of the same head and the same airtime, leaves what every head owes. -/
theorem State.parties_setStation {v : State} (w : Table.wf v.stations) {i : Nat} {st x : Station} (e : v.station i = some st)
    (current : x.current = st.current) (res : x.res = st.res) (chans : x.chans = st.chans) (rate : x.rate = st.rate)
    (g : HeadId) : (v.setStation i x).parties g = v.parties g := by
  rw [State.parties_eq, State.parties_eq, State.setStation_eq_updateStation w e]
  congr 1
  refine State.memberParties_updateStation w fun st' e' => ?_
  cases e.symm.trans e'
  exact ⟨by rw [current], fun _ => ⟨res, chans, rate⟩⟩

theorem State.members_setStation {v : State} (w : Table.wf v.stations) {i : Nat} {st x : Station} (e : v.station i = some st)
    (current : x.current = st.current) (g : HeadId) : (v.setStation i x).members g = v.members g := by
  rw [State.setStation_eq_updateStation w e]
  refine State.members_updateStation w fun st' e' => ?_
  cases e.symm.trans e'
  rw [current]

theorem Station.DrainedFrom.mono {h : HeadId} {base v w : State} {i : Nat} (d : Station.DrainedFrom h base v i)
    (station : w.station i = v.station i) (holds : ∀ y ∈ v.holds, y ∈ w.holds) : Station.DrainedFrom h base w i := by
  obtain same | ⟨st, g, e, cur, idle, refused | ⟨moving, on, ne, y, mem, rest⟩⟩ := d
  · exact .inl (station.trans same)
  · exact .inr ⟨st, g, e, cur, idle, .inl (station.trans refused)⟩
  · exact .inr ⟨st, g, e, cur, idle, .inr ⟨station.trans moving, on, ne, y, holds y mem, rest⟩⟩

/-- One more member weighed. -/
theorem State.DrainedTo.step {base v : State} {h : HeadId} {weighed : List Nat} (d : base.DrainedTo v h weighed) {i : Nat}
    (draining : (base.head h).state = .draining) (mem : i ∈ base.members h) (new : i ∉ weighed) :
    base.DrainedTo (v.weigh i) h (weighed ++ [i]) ∧ v.DrainWeighed (v.weigh i) h i := by
  have draining : (v.head h).state = .draining := by rw [d.head]; exact draining
  obtain ⟨st, e, cur⟩ := (State.mem_members d.wf).1 (d.members.symm ▸ mem)
  refine ⟨?_, State.weigh_drainWeighed d.wf e cur draining d.accounts⟩
  have fewer : ∀ j, j ∉ weighed ++ [i] → j ∉ weighed := fun j n m => n (List.mem_append_left _ m)
  have other : ∀ j, j ∉ weighed ++ [i] → j ≠ i := fun j n m => n (m ▸ by simp)
  have was : base.station i = some st := (d.waiting i new).symm.trans e
  have now : v.now = base.now := State.now_of_aside d.aside
  obtain ⟨-, -, same⟩ | ⟨idle, ⟨-, same⟩ | ⟨c, top, ⟨-, after⟩ | ⟨-, a, acc, after⟩⟩⟩ := State.weigh_cases d.wf e cur draining
  · rw [same]; exact { d with waiting := fun j n => d.waiting j (fewer j n) }
  · rw [same]; exact { d with waiting := fun j n => d.waiting j (fewer j n) }
  · rw [after]
    refine ⟨Table.wf_put d.wf _ _, d.head, d.heads, (State.members_setStation d.wf e (by rfl) h).trans d.members, d.holdsAt,
      fun g b acc => (d.accounts g b acc).congr rfl (State.parties_setStation d.wf e (by rfl) (by rfl) (by rfl) (by rfl) g) rfl, d.aside, d.held,
      fun j n => (Table.get_put_other _ _ (other j n)).trans (d.waiting j (fewer j n)), fun j => ?_⟩
    by_cases ne : j = i
    · subst ne
      refine .inr ⟨st, h, was, cur, idle, .inl ?_⟩
      rw [now]
      exact Table.get_put_self _ _ _
    · exact (d.drained j).mono (Table.get_put_other _ _ ne) fun y m => m
  · rw [after]
    obtain ⟨⟨-, ne_h, -, on⟩, -⟩ := top
    have on_was : (base.head c.1).state = .on := by
      rw [← on]; exact (d.heads c.1 ne_h).state
    refine ⟨Table.wf_put d.wf _ _, (v.withHandover_head_of_ne i st _ a ne_h.symm).trans d.head, fun g ne => ?_,
      (State.members_setStation d.wf e (by rfl) h).trans d.members, ?_, fun g b acc' => ?_, d.aside, d.held,
      fun j n => (Table.get_put_other _ _ (other j n)).trans (d.waiting j (fewer j n)), fun j => ?_⟩
    · have kept := v.withHandover_headsKept i st (v.newHold i st h c.1 c.2 .drain) a g
      by_cases at_ : g = c.1
      · exact (d.heads g ne).trans (kept.1 (List.mem_singleton.2 at_))
      · rw [kept.2 fun m => at_ (List.mem_singleton.1 m)]; exact d.heads g ne
    · refine Eq.trans ?_ d.holdsAt
      have away : ¬ c.1 = h := ne_h
      simp [State.holdsAt, State.withHandover, State.newHold, away]
    · by_cases at_ : g = c.1
      · subst at_
        have acc' := (congrArg Head.account
          (v.withHandover_head_self i st (v.newHold i st h c.1 c.2 .drain) a)).symm.trans acc'
        cases acc'
        exact State.withHandover_accountTrue d.wf e _ (d.accounts _ _ acc).noVenueShed
      · have head := v.withHandover_head_of_ne i st (v.newHold i st h c.1 c.2 .drain) a at_
        rw [head] at acc'
        refine (d.accounts g b acc').congr rfl ?_ (congrArg Head.floor head)
        refine (State.parties_withMove d.wf e (v.newHold i st h c.1 c.2 .drain) g).trans ?_
        rw [if_neg fun w => at_ w.symm, List.append_nil]
    · by_cases ne : j = i
      · subst ne
        refine .inr ⟨st, c.1, was, cur, idle, .inr ⟨Table.get_put_self _ _ _, on_was, ne_h, _,
          List.mem_append_right _ (List.mem_singleton.2 rfl), rfl, rfl, rfl, rfl, rfl, rfl, ?_⟩⟩
        simp only [State.newHold, now]
      · exact (d.drained j).mono (Table.get_put_other _ _ ne) fun y m => List.mem_append_left _ m

/-- The state with the first members of a list weighed. -/
def State.weighed (base : State) (is : List Nat) (k : Nat) : State := (is.take k).foldl State.weigh base

theorem State.weighed_nil (base : State) (k : Nat) : base.weighed [] k = base := by rw [State.weighed, List.take_nil]; rfl

theorem State.weighed_succ (base : State) {is : List Nat} {k i : Nat} (e : is[k]? = some i) :
    base.weighed is (k + 1) = (base.weighed is k).weigh i := by
  simp [State.weighed, List.take_add_one, e]

theorem State.members_nodup {s : State} (w : Table.wf s.stations) (h : HeadId) : (s.members h).Nodup :=
  (List.Pairwise.sublist (List.Sublist.map _ List.filter_sublist) w).imp Nat.ne_of_lt

/-- The weighing of a DRAINING head's members, one after another. -/
theorem State.DrainedTo.all {base : State} {h : HeadId} (start : base.DrainedTo base h [])
    (draining : (base.head h).state = .draining) (k : Nat) :
    base.DrainedTo (base.weighed (base.members h) k) h ((base.members h).take k)
      ∧ ∀ i, (base.members h)[k]? = some i →
        (base.weighed (base.members h) k).DrainWeighed (base.weighed (base.members h) (k + 1)) h i := by
  have next_ : ∀ {k i}, base.DrainedTo (base.weighed (base.members h) k) h ((base.members h).take k) →
      (base.members h)[k]? = some i →
      base.DrainedTo ((base.weighed (base.members h) k).weigh i) h ((base.members h).take k ++ [i])
        ∧ (base.weighed (base.members h) k).DrainWeighed ((base.weighed (base.members h) k).weigh i) h i := by
    intro k i d e
    obtain ⟨lt, at_⟩ := List.getElem?_eq_some_iff.1 e
    refine d.step draining (List.mem_of_getElem? e) fun early => ?_
    obtain ⟨j, hj, same⟩ := List.mem_take_iff_getElem.1 early
    have := (List.Nodup.getElem_inj_iff (State.members_nodup start.wf h)).1 (same.trans at_.symm)
    omega
  have reached : base.DrainedTo (base.weighed (base.members h) k) h ((base.members h).take k) := by
    induction k with
    | zero => simpa [State.weighed] using start
    | succ k ih =>
      cases e : (base.members h)[k]? with
      | none =>
        have short := List.getElem?_eq_none_iff.1 e
        have same : (base.members h).take (k + 1) = (base.members h).take k := by
          rw [List.take_of_length_le short, List.take_of_length_le (by omega)]
        rw [State.weighed, same]
        exact ih
      | some i =>
        have step := (next_ ih e).1
        rw [← State.weighed_succ base e] at step
        rw [List.take_add_one, e]
        exact step
  refine ⟨reached, fun i e => ?_⟩
  rw [State.weighed_succ base e]
  exact (next_ reached e).2

/-! ## HEAD-CONTROL DRAIN -/

theorem State.drainCheck_of_crowd {s : State} {h : HeadId} (n : s.crowd h ≠ 0) : s.drainCheck h = s :=
  if_neg fun c => n c.2

theorem State.drainCheck_of_empty {s : State} {h : HeadId} (d : (s.head h).state = .draining) (e : s.crowd h = 0) :
    s.drainCheck h = (s.setHead h { (s.head h).closed with state := .dark }).note (.head h .drained .dark) :=
  if_pos ⟨d, e⟩

theorem State.crowd_eq_zero {s : State} {h : HeadId} : s.crowd h = 0 ↔ s.members h = [] ∧ s.holdsAt h = [] := by
  simp [State.crowd]

/-- A head recorded as DRAINING, with none of its members weighed yet (R15). -/
def State.drainStart (s : State) (h : HeadId) : State := s.setHead h { s.head h with state := .draining }

theorem State.drainStart_head_self (s : State) (h : HeadId) :
    (s.drainStart h).head h = { s.head h with state := .draining } := State.head_setHead_self _ _ _

theorem State.drainStart_head_of_ne (s : State) {h g : HeadId} (ne : g ≠ h) : (s.drainStart h).head g = s.head g :=
  State.head_setHead_of_ne _ _ ne

theorem State.endSequence_head_of_ne (s : State) {h g : HeadId} (ne : g ≠ h) : (s.endSequence h).head g = s.head g :=
  State.head_setHead_of_ne _ _ ne

theorem State.drainHead_of_on {s : State} {h : HeadId} (on : (s.head h).state = .on) :
    s.drainHead h = ⟨(State.weighed (s.drainStart h) (s.members h) (s.members h).length).drainCheck h, .ok, .none⟩ := by
  rw [State.weighed, List.take_length]
  exact if_pos on

/-- The start of a drain leaves every account true. -/
theorem State.Sound.drainedTo_start {s : State} (sound : s.Sound) (h : HeadId) :
    State.DrainedTo ((s.endSequence h).drainStart h) ((s.endSequence h).drainStart h) h [] := by
  refine .start sound.store.1.1 fun g a acc => ?_
  by_cases at_ : g = h
  · subst at_
    rw [State.drainStart_head_self, State.endSequence_head_self] at acc
    refine (sound.airtime g a acc).1.congr rfl rfl ?_
    rw [State.drainStart_head_self, State.endSequence_head_self]
    rfl
  · rw [State.drainStart_head_of_ne _ at_, State.endSequence_head_of_ne _ at_] at acc
    refine (sound.airtime g a acc).1.congr rfl rfl ?_
    rw [State.drainStart_head_of_ne _ at_, State.endSequence_head_of_ne _ at_]

/-- A head that has members or holds when it enters DRAINING still has them when all are weighed. -/
theorem State.DrainedTo.crowd_ne_zero {base v : State} {h : HeadId} {weighed : List Nat} (d : base.DrainedTo v h weighed)
    (crowded : ¬ (base.members h = [] ∧ base.holdsAt h = [])) : v.crowd h ≠ 0 := by
  intro zero
  obtain ⟨m, p⟩ := State.crowd_eq_zero.1 zero
  exact crowded ⟨d.members.symm.trans m, d.holdsAt.symm.trans p⟩

/-- HEAD-CONTROL DRAIN, once taken, gives what the drain of the head with its setup sequence ended gives. -/
theorem State.Takes.drain {s u : State} {f : Req} (taken : s.Takes 0x08 f u) {h : HeadId} {r : Served}
    (e : (u.endSequence h).drainHead h = r) :
    exec (.headControlDrain f h true) s = .next (r.state.reply 0x08 f.tag r.code r.content).flush := by
  subst e
  refine congrArg _ ((State.serve_of_taken taken.1 taken.2.1).trans ?_)
  simp only [State.withHead, headId?_val, if_true]

/-- Settles O26. -/
theorem headControlDrainsAHead : Obligations.HeadControlDrainsAHead := by
  intro s u f h sound taken ended x
  have quiet : ended.held = [] := taken.held
  have start : (ended.drainStart h).DrainedTo (ended.drainStart h) h [] := (sound.takeRequest taken.1).drainedTo_start h
  have all := start.all (by rw [State.drainStart_head_self])
  obtain ⟨rest, rfl⟩ := taken.eq
  have mid : (ended.drainStart h).DrainedTo (State.weighed (ended.drainStart h) (s.members h) (s.members h).length) h
      ((s.members h).take (s.members h).length) := (all (s.members h).length).1
  have base_other : ∀ g, g ≠ h → (ended.drainStart h).head g = s.head g := fun g ne =>
    (State.drainStart_head_of_ne _ ne).trans (State.endSequence_head_of_ne _ ne)
  have still : (State.weighed (ended.drainStart h) (s.members h) (s.members h).length).held = [] := mid.held.trans quiet
  have drained : x.state = .on → exec (.headControlDrain f h true) s =
      .next (((State.weighed (ended.drainStart h) (s.members h) (s.members h).length).drainCheck h).reply
        0x08 f.tag .ok .none).flush := fun on => taken.drain (State.drainHead_of_on on)
  have whole : x.state = .on → ¬ (s.members h = [] ∧ s.holdsAt h = []) → exec (.headControlDrain f h true) s =
      .next ((State.weighed (ended.drainStart h) (s.members h) (s.members h).length).reply 0x08 f.tag .ok .none) := by
    intro on crowded
    rw [drained on, State.drainCheck_of_crowd (mid.crowd_ne_zero crowded), State.flush_of_held_nil]
    exact still
  refine ⟨fun n => ?_, fun on none_ free => ?_, fun on crowded => ?_, fun on crowded => ?_⟩
  · refine (taken.drain (if_neg n)).trans ?_
    rw [State.flush_of_held_nil]
    · rfl
    · exact quiet
  · have after := State.drainCheck_of_empty (s := ended.drainStart h) (by rw [State.drainStart_head_self])
      (State.crowd_eq_zero.2 ⟨none_, free⟩)
    have done_ := drained on
    rw [none_, State.weighed_nil, after, State.drainStart_head_self,
      State.drainStart, State.setHead_setHead] at done_
    refine ⟨_, done_, ?_, ?_, ?_, ?_, ?_⟩
    · simp [State.reply, State.setHead, ended, State.endSequence, Head.closed]; rfl
    · simp [State.stationView, ended]; exact ⟨rfl, rfl⟩
    · simp [ended]; rfl
    · simp [ended]; rfl
    · exact .of_reply (w := State.note _ _) taken.held rfl rfl (State.note_produced (ended.setHead h _) _)
  · exact ⟨State.weighed (ended.drainStart h) (s.members h), rfl, fun k i => (all k).2 i, whole on crowded⟩
  · refine ⟨_, [], whole on crowded, mid.head.trans (State.drainStart_head_self _ _), fun i => ?_, fun g ne => ?_,
      congrArg Prod.fst (State.passView_of_aside mid.aside), congrArg (fun v => v.2.1) (State.passView_of_aside mid.aside),
      by simp, ?_⟩
    · obtain same | ⟨st, g, e, cur, idle, refused | ⟨moving, on', ne, held⟩⟩ := mid.drained i
      · exact .inl same
      · exact .inr ⟨st, g, e, cur, idle, .inl refused⟩
      · exact .inr ⟨st, g, e, cur, idle, .inr ⟨moving, by rw [← base_other g ne]; exact on', ne, held⟩⟩
    · rw [← base_other g ne]; exact mid.heads g ne
    · have silent := State.InBowl.of_reply (type := 0x08) (tag := f.tag) (code := .ok) (content := .none) taken.held
        (State.besideBowl_of_aside mid.aside) (State.discards_of_aside mid.aside) (.nil mid.held)
      rw [State.flush_of_held_nil] at silent
      · exact silent
      · exact still

end Sys2Proof.Machine

/-!
PROOF LAYER. Handovers that are aborted, one at a time and in a list: what the loss of a source and the loss of a target leave.
-/
namespace Sys2Proof.Machine

/-! ## Holds that a condition picks -/

/-- What is found in a list by a condition that one key alone meets. -/
theorem find?_eq_some_iff_of_nodup {α β : Type} {xs : List α} {key : α → β} (nodup : (xs.map key).Nodup) {p : α → Bool}
    (one : ∀ a b, p a = true → p b = true → key a = key b) {x : α} : xs.find? p = some x ↔ x ∈ xs ∧ p x = true := by
  refine ⟨fun e => ⟨List.mem_of_find?_eq_some e, List.find?_some e⟩, fun ⟨mem, px⟩ => ?_⟩
  cases e : xs.find? p with
  | none => exact absurd px (List.find?_eq_none.1 e x mem)
  | some y =>
    have same := one y x (List.find?_some e) px
    rw [List.inj_on_of_nodup_map nodup (List.mem_of_find?_eq_some e) mem same]

theorem State.holdOf_eq_some {s : State} (nodup : (s.holds.map Hold.station).Nodup) {i : Nat} {y : Hold} :
    s.holdOf i = some y ↔ y ∈ s.holds ∧ y.station = i := by
  refine (find?_eq_some_iff_of_nodup nodup fun a b ha hb => ?_).trans (by rw [beq_iff_eq])
  rw [beq_iff_eq] at ha hb
  exact ha.trans hb.symm

/-- The holds picked in one state are those picked in another with the same stations, where the holds picked are the same. -/
theorem State.holdsPicked_eq_holdsBy {s t : State} (keys : t.stations.map Prod.fst = s.stations.map Prod.fst)
    (nodup : (s.holds.map Hold.station).Nodup) (nodup' : (t.holds.map Hold.station).Nodup) {pick : Hold → Bool}
    (same : ∀ y, pick y = true → (y ∈ t.holds ↔ y ∈ s.holds)) : t.holdsPicked pick = s.holdsBy pick := by
  have by_keys : ∀ (u : State) (f : Nat → Option Hold), u.stations.filterMap (fun p => f p.1)
      = (u.stations.map Prod.fst).filterMap f := fun u f => by rw [List.filterMap_map]; rfl
  unfold State.holdsPicked State.holdsBy
  rw [by_keys t fun i => (t.holdOf i).filter pick, by_keys s fun i => s.holds.find? fun y => y.station == i && pick y, keys]
  refine List.filterMap_congr fun i _ => Option.ext fun y => ?_
  rw [find?_eq_some_iff_of_nodup nodup fun a b ha hb => ?_]
  · rw [Option.filter_eq_some_iff, State.holdOf_eq_some nodup', Bool.and_eq_true, beq_iff_eq]
    exact ⟨fun ⟨⟨mem, at_⟩, py⟩ => ⟨(same y py).1 mem, at_, py⟩, fun ⟨mem, at_, py⟩ => ⟨⟨(same y py).2 mem, at_⟩, py⟩⟩
  · simp only [Bool.and_eq_true, beq_iff_eq] at ha hb
    exact ha.1.trans hb.1.symm

theorem State.mem_holdsBy {s : State} (w : Table.wf s.stations) (nodup : (s.holds.map Hold.station).Nodup)
    {pick : Hold → Bool} {y : Hold} :
    y ∈ s.holdsBy pick ↔ y ∈ s.holds ∧ pick y = true ∧ (s.station y.station).isSome := by
  have found : ∀ i, s.holds.find? (fun y => y.station == i && pick y) = some y
      ↔ y ∈ s.holds ∧ y.station = i ∧ pick y = true := by
    intro i
    rw [find?_eq_some_iff_of_nodup nodup fun a b ha hb => ?_, Bool.and_eq_true, beq_iff_eq]
    simp only [Bool.and_eq_true, beq_iff_eq] at ha hb
    exact ha.1.trans hb.1.symm
  simp only [State.holdsBy, List.mem_filterMap, found]
  constructor
  · rintro ⟨⟨i, st⟩, mem, held, rfl, picked⟩
    exact ⟨held, picked, by rw [State.station, Table.get_of_mem w mem]; rfl⟩
  · rintro ⟨held, picked, some_⟩
    obtain ⟨st, e⟩ := Option.isSome_iff_exists.1 some_
    exact ⟨(y.station, st), Table.get_eq_some_mem e, held, rfl, picked⟩

/-- What a list's members are mapped to, where each is mapped to itself or left out, is part of the list. -/
theorem filterMap_sublist_map {α β γ : Type} (f : α → Option β) (k : α → γ) (g : β → γ) (out : ∀ a b, f a = some b → g b = k a)
    (xs : List α) : List.Sublist ((xs.filterMap f).map g) (xs.map k) := by
  induction xs with
  | nil => exact .slnil
  | cons x xs ih =>
    cases e : f x with
    | none => rw [List.filterMap_cons_none e]; exact ih.cons _
    | some y =>
      rw [List.filterMap_cons_some e, List.map_cons, List.map_cons, out x y e]
      exact ih.cons_cons _

theorem State.holdsBy_nodup {s : State} (w : Table.wf s.stations) (pick : Hold → Bool) :
    ((s.holdsBy pick).map Hold.station).Nodup := by
  refine List.Nodup.sublist (filterMap_sublist_map _ Prod.fst Hold.station (fun p y e => ?_) s.stations)
    (w.imp Nat.ne_of_lt)
  have := List.find?_some e
  simp only [Bool.and_eq_true, beq_iff_eq] at this
  exact this.1

/-! ## Notices of aborted handovers -/

theorem abortNotices_append (xs ys : List Hold) : abortNotices (xs ++ ys) = abortNotices xs ++ abortNotices ys := by
  simp [abortNotices]

theorem noticeClass_of_mem_abortNotices {xs : List Hold} {n : Notice} (mem : n ∈ abortNotices xs) : noticeClass n = .roam := by
  obtain ⟨x, -, rfl⟩ := List.mem_map.1 mem
  rfl

theorem filter_abortNotices (xs : List Hold) :
    ((abortNotices xs).filter fun n => noticeClass n == .roam) = abortNotices xs :=
  List.filter_eq_self.2 fun n mem => by rw [noticeClass_of_mem_abortNotices mem]; rfl

theorem State.noteHostEnd_produced (s : State) (x : Hold) : s.Produced (s.noteHostEnd x .aborted) (abortNotices [x]) := by
  unfold State.noteHostEnd
  split
  · next e => simpa [abortNotices, e] using s.note_produced (.roam x.station .aborted x.source x.target x.origin)
  · next e => simpa [abortNotices, e] using State.Produced.nil (s := s) rfl

section
variable (s : State) (x : Hold) (k : RoamEnd)

@[simp] theorem State.noteHostEnd_stations : (s.noteHostEnd x k).stations = s.stations := by
  unfold State.noteHostEnd; split <;> rfl

@[simp] theorem State.noteHostEnd_holds : (s.noteHostEnd x k).holds = s.holds := by
  unfold State.noteHostEnd; split <;> rfl

@[simp] theorem State.noteHostEnd_heads : (s.noteHostEnd x k).heads = s.heads := by
  unfold State.noteHostEnd; split <;> rfl

@[simp] theorem State.noteHostEnd_linkOut : (s.noteHostEnd x k).linkOut = s.linkOut := by
  unfold State.noteHostEnd; split <;> rfl

end

/-! ## Stations that lapse -/

/-- A station's record in LAPSED (R28). -/
def Station.lapsed (st : Station) (due : Nat) : Station :=
  { st with state := .lapsed, current := none, target := none, res := 0, capped := false, lapse := some due }

/-- When the lapse timer of a station that lapses now is due (R28, R60). -/
def State.lapseDue (s : State) : Nat := s.now + 1000000 * s.roam.lapse

theorem State.lapse_stations (s : State) (i : Nat) :
    (s.lapse i).stations = Table.change s.stations fun j st => if j = i then st.lapsed s.lapseDue else st := by
  have due : s.now + ms (1000 * s.roam.lapse) = s.lapseDue := by
    rw [State.lapseDue, ms, Nat.mul_right_comm]
  rw [State.lapse, due]
  exact Table.update_eq_change s.stations i fun st => st.lapsed s.lapseDue

theorem State.lapseDue_of_aside {s t : State} (e : t.aside = s.aside) : t.lapseDue = s.lapseDue := by
  rw [State.eq_of_aside e]; rfl

/-- Stations that lapse leave all else as it was. -/
theorem State.foldl_lapse (is : List Nat) (s : State) :
    is.foldl State.lapse s = { s with stations := (is.foldl State.lapse s).stations } := by
  induction is generalizing s with
  | nil => rfl
  | cons i is ih => rw [List.foldl_cons, ih]; rfl

theorem State.foldl_lapse_stations (is : List Nat) (s : State) : (is.foldl State.lapse s).stations =
    Table.change s.stations fun i st => if i ∈ is then st.lapsed s.lapseDue else st := by
  induction is generalizing s with
  | nil => simp [Table.change]
  | cons i is ih =>
    rw [List.foldl_cons, ih, State.lapse_stations, Table.change_change, State.lapseDue_of_aside (s.lapse_aside i)]
    refine congrArg (Table.change s.stations) (funext fun j => funext fun st => ?_)
    by_cases mem : j ∈ is
    · rw [if_pos mem, if_pos (List.mem_cons_of_mem _ mem)]
      split <;> rfl
    · rw [if_neg mem]
      by_cases at_ : j = i
      · rw [if_pos at_, if_pos (by simp [at_])]
      · rw [if_neg at_, if_neg (by simp [at_, mem])]

/-! ## Loss of the target -/

/-- The handovers of some holds have been aborted by the loss of their target (R77). -/
structure State.TurnedBack (base v : State) (xs : List Hold) : Prop where
  stations : v.stations = Table.change base.stations fun i st =>
    if i ∈ xs.map Hold.station then st.returned base.nowMs else st
  holds    : v.holds = base.holds.filter fun y => decide (y.station ∉ xs.map Hold.station)
  heads    : v.heads = base.heads
  linkOut  : v.linkOut = base.linkOut
  aside    : v.aside = base.aside
  produced : base.Produced v (abortNotices xs)

theorem State.abortTargetLost_turnedBack (s : State) (x : Hold) : s.TurnedBack (s.abortTargetLost x) [x] where
  stations := by
    simp only [State.abortTargetLost, State.noteHostEnd_stations, List.map_cons, List.map_nil, List.mem_singleton]
    exact Table.update_eq_change s.stations x.station fun st => st.returned s.nowMs
  holds := by
    rw [State.abortTargetLost, State.noteHostEnd_holds]
    refine List.filter_congr fun y _ => ?_
    simp [bne, beq_eq_decide]
  heads := State.noteHostEnd_heads _ _ _
  linkOut := State.noteHostEnd_linkOut _ _ _
  aside := by simp [State.abortTargetLost]
  produced := State.noteHostEnd_produced _ x

theorem State.TurnedBack.cons {base v w : State} {x : Hold} {xs : List Hold} (p : base.TurnedBack v [x])
    (q : v.TurnedBack w xs) (new : x.station ∉ xs.map Hold.station) : base.TurnedBack w (x :: xs) where
  stations := by
    have now : v.nowMs = base.nowMs := congrArg (fun n => n / 1000) (State.now_of_aside p.aside)
    rw [q.stations, p.stations, Table.change_change, now]
    refine congrArg (Table.change base.stations) (funext fun i => funext fun st => ?_)
    by_cases at_ : i = x.station
    · subst at_; simp [new]
    · simp [at_]
  holds := by
    rw [q.holds, p.holds, List.filter_filter]
    refine List.filter_congr fun y _ => ?_
    rw [List.map_cons, List.map_nil, Bool.and_comm]
    simp only [List.map_cons, List.mem_cons, List.not_mem_nil, or_false, not_or, Bool.decide_and]
  heads := q.heads.trans p.heads
  linkOut := q.linkOut.trans p.linkOut
  aside := q.aside.trans p.aside
  produced := p.produced.trans q.produced (State.enables_of_aside p.aside) |> fun r => by
    rwa [← abortNotices_append] at r

/-- The handovers of a list of holds aborted by the loss of their target, one after another (R77). -/
theorem State.foldl_abortTargetLost (xs : List Hold) (base : State) (nodup : (xs.map Hold.station).Nodup) :
    base.TurnedBack (xs.foldl State.abortTargetLost base) xs := by
  induction xs generalizing base with
  | nil =>
    refine ⟨?_, ?_, rfl, rfl, rfl, .nil rfl⟩
    · simp [Table.change]
    · simp
  | cons x xs ih =>
    rw [List.map_cons, List.nodup_cons] at nodup
    obtain ⟨new, nodup⟩ := nodup
    exact (base.abortTargetLost_turnedBack x).cons (ih _ nodup) new

section
variable (s : State) (g : HeadId)

@[simp] theorem State.drainCheck_stations : (s.drainCheck g).stations = s.stations := by
  unfold State.drainCheck; split <;> rfl

@[simp] theorem State.drainCheck_holds : (s.drainCheck g).holds = s.holds := by
  unfold State.drainCheck; split <;> rfl

@[simp] theorem State.drainCheck_linkOut : (s.drainCheck g).linkOut = s.linkOut := by
  unfold State.drainCheck; split <;> rfl

end

/-! ## A hold released -/

theorem State.HeadLeft.congr {s t u : State} {g : HeadId} (e : s.HeadLeft t g) (members : u.members g = t.members g)
    (holdsAt : u.holdsAt g = t.holdsAt g) (head : u.head g = t.head g) (parties : u.parties g = t.parties g)
    (channels : u.channels = t.channels) : s.HeadLeft u g := by
  unfold State.HeadLeft at e ⊢
  rw [members, holdsAt, head]
  split at e
  · next c => rw [if_pos c]; exact e
  · next c =>
    rw [if_neg c]
    exact ⟨e.1, fun a acc => (e.2 a acc).congr channels parties (congrArg Head.floor head)⟩

theorem State.HeadLeft.of_same {s v w : State} {g : HeadId} (e : v.HeadLeft w g)
    (same : SameButAccount (s.head g) (v.head g)) : s.HeadLeft w g := by
  have state : (v.head g).state = (s.head g).state := same.state.symm
  have dark : ({ v.head g with state := .dark, account := none } : Head) = { s.head g with state := .dark, account := none } :=
    congrArg (fun x : Head => { x with state := .dark }) same.symm
  unfold State.HeadLeft at e ⊢
  rw [state] at e
  split at e
  · next c => rw [if_pos c, ← dark]; exact e
  · next c => rw [if_neg c]; exact ⟨same.trans e.1, e.2⟩

/-- A head that still has a hold keeps everything but its account. -/
theorem State.HeadLeft.same_of_hold {s t : State} {g : HeadId} (e : s.HeadLeft t g) {y : Hold} (mem : y ∈ t.holds)
    (at_ : y.target = g) : SameButAccount (s.head g) (t.head g) := by
  have crowded : t.holdsAt g ≠ [] := List.ne_nil_of_mem (List.mem_filter.2 ⟨mem, beq_iff_eq.2 at_⟩)
  unfold State.HeadLeft at e
  rw [if_neg fun c => crowded c.2.2] at e
  exact e.1

/-- A recompute and drain check of a head, after a member or hold has left it, leave the head as R15 and R46 say. -/
theorem State.recompute_drainCheck_headLeft {s : State} {g : HeadId}
    (v : ∀ a, (s.head g).account = some a → s.NoVenueShed a) : s.HeadLeft ((s.recompute g).drainCheck g) g := by
  have same : SameButAccount (s.head g) ((s.recompute g).head g) := by
    cases acc : (s.head g).account with
    | none => rw [State.recompute_of_closed acc]; rfl
    | some a => rw [State.recompute_head_self acc]; rfl
  have crowd : (s.recompute g).crowd g = 0 ↔ s.members g = [] ∧ s.holdsAt g = [] := by
    rw [State.crowd_eq_zero, State.members, State.holdsAt, State.recompute_stations, State.recompute_holds]
    exact Iff.rfl
  have members : ((s.recompute g).drainCheck g).members g = s.members g := by simp [State.members]
  have holdsAt : ((s.recompute g).drainCheck g).holdsAt g = s.holdsAt g := by simp [State.holdsAt]
  unfold State.HeadLeft
  rw [members, holdsAt]
  by_cases fires : (s.head g).state = .draining ∧ s.members g = [] ∧ s.holdsAt g = []
  · rw [State.drainCheck_of_empty (same.state.symm.trans fires.1) (crowd.2 fires.2), if_pos fires, State.head_note,
      State.head_setHead_self]
    exact congrArg (fun x : Head => { x with state := .dark }) same.symm
  · have done_ : (s.recompute g).drainCheck g = s.recompute g :=
      if_neg fun c => fires ⟨same.state.trans c.1, crowd.1 c.2⟩
    rw [done_, if_neg fires]
    refine ⟨same, fun a after => ?_⟩
    cases acc : (s.head g).account with
    | none =>
      rw [State.recompute_of_closed acc, acc] at after
      cases after
    | some b =>
      rw [State.recompute_head_self acc] at after
      cases after
      refine (s.recomputed_true g (v b acc)).congr ?_ ?_ ?_
      · exact State.channels_of_aside (s.recompute_aside g)
      · simp [State.parties, State.holdsAt]
      · rw [State.recompute_head_self acc]

/-- The notice of a drain check that has brought a head to DARK, if it has (R15). -/
def drainNotices (s t : State) (g : HeadId) : List Notice :=
  if (s.head g).state = .draining ∧ (t.head g).state = .dark then [.head g .drained .dark] else []

theorem mem_drainNotices {s t : State} {g : HeadId} {n : Notice} :
    n ∈ drainNotices s t g ↔ n = .head g .drained .dark ∧ (s.head g).state = .draining ∧ (t.head g).state = .dark := by
  unfold drainNotices
  split
  · next c => simp [c]
  · next c => simp [c]

theorem State.drainCheck_produced (s : State) (g : HeadId) :
    s.Produced (s.drainCheck g) (drainNotices s (s.drainCheck g) g) := by
  by_cases fires : (s.head g).state = .draining ∧ s.crowd g = 0
  · obtain ⟨draining, empty⟩ := fires
    rw [State.drainCheck_of_empty draining empty]
    unfold drainNotices
    rw [if_pos ⟨draining, by rw [State.head_note, State.head_setHead_self]⟩]
    exact State.note_produced (s.setHead g _) _
  · have same : s.drainCheck g = s := if_neg fires
    rw [same]
    unfold drainNotices
    rw [if_neg fun c => by rw [c.1] at c; cases c.2]
    exact .nil rfl

theorem State.recompute_drainCheck_produced (s : State) (g : HeadId) :
    ∃ ns, (∀ n ∈ ns, noticeClass n = .airtime)
      ∧ s.Produced ((s.recompute g).drainCheck g) (ns ++ drainNotices s ((s.recompute g).drainCheck g) g) := by
  obtain ⟨ns, produced, airtime⟩ := s.recompute_produced g
  have state : ((s.recompute g).head g).state = (s.head g).state :=
    (SameButAccount.state (State.closed_of_headsView (s.recompute_headsView g) g))
  refine ⟨ns, airtime, ?_⟩
  have check := (s.recompute g).drainCheck_produced g
  rw [show drainNotices (s.recompute g) ((s.recompute g).drainCheck g) g
    = drainNotices s ((s.recompute g).drainCheck g) g by unfold drainNotices; rw [state]] at check
  exact produced.trans check (State.enables_of_aside (s.recompute_aside g))

theorem State.drainCheck_head_of_ne (s : State) {g k : HeadId} (ne : k ≠ g) : (s.drainCheck g).head k = s.head k := by
  unfold State.drainCheck
  split
  · rw [State.head_note, State.head_setHead_of_ne _ _ ne]
  · rfl

end Sys2Proof.Machine

/-!
PROOF LAYER. The loss of a head: its idle members lapse, the handovers to it are undone, those from it are aborted (R6, R16, R76,
R77).
-/
namespace Sys2Proof.Machine

/-! ## Loss of the source -/

/-- The handover of a hold has been aborted by the loss of its source, a station's record standing (R76). -/
structure State.SourceLost (v w : State) (x : Hold) (st : Station) : Prop where
  stations : w.stations = Table.change v.stations fun i st => if i = x.station then st.lapsed v.lapseDue else st
  holds    : w.holds = v.holds.filter fun y => y.station != x.station
  heads    : ∀ g, g ≠ x.target → w.head g = v.head g
  linkOut  : w.linkOut = v.linkOut ++ [(x.target, .cancel st.addr x.station)]
  aside    : w.aside = v.aside
  left     : v.HeadLeft w x.target
  told     : ∃ ns, (∀ n ∈ ns, noticeClass n = .airtime)
    ∧ v.Produced w (ns ++ drainNotices v w x.target ++ abortNotices [x])

theorem State.cancel_eq {s : State} {x : Hold} {st : Station} (e : s.station x.station = some st)
    (r : (s.head x.target).reachable = true) :
    s.cancel x = { s with linkOut := s.linkOut ++ [(x.target, .cancel st.addr x.station)] } := by
  simp only [State.cancel, e]
  exact State.send_of_reachable r _

theorem State.parties_of_change {s t : State} (w : Table.wf s.stations) {f : Nat → Station → Station}
    (e : t.stations = Table.change s.stations f) {g : HeadId} (holdsAt : t.holdsAt g = s.holdsAt g)
    (keep : ∀ i st, s.station i = some st → ((f i st).current = some g ↔ st.current = some g)
      ∧ (st.current = some g → (f i st).res = st.res ∧ (f i st).chans = st.chans ∧ (f i st).rate = st.rate)) :
    t.members g = s.members g ∧ t.parties g = s.parties g := by
  refine ⟨State.members_of_change w e fun i st at_ => (keep i st at_).1, ?_⟩
  rw [State.parties_eq, State.parties_eq, holdsAt, State.memberParties_of_change w e keep]

/-- A member of another head that lapses is no loss to a head. -/
theorem Station.lapsed_elsewhere {st : Station} {h g : HeadId} (cur : st.current = some h) (ne : g ≠ h) (due : Nat) :
    ((st.lapsed due).current = some g ↔ st.current = some g)
      ∧ (st.current = some g →
        (st.lapsed due).res = st.res ∧ (st.lapsed due).chans = st.chans ∧ (st.lapsed due).rate = st.rate) := by
  have away : st.current ≠ some g := by rw [cur]; exact fun e => ne (Option.some.inj e).symm
  exact ⟨⟨fun e => (Option.some_ne_none g e.symm).elim, fun e => absurd e away⟩, fun e => absurd e away⟩

theorem State.abortSourceLost_sourceLost {v : State} (wf : Table.wf v.stations) {x : Hold} {st : Station} {h : HeadId}
    (e : v.station x.station = some st) (cur : st.current = some h) (ne : x.target ≠ h)
    (r : (v.head x.target).reachable = true) (accounts : ∀ a, (v.head x.target).account = some a → v.NoVenueShed a) :
    v.SourceLost (v.abortSourceLost x) x st := by
  have shape : v.abortSourceLost x = ((State.drainCheck (State.recompute
      { v with
        linkOut := v.linkOut ++ [(x.target, .cancel st.addr x.station)]
        holds := v.holds.filter fun y => y.station != x.station } x.target) x.target).lapse x.station).noteHostEnd
          x .aborted := by
    rw [State.abortSourceLost, State.cancel_eq e r]
    rfl
  generalize u_eq : ({ v with
      linkOut := v.linkOut ++ [(x.target, .cancel st.addr x.station)]
      holds := v.holds.filter fun y => y.station != x.station } : State) = u at shape
  have u_heads : u.heads = v.heads := by rw [← u_eq]
  have u_stations : u.stations = v.stations := by rw [← u_eq]
  have u_aside : u.aside = v.aside := by rw [← u_eq]; rfl
  have u_held : u.held = v.held := by rw [← u_eq]
  have heads : ∀ g, u.head g = v.head g := State.head_congr u_heads
  generalize k_eq : (u.recompute x.target).drainCheck x.target = k at shape
  have k_aside : k.aside = v.aside := by rw [← k_eq]; simpa using u_aside
  have k_stations : k.stations = v.stations := by rw [← k_eq]; simpa using u_stations
  have w_heads : (v.abortSourceLost x).heads = k.heads := by rw [shape]; simp; rfl
  have w_head : ∀ g, (v.abortSourceLost x).head g = k.head g := State.head_congr w_heads
  have w_stations : (v.abortSourceLost x).stations = Table.change v.stations fun i st =>
      if i = x.station then st.lapsed v.lapseDue else st := by
    rw [shape, State.noteHostEnd_stations, State.lapse_stations, k_stations, State.lapseDue_of_aside k_aside]
  have w_holds : (v.abortSourceLost x).holds = k.holds := by rw [shape]; simp; rfl
  have w_aside : (v.abortSourceLost x).aside = v.aside := by rw [shape]; simpa using k_aside
  have owed := State.parties_of_change (s := k) (t := v.abortSourceLost x) (g := x.target) (by rw [k_stations]; exact wf)
    (by rw [k_stations]; exact w_stations) (by rw [State.holdsAt, w_holds]; rfl) fun i st' at_ => by
      split
      · next same =>
        subst same
        have : st' = st := Option.some.inj (at_.symm.trans ((congrArg (Table.get · x.station) k_stations).trans e))
        rw [this]
        exact Station.lapsed_elsewhere cur ne _
      · exact ⟨Iff.rfl, fun _ => ⟨rfl, rfl, rfl⟩⟩
  refine ⟨w_stations, ?_, fun g other => ?_, ?_, w_aside, ?_, ?_⟩
  · rw [w_holds, ← k_eq, ← u_eq]
    simp
  · rw [w_head, ← k_eq, State.drainCheck_head_of_ne _ other, State.recompute_head_of_ne _ other, heads]
  · rw [shape, State.noteHostEnd_linkOut]
    show k.linkOut = _
    rw [← k_eq, ← u_eq]
    simp
  · have left := State.recompute_drainCheck_headLeft (s := u) (g := x.target) fun a acc => by
      rw [heads] at acc
      have := accounts a acc
      rw [← u_eq]
      exact this
    rw [k_eq] at left
    refine State.HeadLeft.of_same ?_ (by rw [heads]; rfl)
    exact left.congr owed.1 (by rw [State.holdsAt, w_holds]; rfl) (w_head _) owed.2
      ((State.channels_of_aside w_aside).trans (State.channels_of_aside k_aside).symm)
  · obtain ⟨ns, airtime, produced⟩ := u.recompute_drainCheck_produced x.target
    rw [k_eq] at produced
    have same : drainNotices u k x.target = drainNotices v (v.abortSourceLost x) x.target := by
      unfold drainNotices; rw [heads, w_head]
    rw [same] at produced
    refine ⟨ns, airtime, State.Produced.trans (t := k) ?_ ?_ (State.enables_of_aside k_aside)⟩
    · rw [← u_eq] at produced
      exact produced
    · rw [shape]
      exact State.noteHostEnd_produced (k.lapse x.station) x

/-- What is told of handovers aborted by the loss of their source: their ends, what the recomputes shed, and the targets that have
drained (R15, R47, R76, R82). -/
def AbortTold (base v : State) (xs : List Hold) (ns : List Notice) : Prop :=
  (ns.filter fun n => noticeClass n == .roam) = abortNotices xs
    ∧ (∀ g, Notice.head g .drained .dark ∈ ns
      ↔ (∃ x ∈ xs, x.target = g) ∧ (base.head g).state = .draining ∧ (v.head g).state = .dark)
    ∧ ∀ n ∈ ns, noticeClass n = .roam ∨ noticeClass n = .airtime ∨ ∃ g, n = .head g .drained .dark

/-- The handovers of some holds from a head have been aborted by its loss (R76). -/
structure State.AbortedTo (base v : State) (h : HeadId) (xs : List Hold) : Prop where
  stations  : v.stations = Table.change base.stations fun i st =>
    if i ∈ xs.map Hold.station then st.lapsed base.lapseDue else st
  holds     : v.holds = base.holds.filter fun y => decide (y.station ∉ xs.map Hold.station)
  aside     : v.aside = base.aside
  accounts  : ∀ g, g ≠ h → ∀ a, (v.head g).account = some a → v.AccountTrue g a
  away      : ∀ x ∈ xs, x.target ≠ h
  touched   : ∀ x ∈ xs, base.HeadLeft v x.target
  untouched : ∀ g, (∀ x ∈ xs, x.target ≠ g) → v.head g = base.head g
  linkOut   : v.linkOut = base.linkOut ++ xs.filterMap fun y =>
    (base.station y.station).map fun st => (y.target, .cancel st.addr y.station)
  told      : ∃ ns, base.Produced v ns ∧ AbortTold base v xs ns

theorem State.AbortedTo.start {base : State} {h : HeadId}
    (accounts : ∀ g, g ≠ h → ∀ a, (base.head g).account = some a → base.AccountTrue g a) : base.AbortedTo base h [] where
  stations := by simp [Table.change]
  holds := by simp
  aside := rfl
  accounts := accounts
  away := by simp
  touched := by simp
  untouched := fun _ _ => rfl
  linkOut := by simp
  told := ⟨[], .nil rfl, rfl, by simp, by simp⟩

/-- A hold whose handover is not yet aborted keeps its target's record but for the account. -/
theorem State.AbortedTo.same_of_hold {base v : State} {h : HeadId} {xs : List Hold} (d : base.AbortedTo v h xs) {x : Hold}
    (mem : x ∈ v.holds) : SameButAccount (base.head x.target) (v.head x.target) := by
  by_cases already : ∃ y ∈ xs, y.target = x.target
  · obtain ⟨y, hy, same⟩ := already
    exact (same ▸ d.touched y hy).same_of_hold mem rfl
  · rw [d.untouched x.target fun y hy same => already ⟨y, hy, same⟩]
    rfl

/-- The hold list of a head from which no hold leaves. -/
theorem State.SourceLost.holdsAt {v w : State} {x : Hold} {st : Station} (l : v.SourceLost w x st) (mem : x ∈ v.holds)
    (nodup : (v.holds.map Hold.station).Nodup) {g : HeadId} (ne : g ≠ x.target) : w.holdsAt g = v.holdsAt g := by
  rw [State.holdsAt, l.holds, List.filter_filter]
  refine List.filter_congr fun y hy => ?_
  by_cases at_ : y.target = g
  · have other : y.station ≠ x.station := fun same =>
      ne (at_.symm.trans (congrArg Hold.target (List.inj_on_of_nodup_map nodup hy mem same)))
    simp [at_, other]
  · simp [at_]

/-- The notices of one more handover aborted. -/
theorem AbortTold.step {base v w : State} {xs : List Hold} {ns rs : List Notice} (t : AbortTold base v xs ns) {x : Hold}
    (airtime : ∀ n ∈ rs, noticeClass n = .airtime) (same : SameButAccount (base.head x.target) (v.head x.target))
    (others : ∀ g, g ≠ x.target → w.head g = v.head g) :
    AbortTold base w (xs ++ [x]) (ns ++ (rs ++ drainNotices v w x.target ++ abortNotices [x])) := by
  obtain ⟨roam, drained, kinds⟩ := t
  have no_roam : ∀ n ∈ rs ++ drainNotices v w x.target, noticeClass n ≠ .roam := by
    intro n mem
    rcases List.mem_append.1 mem with m | m
    · rw [airtime n m]; exact NoticeClass.noConfusion
    · rw [(mem_drainNotices.1 m).1]; exact NoticeClass.noConfusion
  refine ⟨?_, fun g => ?_, fun n mem => ?_⟩
  · have none_ : ((rs ++ drainNotices v w x.target).filter fun n => noticeClass n == .roam) = [] :=
      List.filter_eq_nil_iff.2 fun n mem => by simpa using no_roam n mem
    rw [List.filter_append, roam, List.filter_append, none_, filter_abortNotices, List.nil_append, abortNotices_append]
  · have not_airtime : Notice.head g .drained .dark ∉ rs := fun m => by cases airtime _ m
    have not_end : Notice.head g .drained .dark ∉ abortNotices [x] := fun m => by cases noticeClass_of_mem_abortNotices m
    simp only [List.mem_append, not_airtime, not_end, drained, mem_drainNotices, false_or, or_false, List.mem_singleton,
      Notice.head.injEq, and_true]
    by_cases at_ : g = x.target
    · subst at_
      have state : (v.head x.target).state = (base.head x.target).state := same.state.symm
      rw [state]
      constructor
      · rintro (⟨-, c, d⟩ | ⟨-, c⟩)
        · cases c.symm.trans d
        · exact ⟨⟨x, .inr rfl, rfl⟩, c⟩
      · exact fun c => .inr ⟨rfl, c.2⟩
    · rw [others g at_]
      simp only [at_, false_and, or_false]
      refine and_congr_left fun _ => ⟨fun ⟨y, hy, e⟩ => ⟨y, .inl hy, e⟩, ?_⟩
      rintro ⟨y, hy | rfl, e⟩
      · exact ⟨y, hy, e⟩
      · exact absurd e.symm at_
  · rcases List.mem_append.1 mem with m | m
    · exact kinds n m
    rcases List.mem_append.1 m with m | m
    · rcases List.mem_append.1 m with m | m
      · exact .inr (.inl (airtime n m))
      · exact .inr (.inr ⟨x.target, (mem_drainNotices.1 m).1⟩)
    · exact .inl (noticeClass_of_mem_abortNotices m)

/-- One more handover aborted by the loss of its source. -/
theorem State.AbortedTo.step {base v : State} {h : HeadId} {xs : List Hold} (d : base.AbortedTo v h xs)
    (wf : Table.wf base.stations) (nodup : (base.holds.map Hold.station).Nodup) {x : Hold} (mem : x ∈ base.holds)
    (new : x.station ∉ xs.map Hold.station) (away : x.target ≠ h) (r : (base.head x.target).reachable = true)
    {st : Station} (e : base.station x.station = some st) (cur : st.current = some h) :
    base.AbortedTo (v.abortSourceLost x) h (xs ++ [x]) := by
  have v_wf : Table.wf v.stations := by rw [d.stations]; exact Table.wf_change wf _
  have v_mem : x ∈ v.holds := by
    rw [d.holds]; exact List.mem_filter.2 ⟨mem, decide_eq_true new⟩
  have v_nodup : (v.holds.map Hold.station).Nodup := by
    rw [d.holds]; exact nodup.sublist (List.Sublist.map _ List.filter_sublist)
  have same := d.same_of_hold v_mem
  have v_e : v.station x.station = some st := by
    rw [State.station, d.stations, Table.get_change, show Table.get base.stations x.station = some st from e, Option.map_some, if_neg new]
  have l := State.abortSourceLost_sourceLost v_wf v_e cur away
    (by rw [Head.reachable, ← same.state]; exact r) fun a acc => (d.accounts _ away a acc).noVenueShed
  have still : ∀ g, g ≠ x.target → g ≠ h → (v.abortSourceLost x).holdsAt g = v.holdsAt g
      ∧ (v.abortSourceLost x).members g = v.members g ∧ (v.abortSourceLost x).parties g = v.parties g := by
    intro g ne other
    refine ⟨l.holdsAt v_mem v_nodup ne, State.parties_of_change v_wf l.stations (l.holdsAt v_mem v_nodup ne) fun i st' at_ => ?_⟩
    split
    · next s_eq =>
      subst s_eq
      cases v_e.symm.trans at_
      exact Station.lapsed_elsewhere cur other _
    · exact ⟨Iff.rfl, fun _ => ⟨rfl, rfl, rfl⟩⟩
  have channels := State.channels_of_aside l.aside
  refine ⟨?_, ?_, l.aside.trans d.aside, fun g other a acc => ?_, fun y hy => ?_, fun y hy => ?_, fun g none_ => ?_, ?_, ?_⟩
  · rw [l.stations, d.stations, Table.change_change, State.lapseDue_of_aside d.aside]
    refine congrArg (Table.change base.stations) (funext fun i => funext fun st => ?_)
    by_cases at_ : i = x.station
    · rw [if_pos at_, if_neg (at_ ▸ new), if_pos (by simp [at_])]
    · simp [at_]
  · rw [l.holds, d.holds, List.filter_filter]
    refine List.filter_congr fun y _ => ?_
    simp only [List.map_append, List.map_cons, List.map_nil, List.mem_append, List.mem_singleton, not_or, Bool.decide_and, bne,
      beq_eq_decide, Bool.and_comm, decide_not]
  · by_cases at_ : g = x.target
    · subst at_
      have left := l.left
      unfold State.HeadLeft at left
      split at left
      · rw [left] at acc; cases acc
      · exact left.2 a acc
    · obtain ⟨-, -, parties⟩ := still g at_ other
      rw [l.heads g at_] at acc
      exact (d.accounts g other a acc).congr channels parties (congrArg Head.floor (l.heads g at_))
  · rcases List.mem_append.1 hy with hy | hy
    · exact d.away y hy
    · rw [List.mem_singleton.1 hy]; exact away
  · by_cases at_ : y.target = x.target
    · rw [at_]; exact l.left.of_same same
    · rcases List.mem_append.1 hy with hy | hy
      · obtain ⟨holdsAt, members, parties⟩ := still y.target at_ (d.away y hy)
        exact (d.touched y hy).congr members holdsAt (l.heads _ at_) parties channels
      · exact absurd (congrArg Hold.target (List.mem_singleton.1 hy)) at_
  · have ne : g ≠ x.target := fun at_ => none_ x (List.mem_append_right _ (List.mem_singleton.2 rfl)) at_.symm
    rw [l.heads g ne]
    exact d.untouched g fun y hy => none_ y (List.mem_append_left _ hy)
  · rw [l.linkOut, d.linkOut, List.filterMap_append, List.append_assoc]
    simp [e]
  · obtain ⟨ns, produced, told⟩ := d.told
    obtain ⟨rs, airtime, more⟩ := l.told
    exact ⟨_, produced.trans more (State.enables_of_aside d.aside), told.step airtime same l.heads⟩

/-- The handovers of a list of holds from a head aborted by its loss, one after another (R76). -/
theorem State.foldl_abortSourceLost {base : State} {h : HeadId} (wf : Table.wf base.stations)
    (nodup : (base.holds.map Hold.station).Nodup) (xs : List Hold) (done_ : List Hold) (v : State)
    (d : base.AbortedTo v h done_) (distinct : ((done_ ++ xs).map Hold.station).Nodup)
    (each : ∀ x ∈ xs, x ∈ base.holds ∧ x.target ≠ h ∧ (base.head x.target).reachable = true
      ∧ ∃ st, base.station x.station = some st ∧ st.current = some h) :
    base.AbortedTo (xs.foldl State.abortSourceLost v) h (done_ ++ xs) := by
  induction xs generalizing done_ v with
  | nil => simpa using d
  | cons x xs ih =>
    obtain ⟨mem, away, r, st, e, cur⟩ := each x List.mem_cons_self
    have new : x.station ∉ done_.map Hold.station := by
      rw [List.map_append, List.nodup_append] at distinct
      exact fun m => distinct.2.2 _ m _ (by simp) rfl
    have step := d.step wf nodup mem new away r e cur
    have rest := ih (done_ ++ [x]) _ step (by simpa using distinct) fun y hy => each y (List.mem_cons_of_mem _ hy)
    simpa using rest

end Sys2Proof.Machine

/-!
PROOF LAYER. A head that faults or is stopped: the whole of what its loss leaves (R6, R16).
-/
namespace Sys2Proof.Machine

/-! ## What a head may be lost from -/

/-- What the loss of a head starts from: stations, holds and the other heads stand as they should, and the head is recorded as no
longer serving. -/
structure State.Losable (v : State) (h : HeadId) : Prop where
  wf       : Table.wf v.stations
  nodup    : (v.holds.map Hold.station).Nodup
  holds    : ∀ y ∈ v.holds, y.source ≠ y.target ∧ (y.target ≠ h → (v.head y.target).reachable = true)
    ∧ ∃ st, v.station y.station = some st ∧ st.current = some y.source ∧ st.target = some y.target
  moving   : ∀ i st, v.station i = some st → st.target.isSome = true → ∃ y ∈ v.holds, y.station = i
  accounts : ∀ g, g ≠ h → ∀ a, (v.head g).account = some a → v.AccountTrue g a
  recorded : (v.head h).state ≠ .draining

/-- A sound state as a command that loses a head leaves it before the work: the time, the inbound queue and the head's record may
have changed. -/
def State.beforeLoss (s : State) (now : Nat) (rest : List InFrame) (h : HeadId) (y : Head) : State :=
  ({ s with now := now, inbound := rest } : State).setHead h y

theorem State.beforeLoss_head_self (s : State) (now : Nat) (rest : List InFrame) (h : HeadId) (y : Head) :
    (s.beforeLoss now rest h y).head h = y := State.head_setHead_self _ _ _

theorem State.beforeLoss_head_of_ne (s : State) (now : Nat) (rest : List InFrame) {h g : HeadId} (y : Head) (ne : g ≠ h) :
    (s.beforeLoss now rest h y).head g = s.head g := State.head_setHead_of_ne _ _ ne

theorem Head.reachable_of_serving {x : Head} (e : x.serving = true) : x.reachable = true := by
  cases q : x.state <;> simp_all [Head.serving, Head.reachable]

theorem State.Sound.losable {s : State} (sound : s.Sound) (now : Nat) (rest : List InFrame) (h : HeadId) {y : Head}
    (n : y.state ≠ .draining) : (s.beforeLoss now rest h y).Losable h := by
  obtain ⟨stations, holds, nodup, moving, -⟩ := sound.moves
  refine ⟨sound.store.1.1, nodup, fun x mem => ?_, fun i st e target => ?_, fun g ne a acc => ?_, ?_⟩
  · obtain ⟨ne, serving, st, e, -, cur, target, -⟩ := holds x mem
    refine ⟨ne, fun away => ?_, st, e, cur, target⟩
    rw [State.beforeLoss_head_of_ne _ _ _ _ away]
    exact Head.reachable_of_serving serving
  · obtain ⟨-, m, -⟩ := stations i st e
    exact moving i st e (m.1 target)
  · rw [State.beforeLoss_head_of_ne _ _ _ _ ne] at acc
    exact (sound.airtime g a acc).1.congr rfl rfl (congrArg Head.floor (State.beforeLoss_head_of_ne _ _ _ _ ne))
  · rw [State.beforeLoss_head_self]
    exact n

/-! ## Stations after the loss -/

/-- A station's record after the loss of a head: its members lapse, and those on their way to it are back at their sources (R28,
R76, R77). -/
def Station.afterLoss (s : State) (h : HeadId) (st : Station) : Station :=
  if st.current = some h then st.lapsed s.lapseDue
  else if st.target = some h then st.returned s.nowMs
  else st

/-- A head has been lost (R6, R16). -/
structure State.HeadLost (s t : State) (h : HeadId) : Prop where
  head    : t.head h = (s.head h).closed
  station : ∀ i, t.station i = (s.station i).map (Station.afterLoss s h)
  holds   : t.holds = s.holds.filter fun y => y.source != h && y.target != h
  left    : ∀ g, g ≠ h → (∃ y ∈ s.holds, y.source = h ∧ y.target = g) → s.HeadLeft t g
  others  : ∀ g, g ≠ h → (¬ ∃ y ∈ s.holds, y.source = h ∧ y.target = g) → t.head g = s.head g
  linkOut : t.linkOut = s.linkOut ++ (s.holdsBy fun y => y.source == h).filterMap fun y =>
    (s.station y.station).map fun st => (y.target, .cancel st.addr y.station)
  aside   : t.aside = s.aside
  told    : ∃ ns, s.Produced t ns
    ∧ (ns.filter fun n => noticeClass n == .roam)
      = abortNotices ((s.holdsBy fun y => y.target == h) ++ s.holdsBy fun y => y.source == h)
    ∧ (∀ g, Notice.head g .drained .dark ∈ ns
      ↔ (∃ y ∈ s.holds, y.source = h ∧ y.target = g) ∧ (s.head g).state = .draining ∧ (t.head g).state = .dark)
    ∧ ∀ n ∈ ns, noticeClass n = .roam ∨ noticeClass n = .airtime ∨ ∃ g, n = .head g .drained .dark

/-- The holds picked are all that the condition holds of. -/
theorem State.Losable.mem_holdsBy {v : State} {h : HeadId} (l : v.Losable h) {pick : Hold → Bool} {y : Hold} :
    y ∈ v.holdsBy pick ↔ y ∈ v.holds ∧ pick y = true := by
  rw [State.mem_holdsBy l.wf l.nodup]
  refine and_congr_right fun mem => and_iff_left ?_
  obtain ⟨-, -, st, e, -⟩ := l.holds y mem
  rw [e]; rfl

/-- The stations of the holds picked are those of no other hold. -/
theorem State.Losable.mem_stations {v : State} {h : HeadId} (l : v.Losable h) {pick : Hold → Bool} {y : Hold}
    (mem : y ∈ v.holds) : y.station ∈ (v.holdsBy pick).map Hold.station ↔ pick y = true := by
  rw [List.mem_map]
  constructor
  · rintro ⟨z, hz, same⟩
    obtain ⟨held, picked⟩ := l.mem_holdsBy.1 hz
    rwa [← List.inj_on_of_nodup_map l.nodup held mem same]
  · exact fun picked => ⟨y, l.mem_holdsBy.2 ⟨mem, picked⟩, rfl⟩

/-- Which stations the three steps of a loss take: those at the head with no handover, those on their way to it, and those on
their way from it. -/
theorem State.Losable.station_cases {v : State} {h : HeadId} (l : v.Losable h) {i : Nat} {st : Station}
    (e : v.station i = some st) :
    (i ∈ (v.members h).filter (fun i => (v.holdOf i).isNone) ↔ st.current = some h ∧ st.target = none)
      ∧ (i ∈ (v.holdsBy fun y => y.target == h).map Hold.station ↔ st.target = some h)
      ∧ (i ∈ (v.holdsBy fun y => y.source == h).map Hold.station ↔ st.current = some h ∧ st.target ≠ none) := by
  have member : i ∈ v.members h ↔ st.current = some h := by
    rw [State.mem_members l.wf, e]
    simp
  cases target : st.target with
  | none =>
    have free : ∀ y ∈ v.holds, y.station ≠ i := by
      rintro y mem rfl
      obtain ⟨-, -, st', e', -, t'⟩ := l.holds y mem
      cases e.symm.trans e'
      rw [target] at t'; cases t'
    have no_hold : v.holdOf i = none := List.find?_eq_none.2 fun y mem => by simpa using free y mem
    have none_ : ∀ pick, i ∉ (v.holdsBy pick).map Hold.station := by
      intro pick m
      obtain ⟨y, hy, at_⟩ := List.mem_map.1 m
      exact free y (l.mem_holdsBy.1 hy).1 at_
    refine ⟨?_, iff_of_false (none_ _) (by simp), iff_of_false (none_ _) (by simp)⟩
    rw [List.mem_filter, member, no_hold]
    simp
  | some g =>
    obtain ⟨y, mem, rfl⟩ := l.moving i st e (by rw [target]; rfl)
    obtain ⟨-, -, st', e', cur, t'⟩ := l.holds y mem
    cases e.symm.trans e'
    cases target.symm.trans t'
    have held : v.holdOf y.station = some y := (State.holdOf_eq_some l.nodup).2 ⟨mem, rfl⟩
    refine ⟨?_, ?_, ?_⟩
    · rw [List.mem_filter, held]
      simp
    · rw [l.mem_stations mem, beq_iff_eq, Option.some.injEq]
    · rw [l.mem_stations mem, beq_iff_eq, cur, Option.some.injEq]
      simp

/-! ## The three steps -/

/-- The state once the idle members have lapsed and the handovers to the head are undone. -/
structure State.TurnedAway (v w : State) (h : HeadId) : Prop where
  stations : w.stations = Table.change v.stations fun i st =>
    if i ∈ (v.holdsBy fun y => y.target == h).map Hold.station then
      (if i ∈ (v.members h).filter (fun i => (v.holdOf i).isNone) then st.lapsed v.lapseDue else st).returned v.nowMs
    else if i ∈ (v.members h).filter (fun i => (v.holdOf i).isNone) then st.lapsed v.lapseDue else st
  holds    : w.holds = v.holds.filter fun y => y.target != h
  heads    : w.heads = v.heads
  linkOut  : w.linkOut = v.linkOut
  aside    : w.aside = v.aside
  produced : v.Produced w (abortNotices (v.holdsBy fun y => y.target == h))

theorem State.Losable.turnedAway {v : State} {h : HeadId} (l : v.Losable h) :
    v.TurnedAway (((v.loseIdleMembers h).holdsPicked fun x => x.target == h).foldl State.abortTargetLost
      (v.loseIdleMembers h)) h := by
  have idle : v.loseIdleMembers h = { v with stations := (v.loseIdleMembers h).stations } := State.foldl_lapse _ v
  have idle_stations : (v.loseIdleMembers h).stations = _ := State.foldl_lapse_stations _ v
  generalize u_eq : v.loseIdleMembers h = u at idle idle_stations
  have u_holds : u.holds = v.holds := by rw [idle]
  have u_aside : u.aside = v.aside := by rw [idle]; rfl
  have now : u.nowMs = v.nowMs := by rw [idle]; rfl
  have picked : (u.holdsPicked fun x => x.target == h) = v.holdsBy fun x => x.target == h :=
    State.holdsPicked_eq_holdsBy (by rw [idle_stations]; exact Table.keys_change _ _) l.nodup (by rw [u_holds]; exact l.nodup)
      fun y _ => by rw [u_holds]
  rw [picked]
  have back := State.foldl_abortTargetLost (v.holdsBy fun x => x.target == h) u (State.holdsBy_nodup l.wf _)
  refine ⟨?_, ?_, back.heads.trans (by rw [idle]), back.linkOut.trans (by rw [idle]), back.aside.trans u_aside, ?_⟩
  · rw [back.stations, idle_stations, Table.change_change, now]
  · rw [back.holds, u_holds]
    refine List.filter_congr fun y mem => ?_
    rw [Bool.eq_iff_iff, decide_eq_true_eq, l.mem_stations mem, beq_iff_eq, bne_iff_ne]
  · exact (State.Produced.nil (s := v) (by rw [idle])).trans back.produced (State.enables_of_aside u_aside)

/-- The handovers to the head undone keep every other head's account true. -/
theorem State.TurnedAway.accounts {v w : State} {h : HeadId} (d : v.TurnedAway w h) (l : v.Losable h) (g : HeadId) (ne : g ≠ h)
    (a : Account) (acc : (w.head g).account = some a) : w.AccountTrue g a := by
  have head : w.head g = v.head g := State.head_congr d.heads g
  have holdsAt : w.holdsAt g = v.holdsAt g := by
    rw [State.holdsAt, d.holds, List.filter_filter]
    refine List.filter_congr fun y _ => ?_
    by_cases at_ : y.target = g
    · simp [at_, ne]
    · simp [at_]
  rw [head] at acc
  refine (l.accounts g ne a acc).congr (State.channels_of_aside d.aside) (State.parties_of_change l.wf d.stations holdsAt
    fun i st e => ?_).2 (congrArg Head.floor head)
  have gone : i ∈ (v.members h).filter (fun i => (v.holdOf i).isNone) → st.current = some h := fun m =>
    ((l.station_cases e).1.1 m).1
  split <;> split
  · next m => exact Station.lapsed_elsewhere (gone m) ne v.lapseDue
  · exact ⟨Iff.rfl, fun _ => ⟨rfl, rfl, rfl⟩⟩
  · next m => exact Station.lapsed_elsewhere (gone m) ne v.lapseDue
  · exact ⟨Iff.rfl, fun _ => ⟨rfl, rfl, rfl⟩⟩

/-- The station of a hold from the head is as it was when the handovers from the head are aborted. -/
theorem State.TurnedAway.station_of_departing {v w : State} {h : HeadId} (d : v.TurnedAway w h) (l : v.Losable h) {y : Hold}
    (mem : y ∈ v.holds) (source : y.source = h) :
    w.station y.station = v.station y.station ∧ ∃ st, v.station y.station = some st ∧ st.current = some h := by
  obtain ⟨ne, -, st, e, cur, target⟩ := l.holds y mem
  obtain ⟨idle, arriving, -⟩ := l.station_cases e
  have no_idle := mt idle.1 (by simp [target])
  have no_arriving := mt arriving.1 (by rw [target]; exact fun same => ne (source.trans (Option.some.inj same).symm))
  refine ⟨?_, st, e, cur.trans (congrArg some source)⟩
  rw [State.station, d.stations, Table.get_change, show Table.get v.stations y.station = some st from e, Option.map_some,
    if_neg no_arriving, if_neg no_idle]
  exact e.symm

/-- The loss of a head, in full. -/
theorem State.Losable.headLost {v : State} {h : HeadId} (l : v.Losable h) : v.HeadLost (v.loseHead h) h := by
  have own := State.loseHead_head_self v l.recorded
  unfold State.loseHead at own ⊢
  dsimp only at own ⊢
  have away := l.turnedAway
  generalize ((v.loseIdleMembers h).holdsPicked fun x => x.target == h).foldl State.abortTargetLost
    (v.loseIdleMembers h) = w at away own ⊢
  have w_wf : Table.wf w.stations := by rw [away.stations]; exact Table.wf_change l.wf _
  have w_nodup : (w.holds.map Hold.station).Nodup := by
    rw [away.holds]; exact l.nodup.sublist (List.Sublist.map _ List.filter_sublist)
  have still : ∀ y, (y.source == h) = true → (y ∈ w.holds ↔ y ∈ v.holds) := by
    intro y source
    rw [away.holds, List.mem_filter, bne_iff_ne]
    refine and_iff_left_of_imp fun mem => ?_
    obtain ⟨ne, -⟩ := l.holds y mem
    exact fun at_ => ne ((beq_iff_eq.1 source).trans at_.symm)
  have picked : (w.holdsPicked fun x => x.source == h) = v.holdsBy fun x => x.source == h :=
    State.holdsPicked_eq_holdsBy (by rw [away.stations]; exact Table.keys_change _ _) l.nodup w_nodup still
  rw [picked] at own ⊢
  have heads : ∀ g, w.head g = v.head g := State.head_congr away.heads
  have due : w.lapseDue = v.lapseDue := State.lapseDue_of_aside away.aside
  have lost := State.foldl_abortSourceLost w_wf w_nodup (v.holdsBy fun x => x.source == h) [] w
    (.start (away.accounts l)) (State.holdsBy_nodup l.wf _) fun y hy => by
      obtain ⟨mem, source⟩ := l.mem_holdsBy.1 hy
      obtain ⟨ne, reachable, -⟩ := l.holds y mem
      obtain ⟨same, st, e, cur⟩ := away.station_of_departing l mem (beq_iff_eq.1 source)
      have elsewhere : y.target ≠ h := fun at_ => ne ((beq_iff_eq.1 source).trans at_.symm)
      exact ⟨(still y source).2 mem, elsewhere, by rw [heads]; exact reachable elsewhere, st, same.trans e, cur⟩
  rw [List.nil_append] at lost
  generalize (v.holdsBy fun x => x.source == h).foldl State.abortSourceLost w = z at lost own ⊢
  have left_iff : ∀ g, (∃ y ∈ v.holdsBy (fun x => x.source == h), y.target = g) ↔ ∃ y ∈ v.holds, y.source = h ∧ y.target = g := by
    intro g
    simp only [l.mem_holdsBy, beq_iff_eq, and_assoc]
  have other : ∀ g, g ≠ h → (z.setHead h (z.head h).closed).head g = z.head g := fun g ne => State.head_setHead_of_ne _ _ ne
  refine ⟨own, fun i => ?_, ?_, fun g ne c => ?_, fun g ne c => ?_, ?_, lost.aside.trans away.aside, ?_⟩
  · show Table.get z.stations i = _
    rw [lost.stations, away.stations, Table.change_change, Table.get_change]
    cases e : v.station i with
    | none => rw [show Table.get v.stations i = none from e]; rfl
    | some st =>
      rw [show Table.get v.stations i = some st from e, Option.map_some, Option.map_some, due]
      obtain ⟨idle, arriving, departing⟩ := l.station_cases e
      simp only [idle, arriving, departing, Station.afterLoss]
      by_cases cur : st.current = some h
      · have apart : st.target ≠ some h := by
          intro target
          obtain ⟨y, mem, rfl⟩ := l.moving i st e (by rw [target]; rfl)
          obtain ⟨ne, -, st', e', cur', target'⟩ := l.holds y mem
          cases e.symm.trans e'
          exact ne (Option.some.inj (cur'.symm.trans (cur.trans (target.symm.trans target'))))
        by_cases free : st.target = none <;> simp [cur, free, apart]
      · simp [cur]
  · show z.holds = _
    rw [lost.holds, away.holds, List.filter_filter]
    refine List.filter_congr fun y mem => ?_
    congr 1
    rw [Bool.eq_iff_iff, decide_eq_true_eq, l.mem_stations mem, beq_iff_eq, bne_iff_ne]
  · obtain ⟨y, hy, rfl⟩ := (left_iff g).2 c
    have left := (lost.touched y hy).of_same (s := v) (by rw [heads]; rfl)
    exact left.congr rfl rfl (other _ ne) rfl rfl
  · rw [other g ne, lost.untouched g fun y hy at_ => c ((left_iff g).1 ⟨y, hy, at_⟩), heads]
  · show z.linkOut = _
    rw [lost.linkOut, away.linkOut]
    refine congrArg _ (List.filterMap_congr fun y hy => ?_)
    obtain ⟨mem, source⟩ := l.mem_holdsBy.1 hy
    rw [(away.station_of_departing l mem (beq_iff_eq.1 source)).1]
  · obtain ⟨ns, produced, roam, drained, kinds⟩ := lost.told
    refine ⟨_, away.produced.trans (u := z.setHead h (z.head h).closed) produced (State.enables_of_aside away.aside), ?_,
      fun g => ?_, fun n mem => ?_⟩
    · rw [List.filter_append, filter_abortNotices, roam, abortNotices_append]
    · have not_end : Notice.head g .drained .dark ∉ abortNotices (v.holdsBy fun y => y.target == h) := fun m => by
        cases noticeClass_of_mem_abortNotices m
      rw [List.mem_append, or_iff_right not_end, drained, left_iff, heads]
      refine and_congr_right fun c => and_congr_right fun _ => ?_
      have ne : g ≠ h := by
        obtain ⟨y, hy, rfl⟩ := (left_iff g).2 c
        exact lost.away y hy
      rw [other g ne]
    · rcases List.mem_append.1 mem with m | m
      · exact .inl (noticeClass_of_mem_abortNotices m)
      · exact kinds n m

end Sys2Proof.Machine

/-!
PROOF LAYER. Heads that fault or are stopped: ANNOUNCE, the third miss, the start timeout and STOP.
-/
namespace Sys2Proof.Machine

/-- From a sound state a command has lost a head, on a clock, leaving it a record and offering last some notices: the state after it
(R6, R16). -/
def State.LossOf (s : State) (h : HeadId) (v t : State) (head : Head) (ns : List Notice) : Prop :=
  t.head h = head
    ∧ (∀ i, t.station i = (s.station i).map fun st =>
        if st.current = some h then
          { st with
            state := .lapsed, current := none, target := none, res := 0, capped := false
            lapse := some (v.now + 1000000 * s.roam.lapse) }
        else if st.target = some h then
          { st with
            state := if st.pass.isSome then .seated else .assoc
            target := none, refused := min 65535 (st.refused + 1), dwell := v.now / 1000 }
        else st)
    ∧ t.holds = s.holds.filter (fun y => y.source != h && y.target != h)
    ∧ t.passes = s.passes ∧ t.zones = s.zones
    ∧ (∀ g, g ≠ h → ((∃ y ∈ s.holds, y.source = h ∧ y.target = g) → s.HeadLeft t g)
      ∧ (¬ (∃ y ∈ s.holds, y.source = h ∧ y.target = g) → t.head g = s.head g))
    ∧ t.linkOut = s.linkOut ++ (s.holdsBy fun y => y.source == h).filterMap (fun y =>
        (s.station y.station).map fun st => (y.target, .cancel st.addr y.station))
    ∧ ∃ more, (more.filter fun n => noticeClass n == .roam)
          = abortNotices ((s.holdsBy fun y => y.target == h) ++ s.holdsBy fun y => y.source == h)
        ∧ (∀ g, Notice.head g .drained .dark ∈ more
          ↔ (∃ y ∈ s.holds, y.source = h ∧ y.target = g) ∧ (s.head g).state = .draining ∧ (t.head g).state = .dark)
        ∧ (∀ n ∈ more, noticeClass n = .roam ∨ noticeClass n = .airtime ∨ ∃ g, n = .head g .drained .dark)
        ∧ v.InBowl t (more ++ ns)

/-- A head's loss seen through what its command does besides: the head's own record, and the notices at the end. -/
theorem State.HeadLost.lossOf {s w v t : State} (sound : s.Sound) {now : Nat} {rest : List InFrame} {h : HeadId} {y head : Head}
    {ns : List Notice} (lost : (s.beforeLoss now rest h y).HeadLost w h) (clock : v.now = now) (own : t.head h = head)
    (others : ∀ g, g ≠ h → t.head g = w.head g) (stations : t.stationView = w.stationView) (passes : t.passView = w.passView)
    (link : t.linkOut = w.linkOut) (channels : t.channels = w.channels)
    (bowl : ∀ more, (s.beforeLoss now rest h y).Produced w more → v.InBowl t (more ++ ns)) : s.LossOf h v t head ns := by
  simp only [State.stationView, Prod.mk.injEq] at stations
  obtain ⟨stations, holds⟩ := stations
  have passes := passes.trans (State.passView_of_aside lost.aside)
  simp only [State.passView, Prod.mk.injEq] at passes
  obtain ⟨passes, zones, -⟩ := passes
  obtain ⟨more, produced, roam, drained, kinds⟩ := lost.told
  have before : ∀ g, g ≠ h → (s.beforeLoss now rest h y).head g = s.head g := fun g ne =>
    State.beforeLoss_head_of_ne _ _ _ _ ne
  refine ⟨own, fun i => ?_, holds.trans lost.holds, passes, zones, fun g ne => ⟨fun c => ?_, fun c => ?_⟩,
    link.trans lost.linkOut, more, roam, fun g => ?_, kinds, bowl more produced⟩
  · refine (congrArg (Table.get · i) stations).trans ((lost.station i).trans (congrArg (Option.map · (s.station i)) ?_))
    funext st
    simp only [Station.afterLoss, Station.lapsed, State.lapseDue, Station.returned, Station.standing, count16_eq, clock]
    rfl
  · refine State.HeadLeft.of_same ?_ (by rw [before g ne]; rfl)
    exact (lost.left g ne c).congr (by simp only [State.members, stations]) (by simp only [State.holdsAt, holds])
      (others g ne) (by simp only [State.parties, State.holdsAt, stations, holds]) channels
  · rw [others g ne, lost.others g ne c, before g ne]
  · rw [drained]
    refine and_congr_right fun c => ?_
    obtain ⟨y, mem, source, target⟩ := c
    obtain ⟨ne, -⟩ := sound.moves.2.1 y mem
    have other : g ≠ h := fun same => ne (source.trans (same.symm.trans target.symm))
    rw [before g other, others g other]

/-- A head that faults on a clock, its record left as the command says (R6). -/
theorem State.Sound.lossOf_fault {s : State} (sound : s.Sound) (now : Nat) (h : HeadId) (x final : Head) (r : FaultReason) :
    s.LossOf h { s with now := now }
      (((({ s with now := now } : State).setHead h x).headFault h r).setHead h final).flush final
      [.head h (.fault r) .fault] := by
  have lost := (sound.losable now s.inbound h
    (y := { x with state := .fault, startTimer := none, supervision := none }) (by simp)).headLost
  rw [State.headFault_setHead]
  change State.HeadLost _ (State.loseHead (State.setHead { s with now := now } h _) h) h at lost
  generalize State.loseHead (State.setHead { s with now := now } h _) h = w at lost ⊢
  refine lost.lossOf sound rfl ?_ (fun g ne => ?_) (by simp [State.stationView]) (by simp) (by simp) (by simp) fun more produced => ?_
  · exact (State.head_congr (State.flush_heads _) h).trans (State.head_setHead_self _ _ _)
  · exact (State.head_congr (State.flush_heads _) g).trans (State.head_setHead_of_ne _ _ ne)
  · have quiet : s.held = [] := sound.link.2.2
    refine .of_flush quiet ?_ ?_ ?_
    · exact (State.besideBowl_of_aside lost.aside)
    · exact (State.discards_of_aside lost.aside)
    · exact State.Produced.trans produced (w.note_produced _) (State.enables_of_aside lost.aside)

/-- A head stopped at a request (R16). -/
theorem State.Sound.lossOf_stop {s : State} (sound : s.Sound) (rest : List InFrame) (h : HeadId) {y : Head}
    (n : y.state ≠ .draining) (type tag : Byte) (code : Code) (content : Content) :
    s.LossOf h (({ s with inbound := rest } : State).reply type tag code content)
      (((({ s with inbound := rest } : State).setHead h y).loseHead h).reply type tag code content).flush y.closed [] := by
  have lost := (sound.losable s.now rest h n).headLost
  change State.HeadLost _ (State.loseHead (State.setHead { s with inbound := rest } h _) h) h at lost
  generalize State.loseHead (State.setHead { s with inbound := rest } h _) h = w at lost ⊢
  have heads : ∀ g, State.head (w.reply type tag code content).flush g = w.head g := State.head_congr (State.flush_heads _)
  refine lost.lossOf sound rfl ?_ (fun g _ => heads g) (by simp [State.stationView]) (by simp) (by simp) (by simp) fun more produced => ?_
  · rw [heads, lost.head, State.beforeLoss_head_self]
  · have quiet : s.held = [] := sound.link.2.2
    rw [List.append_nil]
    exact .of_reply quiet (State.besideBowl_of_aside lost.aside) (State.discards_of_aside lost.aside) produced

/-- A head's record as its fault leaves it. -/
theorem State.headFault_head {s : State} {h : HeadId} (x : Head) (r : FaultReason) :
    ((s.setHead h x).headFault h r).head h =
      { x with state := .fault, supervision := none, startTimer := none, account := none } := by
  rw [State.headFault_setHead, State.head_note, State.loseHead_head_self, State.head_setHead_self]
  · rfl
  · rw [State.head_setHead_self]; exact HeadState.noConfusion

/-- A head that faults on a clock, with nothing more changed of its record (R6). -/
theorem State.Sound.lossOf_headFault {s : State} (sound : s.Sound) (now : Nat) (h : HeadId) (x : Head) (r : FaultReason) :
    s.LossOf h { s with now := now } ((({ s with now := now } : State).setHead h x).headFault h r).flush
      { x with state := .fault, supervision := none, startTimer := none, account := none } [.head h (.fault r) .fault] := by
  have loss := sound.lossOf_fault now h x (State.head ((({ s with now := now } : State).setHead h x).headFault h r) h) r
  rwa [State.setHead_head, State.headFault_head] at loss

/-- HEAD-CONTROL STOP, once taken, gives what the stop of the head with its setup sequence ended gives. -/
theorem State.Takes.stop {s u : State} {f : Req} (taken : s.Takes 0x08 f u) {h : HeadId} {r : Served}
    (e : (u.endSequence h).stopHead h = r) :
    exec (.headControlStop f h true) s = .next (r.state.reply 0x08 f.tag r.code r.content).flush := by
  subst e
  refine congrArg _ ((State.serve_of_taken taken.1 taken.2.1).trans ?_)
  simp only [State.withHead, headId?_val, if_true]

/-- Settles O21. -/
theorem losingAHeadReleasesItsStations : Obligations.LosingAHeadReleasesItsStations := by
  intro s u h f sound
  have order := sound.heads h
  refine ⟨fun live => ?_, fun due live timer missed => ?_, fun due timer => ?_, fun taken live => ?_, fun taken idle => ?_⟩
  · have served : exec (.announce h) s = .next (((s.setHead h (s.head h)).headFault h .restarted).setHead h
        { ((s.setHead h (s.head h)).headFault h .restarted).head h with miss := 0 }).flush := by
      show execAnnounce h s = _
      rw [State.setHead_head]
      rcases Head.live_iff.1 live with e | e | e <;> simp only [execAnnounce, e] <;> rfl
    rw [State.headFault_head] at served
    exact ⟨_, served, sound.lossOf_fault s.now h (s.head h) _ .restarted⟩
  · have served : exec (.supervisionTimerExpiry h) s = .next ((s.expireAt due).missHeartbeat h).flush := by
      show execSupervisionTimerExpiry h s = _
      simp only [execSupervisionTimerExpiry, timer]
      rfl
    rw [State.missHeartbeat_of_live (s := s.expireAt due) (Nat.le_of_eq missed.symm) live] at served
    exact ⟨_, served, sound.lossOf_headFault (max s.now due) h { s.head h with miss := 3, supervision := none } .missed⟩
  · obtain ⟨-, -, starting, -⟩ := order
    have starting : (s.head h).state = .starting := by
      rw [timer] at starting
      exact beq_iff_eq.1 starting.symm
    have served : exec (.startTimerExpiry h) s
        = .next (((s.expireAt due).setHead h (s.head h)).headFault h .startTimeout).flush := by
      show execStartTimerExpiry h s = _
      simp only [execStartTimerExpiry, timer]
      rw [if_pos (show ((s.expireAt due).head h).state = .starting from starting), show (s.expireAt due).setHead h (s.head h) = s.expireAt due from State.setHead_head _ _]
      rfl
    exact ⟨_, served, sound.lossOf_headFault (max s.now due) h (s.head h) .startTimeout⟩
  · obtain ⟨rest, rfl⟩ := taken.eq
    have ended : State.endSequence { s with inbound := rest } h = { s with inbound := rest } := by
      rw [State.endSequence_eq, show State.head { s with inbound := rest } h = s.head h from rfl, order.ended_of_live live]
      exact State.setHead_head _ _
    have served := taken.stop (congrArg (State.stopHead · h) ended)
    rw [show State.stopHead { s with inbound := rest } h = _ from if_pos live] at served
    exact ⟨_, served, sound.lossOf_stop rest h (y := { s.head h with state := .dark, startTimer := none })
      HeadState.noConfusion _ _ _ _⟩
  · obtain ⟨rest, rfl⟩ := taken.eq
    have idle : ((State.endSequence { s with inbound := rest } h).head h).live = false := by
      rw [State.endSequence_head_self]
      exact idle
    have served := taken.stop (if_neg (by rw [idle]; exact Bool.false_ne_true))
    rw [State.flush_of_held_nil] at served
    · exact served
    · exact sound.link.2.2

end Sys2Proof.Machine

/-!
PROOF LAYER. What the tables' invariants say of lookups, and the four queries of the stored records.
-/
namespace Sys2Proof.Machine

/-! ## Records found by a value they hold -/

/-- The index found for a value of a table in which no two records share one. -/
theorem Table.find_eq_some_iff {α β : Type} [DecidableEq β] {t : Table α} (w : Table.wf t) (key : α → β)
    (nodup : (t.map fun p => key p.2).Nodup) (k : β) (i : Nat) :
    (t.find? fun p => key p.2 == k).map Prod.fst = some i ↔ ∃ x, Table.get t i = some x ∧ key x = k := by
  have one : ∀ a b : Nat × α, (key a.2 == k) = true → (key b.2 == k) = true → key a.2 = key b.2 := by
    intro a b ha hb
    rw [eq_of_beq ha, eq_of_beq hb]
  constructor
  · intro e
    obtain ⟨⟨j, x⟩, found, rfl⟩ := Option.map_eq_some_iff.1 e
    obtain ⟨mem, is⟩ := (find?_eq_some_iff_of_nodup nodup one).1 found
    exact ⟨x, Table.get_of_mem w mem, eq_of_beq is⟩
  · rintro ⟨x, at_, is⟩
    have found := (find?_eq_some_iff_of_nodup (x := (i, x)) nodup one).2 ⟨Table.get_eq_some_mem at_, by simp [is]⟩
    rw [found]; rfl

theorem State.lookupStation_eq_some {s : State} (inv : s.StationsInv) {a : StationAddress} {i : Nat} :
    s.lookupStation a = some i ↔ ∃ st, s.station i = some st ∧ st.addr = a :=
  Table.find_eq_some_iff inv.1 Station.addr inv.2.2 a i

theorem State.lookupPass_zero (s : State) : s.lookupPass 0 = none := by
  simp [State.lookupPass]

theorem State.lookupPass_eq_some {s : State} (inv : s.PassesInv) {n : PassNumber} {p : Nat} :
    s.lookupPass n = some p ↔ ∃ q, s.pass p = some q ∧ q.number = n := by
  obtain ⟨wf, ranges, nodup⟩ := inv
  by_cases zero : n = 0
  · subst zero
    rw [State.lookupPass_zero]
    refine ⟨fun e => (by cases e), fun ⟨q, at_, z⟩ => ?_⟩
    exact absurd z (ranges _ (Table.get_eq_some_mem at_)).2
  · rw [State.lookupPass, if_neg zero]
    exact Table.find_eq_some_iff wf Pass.number nodup n p

theorem State.lookupClip_eq_some {s : State} (inv : s.ClipsInv) {k : Key} {i : Nat} :
    s.lookupClip k = some i ↔ ∃ x, s.clip i = some x ∧ x.key = k :=
  Table.find_eq_some_iff inv.1 Clip.key inv.2.2.1 k i

/-! ## The queries -/

/-- A request taken whose work changes nothing: its reply alone (R189). -/
theorem State.Takes.answered {s u : State} {type : Byte} {f : Req} (h : s.Takes type f u) {work : State → Served}
    {wrong : State → Content} {c : Code} {x : Content} (e : work u = ⟨u, c, x⟩) :
    s.serve f type work wrong = u.reply type f.tag c x := by
  rw [State.serve_of_takes h (by rw [e]; exact h.held), e]

theorem zoneId?_eq_none {z : Nat} (big : 32 ≤ z) : zoneId? z = none := by
  unfold zoneId?; rw [dif_neg (by omega)]

theorem zoneId?_val (z : ZoneId) : zoneId? z.val = some z := by
  unfold zoneId?; rw [dif_pos z.isLt]

theorem clipQuery_unknown {s u : State} {f : Req} (taken : s.Takes 0x1F f u) {program : Nat} {n : BitVec 16}
    (inv : u.ClipsInv) (no : ∀ i k, u.clip i = some k → ¬ (k.key.program.val = program ∧ k.key.clip = n)) :
    exec (.clipQuery f (.key program n)) s
      = .next (u.reply 0x1F f.tag .unknown (.clip none none u.freeSlots u.vacantClips)) := by
  refine congrArg _ (taken.answered ?_)
  have absent : (if p : program < 16 then u.lookupClip ⟨⟨program, p⟩, n⟩ else none) = none := by
    by_cases p : program < 16
    · rw [dif_pos p, Option.eq_none_iff_forall_ne_some]
      intro i e
      obtain ⟨k, at_, key⟩ := (State.lookupClip_eq_some inv).1 e
      exact no i k at_ ⟨by rw [key], by rw [key]⟩
    · rw [dif_neg p]
  simp only [absent]

theorem clipQuery_found {s u : State} {f : Req} (taken : s.Takes 0x1F f u) (inv : u.ClipsInv) {i : Nat} {k : Clip}
    (at_ : u.clip i = some k) :
    exec (.clipQuery f (.key k.key.program k.key.clip)) s
      = .next (u.reply 0x1F f.tag .ok (.clip (some i) (some (u.clipReport i k)) u.freeSlots u.vacantClips)) := by
  refine congrArg _ (taken.answered ?_)
  have found : u.lookupClip k.key = some i := (State.lookupClip_eq_some inv).2 ⟨k, at_, rfl⟩
  simp [found, State.clipAnswer, at_]

/-- Settles O60: each query's reply is read off from its lookup, and the lookups from the tables' invariants. -/
theorem queriesReportTheRecord : Obligations.QueriesReportTheRecord := by
  refine ⟨fun s u f taken => ?_, fun s u f taken => ?_, fun s u f taken => ?_, fun s u f taken => ?_⟩
  · refine ⟨fun i big => congrArg _ (taken.answered (if_neg (Nat.not_lt.2 big))),
      fun i small => congrArg _ (taken.answered (if_pos small)), fun a e => ?_, fun a i e => ?_⟩
    · exact congrArg Host.Outcome.next (taken.refused (by simp only [e]))
    · exact congrArg Host.Outcome.next (taken.answered (by simp only [e]; rfl))
  · refine ⟨fun p big => congrArg _ (taken.answered (if_neg (Nat.not_lt.2 big))),
      fun p small => congrArg _ (taken.answered (if_pos small)), fun n e => ?_, fun n p e => ?_, u.lookupPass_zero,
      fun n p inv => State.lookupPass_eq_some inv.2.1⟩
    · exact congrArg Host.Outcome.next (taken.refused (by simp only [e]))
    · exact congrArg Host.Outcome.next (taken.answered (by simp only [e]; rfl))
  · refine ⟨fun zone big => congrArg _ (taken.refused (by simp only [zoneId?_eq_none big])), fun z => ?_⟩
    refine (congrArg _ (taken.answered (c := .ok) (x := .zone (u.zoneReport z)) (by simp only [zoneId?_val]))).trans ?_
    simp only [State.zoneReport]
    cases (u.zone z).latch <;> rfl
  · refine ⟨fun i big => congrArg _ (taken.answered (if_neg (Nat.not_lt.2 big))),
      fun i small => congrArg _ (taken.answered (if_pos small)),
      fun program n inv no => clipQuery_unknown taken inv.2.2.1 no, fun i k inv at_ => clipQuery_found taken inv.2.2.1 at_⟩

end Sys2Proof.Machine

/-!
PROOF LAYER. Records and their names: no operation of the bowl but ASSOC-REQ and PASS-LOAD makes a record, and none changes an
address or a pass number (R19, R20, R85, R86).
-/
namespace Sys2Proof.Machine

/-! ## Tables whose records share no key -/

/-- In a table in canonical form no two records share a key exactly when one index alone has each. -/
theorem Table.nodup_iff {α β : Type} {t : Table α} (w : Table.wf t) (key : α → β) :
    (t.map fun p => key p.2).Nodup
      ↔ ∀ i j x y, Table.get t i = some x → Table.get t j = some y → key x = key y → i = j := by
  constructor
  · intro nodup i j x y hi hj e
    have := List.inj_on_of_nodup_map nodup (Table.get_eq_some_mem hi) (Table.get_eq_some_mem hj) e
    exact congrArg Prod.fst this
  · intro one
    have keys : t.Nodup := (List.Pairwise.imp (fun {a b} h e => absurd h (by simp [e])) (List.pairwise_map.1 w) : _)
    refine (List.nodup_map_iff_inj_on keys).2 fun a ha b hb e => ?_
    obtain ⟨i, x⟩ := a
    obtain ⟨j, y⟩ := b
    have hx := Table.get_of_mem w ha
    have hy := Table.get_of_mem w hb
    have : i = j := one i j x y hx hy e
    subst this
    rw [hx] at hy; cases hy; rfl

/-- The canonical form of a table of named records: indices below a size, no name twice, no name forbidden. -/
def Table.Named {α β : Type} (t : Table α) (size : Nat) (key : α → β) (fit : β → Prop) : Prop :=
  Table.wf t ∧ (∀ i x, Table.get t i = some x → i < size ∧ fit (key x))
    ∧ ∀ i j x y, Table.get t i = some x → Table.get t j = some y → key x = key y → i = j

section
variable {α β : Type} {t u : Table α} {size : Nat} {key : α → β} {fit : β → Prop}

/-- Records that were there before, by the same names, keep the form. -/
theorem Table.Named.of_old (h : Table.Named t size key fit) (w : Table.wf u)
    (old : ∀ i x, Table.get u i = some x → ∃ y, Table.get t i = some y ∧ key x = key y) : Table.Named u size key fit := by
  obtain ⟨-, bounds, one⟩ := h
  refine ⟨w, fun i x e => ?_, fun i j x y hi hj e => ?_⟩
  · obtain ⟨y, at_, same⟩ := old i x e
    rw [same]; exact bounds i y at_
  · obtain ⟨x', hx, ex⟩ := old i x hi
    obtain ⟨y', hy, ey⟩ := old j y hj
    exact one i j x' y' hx hy (by rw [← ex, ← ey, e])

/-- A record written under a name that no other record has keeps the form. -/
theorem Table.Named.put (h : Table.Named t size key fit) {i : Nat} {x : α} (small : i < size) (fits : fit (key x))
    (new : ∀ j y, Table.get t j = some y → key y = key x → j = i) : Table.Named (Table.put t i x) size key fit := by
  obtain ⟨w, bounds, one⟩ := h
  refine ⟨Table.wf_put w i x, fun j y e => ?_, fun j k y z hj hk e => ?_⟩
  · rw [Table.get_put] at e
    split at e
    · next at_ => cases e; exact ⟨at_ ▸ small, fits⟩
    · exact bounds j y e
  · rw [Table.get_put] at hj hk
    split at hj <;> split at hk
    · next a b => rw [a, b]
    · next a b => cases hj; exact a.trans (new k z hk e.symm).symm
    · next a b => cases hk; exact (new j y hj e).trans b.symm
    · exact one j k y z hj hk e

end

theorem State.stationsInv_iff {s : State} : s.StationsInv ↔ Table.Named s.stations 4096 Station.addr fun _ => True := by
  constructor
  · rintro ⟨w, b, n⟩
    exact ⟨w, fun i x e => ⟨b _ (Table.get_eq_some_mem e), trivial⟩, (Table.nodup_iff w Station.addr).1 n⟩
  · rintro ⟨w, b, n⟩
    exact ⟨w, fun p mem => (b p.1 p.2 (Table.get_of_mem w mem)).1, (Table.nodup_iff w Station.addr).2 n⟩

theorem State.passesInv_iff {s : State} : s.PassesInv ↔ Table.Named s.passes 8192 Pass.number fun n => n ≠ 0 := by
  constructor
  · rintro ⟨w, b, n⟩
    exact ⟨w, fun i x e => b _ (Table.get_eq_some_mem e), (Table.nodup_iff w Pass.number).1 n⟩
  · rintro ⟨w, b, n⟩
    exact ⟨w, fun p mem => b p.1 p.2 (Table.get_of_mem w mem), (Table.nodup_iff w Pass.number).2 n⟩

/-- The clip records in their form (R141). -/
theorem State.clipsInv_iff {s : State} : s.ClipsInv ↔ Table.Named s.clips 64 Clip.key (fun _ => True)
    ∧ Table.wf s.slots ∧ ∀ p ∈ s.slots, p.1 < 16384 := by
  constructor
  · rintro ⟨w, b, n, slots⟩
    exact ⟨⟨w, fun i x e => ⟨b _ (Table.get_eq_some_mem e), trivial⟩, (Table.nodup_iff w Clip.key).1 n⟩, slots⟩
  · rintro ⟨⟨w, b, n⟩, slots⟩
    exact ⟨w, fun p mem => (b p.1 p.2 (Table.get_of_mem w mem)).1, (Table.nodup_iff w Clip.key).2 n, slots⟩

end Sys2Proof.Machine

/-!
PROOF LAYER. What most work of the bowl keeps: it makes no station record, changes none's address or pass, and adds no channel to
a channel set; and it leaves all beside the stations, holds and heads alone (`State.Keeps`).
-/
namespace Sys2Proof.Machine

/-! ## Sets of channels -/

/-- A set of channels within another has each of its channels there. -/
theorem chans_within_iff {c d : ChanSet} : c &&& ~~~ d = 0 ↔ ∀ k : Chan, hasChan c k = true → hasChan d k = true := by
  constructor
  · intro e k has
    have at_ := congrArg (fun v => v.getLsbD k.val) e
    simp only [hasChan] at has ⊢
    simpa [has] using at_
  · intro sub
    ext k hk
    have := sub ⟨k, hk⟩
    simp only [hasChan, BitVec.getLsbD_eq_getElem hk] at this
    simpa using this

theorem chans_within_refl (c : ChanSet) : c &&& ~~~ c = 0 := by simp

theorem chans_within_trans {c d e : ChanSet} (h : c &&& ~~~ d = 0) (k : d &&& ~~~ e = 0) : c &&& ~~~ e = 0 :=
  chans_within_iff.2 fun x hx => chans_within_iff.1 k x (chans_within_iff.1 h x hx)

theorem chans_within_left (c d : ChanSet) : (c &&& d) &&& ~~~ c = 0 :=
  chans_within_iff.2 fun x => by simp +contextual [hasChan]

theorem chans_within_right (c d : ChanSet) : (c &&& d) &&& ~~~ d = 0 :=
  chans_within_iff.2 fun x => by simp [hasChan]

theorem chans_and_eq_self {c d : ChanSet} (h : c &&& ~~~ d = 0) : c &&& d = c := by
  have sub := chans_within_iff.1 h
  ext k hk
  have := sub ⟨k, hk⟩
  simp only [hasChan, BitVec.getLsbD_eq_getElem hk] at this
  simpa using this

/-! ## Records that stood before -/

/-- A station's record comes of another: it has its address and pass, and no channel more. -/
def Station.Of (st x : Station) : Prop := x.addr = st.addr ∧ x.pass = st.pass ∧ x.chans &&& ~~~ st.chans = 0

theorem Station.Of.refl (st : Station) : st.Of st := ⟨rfl, rfl, chans_within_refl _⟩

theorem Station.Of.trans {a b c : Station} (h : a.Of b) (k : b.Of c) : a.Of c :=
  ⟨k.1.trans h.1, k.2.1.trans h.2.1, chans_within_trans k.2.2 h.2.2⟩

/-- A record with its address, pass and channel set as they were. -/
theorem Station.Of.of_eq {st x : Station} (addr : x.addr = st.addr) (pass : x.pass = st.pass) (chans : x.chans = st.chans) :
    st.Of x := ⟨addr, pass, by rw [chans]; exact chans_within_refl _⟩

/-- Work of the bowl that makes no station record and binds none: all beside the stations, holds and heads is as it was, and each
station's record comes of the one that stood there. -/
structure State.Keeps (s t : State) : Prop where
  aside : t.aside = s.aside
  wf    : Table.wf s.stations → Table.wf t.stations
  old   : ∀ i x, t.station i = some x → ∃ st, s.station i = some st ∧ st.Of x

theorem State.Keeps.of_eq {s t : State} (aside : t.aside = s.aside) (stations : t.stations = s.stations) : s.Keeps t :=
  ⟨aside, fun w => by rw [stations]; exact w, fun i x e => ⟨x, by rw [← e, State.station, State.station, stations], .refl x⟩⟩

theorem State.Keeps.refl (s : State) : s.Keeps s := .of_eq rfl rfl

theorem State.Keeps.trans {s t u : State} (h : s.Keeps t) (k : t.Keeps u) : s.Keeps u where
  aside := k.aside.trans h.aside
  wf w := k.wf (h.wf w)
  old i x e := by
    obtain ⟨y, hy, oy⟩ := k.old i x e
    obtain ⟨st, hst, ost⟩ := h.old i y hy
    exact ⟨st, hst, ost.trans oy⟩

theorem State.station_setStation (s : State) (i j : Nat) (x : Station) :
    (s.setStation i x).station j = if j = i then some x else s.station j := Table.get_put _ _ _ _

theorem State.station_updateStation (s : State) (i j : Nat) (f : Station → Station) :
    (s.updateStation i f).station j = if j = i then (s.station j).map f else s.station j := Table.get_update _ _ _ _

theorem Station.towards_of (s : State) (h : HeadId) (st : Station) (goal : Nat) : st.Of (s.towards h st goal) := by
  unfold State.towards
  repeat' split
  all_goals exact .of_eq rfl rfl rfl

theorem State.cancel_stations (s : State) (x : Hold) : (s.cancel x).stations = s.stations := by
  unfold State.cancel; split <;> rfl

section
variable {s t : State} (k : s.Keeps t)
include k

/-! ## The named operations -/

/-- A record written where one of the base state's stood. -/
theorem State.Keeps.setStation {i : Nat} {st x : Station} (at_ : s.station i = some st) (o : st.Of x) :
    s.Keeps (t.setStation i x) where
  aside := k.aside
  wf w := Table.wf_put (k.wf w) i x
  old j y e := by
    rw [State.station_setStation] at e
    split at e
    · next at_' => cases e; exact ⟨st, at_' ▸ at_, o⟩
    · exact k.old j y e

/-- A record written where one stands. -/
theorem State.Keeps.rewrite {i : Nat} {st x : Station} (at_ : t.station i = some st) (o : st.Of x) :
    s.Keeps (t.setStation i x) :=
  k.trans ((State.Keeps.refl t).setStation at_ o)

theorem State.Keeps.updateStation (i : Nat) {f : Station → Station} (o : ∀ x, Station.Of x (f x) := by exact fun _ => .of_eq rfl rfl rfl) :
    s.Keeps (t.updateStation i f) where
  aside := k.aside
  wf w := Table.wf_update (k.wf w) i f
  old j y e := by
    rw [State.station_updateStation] at e
    split at e
    · obtain ⟨x, hx, rfl⟩ := Option.map_eq_some_iff.1 e
      obtain ⟨st, at_, ox⟩ := k.old j x hx
      exact ⟨st, at_, ox.trans (o x)⟩
    · exact k.old j y e

theorem State.Keeps.withHolds (xs : List Hold) : s.Keeps { t with holds := xs } := k.trans (.of_eq rfl rfl)
theorem State.Keeps.dropHold (i : Nat) : s.Keeps (t.dropHold i) := k.trans (.of_eq rfl rfl)
theorem State.Keeps.updateHold (i : Nat) (f : Hold → Hold) : s.Keeps (t.updateHold i f) := k.trans (.of_eq rfl rfl)
theorem State.Keeps.setHead (h : HeadId) (x : Head) : s.Keeps (t.setHead h x) := k.trans (.of_eq rfl rfl)
theorem State.Keeps.send (h : HeadId) (f : LinkFrame) : s.Keeps (t.send h f) := k.trans (.of_eq rfl rfl)
theorem State.Keeps.note (n : Notice) : s.Keeps (t.note n) := k.trans (.of_eq rfl rfl)

theorem State.Keeps.dropStation (i : Nat) : s.Keeps { t with stations := Table.drop t.stations i } where
  aside := k.aside
  wf w := Table.wf_drop (k.wf w) i
  old j y e := by
    have e' : Table.get (Table.drop t.stations i) j = some y := e
    rw [Table.get_drop] at e'
    split at e'
    · cases e'
    · exact k.old j y e'

theorem State.Keeps.foldl {β : Type} {f : State → β → State} (each : ∀ u b, s.Keeps u → s.Keeps (f u b)) (l : List β) :
    s.Keeps (l.foldl f t) := by
  induction l generalizing t with
  | nil => exact k
  | cons b bs ih => exact ih (each t b k)

/-! ## The Airtime Unit -/

theorem State.Keeps.recompute (h : HeadId) : s.Keeps (t.recompute h) :=
  k.trans (.of_eq (t.recompute_aside h) (t.recompute_stations h))

theorem State.Keeps.recomputeList (hs : List HeadId) : s.Keeps (t.recomputeList hs) := k.foldl (fun _ h ku => ku.recompute h) hs

theorem State.Keeps.setReservation (i : Nat) : s.Keeps (t.setReservation i) := by
  unfold State.setReservation
  split
  · exact k
  · next e =>
    split
    · exact k
    · exact k.rewrite e (Station.towards_of ..)

theorem State.Keeps.recomputeOf (i : Nat) : s.Keeps (t.recomputeOf i) := by
  unfold State.recomputeOf; split
  · exact k
  · exact k.recompute _

theorem State.Keeps.settle (i : Nat) : s.Keeps (t.settle i) := by
  unfold State.settle; dsimp only; split
  · exact k.setReservation i
  · exact (k.setReservation i).recomputeOf i

theorem State.Keeps.restoreShed (h : HeadId) : s.Keeps (t.restoreShed h) := by
  unfold State.restoreShed; split
  · exact k
  · exact k.trans (.of_eq rfl rfl)

/-! ## Members -/

theorem State.Keeps.drainCheck (h : HeadId) : s.Keeps (t.drainCheck h) :=
  k.trans (.of_eq (t.drainCheck_aside h) (t.drainCheck_stations h))

theorem State.Keeps.keepChans (i : Nat) (keep : ChanSet) : s.Keeps (t.keepChans i keep) :=
  (k.updateStation i fun _ => by exact ⟨rfl, rfl, chans_within_left _ _⟩).updateHold i _

theorem State.Keeps.trim (i : Nat) : s.Keeps (t.trim i) := by
  unfold State.trim; split
  · exact k
  · exact k.keepChans i _

theorem State.Keeps.recomputeTarget (i : Nat) : s.Keeps (t.recomputeTarget i) := by
  unfold State.recomputeTarget; split
  · exact k
  · exact k.recompute _

theorem State.Keeps.recomputeBoth (i : Nat) : s.Keeps (t.recomputeBoth i) := (k.recomputeOf i).recomputeTarget i

theorem State.Keeps.unbindStation (i : Nat) : s.Keeps (t.unbindStation i) :=
  (((k.updateStation i).setReservation i).trim i).recomputeBoth i

theorem State.Keeps.noteHostEnd (x : Hold) (r : RoamEnd) : s.Keeps (t.noteHostEnd x r) :=
  k.trans (.of_eq (t.noteHostEnd_aside x r) (t.noteHostEnd_stations x r))

theorem State.Keeps.lapse (i : Nat) : s.Keeps (t.lapse i) := k.updateStation i

theorem State.Keeps.cancel (x : Hold) : s.Keeps (t.cancel x) :=
  k.trans (.of_eq (t.cancel_aside x) (t.cancel_stations x))

theorem State.Keeps.releaseHold (x : Hold) : s.Keeps (t.releaseHold x) := ((k.dropHold _).recompute _).drainCheck _

theorem State.Keeps.undoHandover (x : Hold) (r : RoamEnd) : s.Keeps (t.undoHandover x r) :=
  ((k.releaseHold x).updateStation _).noteHostEnd x r

theorem State.Keeps.abortSourceLost (x : Hold) : s.Keeps (t.abortSourceLost x) :=
  (((k.cancel x).releaseHold x).lapse _).noteHostEnd x _

theorem State.Keeps.abortTargetLost (x : Hold) : s.Keeps (t.abortTargetLost x) :=
  ((k.dropHold _).updateStation _).noteHostEnd x _

theorem State.Keeps.abortDeparture (x : Hold) (tell : Bool) : s.Keeps (t.abortDeparture x tell) := by
  cases tell
  · exact (k.releaseHold x).noteHostEnd x _
  · exact ((k.cancel x).releaseHold x).noteHostEnd x _

theorem State.Keeps.loseMember (i : Nat) : s.Keeps (t.loseMember i) := by
  unfold State.loseMember; split
  · exact k.abortSourceLost _
  · exact k.lapse i

/-! ## Roaming -/

theorem State.Keeps.startHandover {i : Nat} {st : Station} (at_ : t.station i = some st) (here target : HeadId) (rssi : Int)
    (o : RoamOrigin) : s.Keeps (t.startHandover i st here target rssi o) :=
by
  rw [State.startHandover_eq_recompute]
  exact (((k.rewrite (x := { st with state := .moving, target := some target }) at_ (.of_eq rfl rfl rfl)).withHolds
    (t.holds ++ [t.newHold i st here target rssi o])).recompute target).send target _

theorem State.Keeps.refuseRoam (i : Nat) : s.Keeps (t.refuseRoam i) := k.updateStation i

theorem State.Keeps.tryCandidate {i : Nat} {st : Station} (at_ : t.station i = some st) (here : HeadId) (c : HeadId × Int)
    (o : RoamOrigin) : s.Keeps (t.tryCandidate i st here c o) := by
  unfold State.tryCandidate; split
  · exact k.startHandover at_ ..
  · exact k.refuseRoam i

theorem State.Keeps.weigh (i : Nat) : s.Keeps (t.weigh i) := by
  have tried : ∀ {st : Station} (here : HeadId), t.station i = some st → s.Keeps
      (match t.bestCandidate st here with
        | none => t
        | some c =>
          if (t.head here).state = .draining then t.tryCandidate i st here c .drain
          else if t.passesTests st here c then t.tryCandidate i st here c .report
          else t) := by
    intro st here e
    split
    · exact k
    · split
      · exact k.tryCandidate e ..
      · split
        · exact k.tryCandidate e ..
        · exact k
  unfold State.weigh
  split
  · exact k
  · next e =>
    split
    · exact tried _ e
    · exact tried _ e
    · exact k

/-! ## The Seat Link Controller -/

theorem State.Keeps.loseHead (h : HeadId) : s.Keeps (t.loseHead h) :=
  (((k.foldl (fun _ i ku => ku.lapse i) _).foldl (fun _ x ku => ku.abortTargetLost x) _).foldl
    (fun _ x ku => ku.abortSourceLost x) _).setHead h _

theorem State.Keeps.headFault (h : HeadId) (r : FaultReason) : s.Keeps (t.headFault h r) :=
  ((k.setHead h _).loseHead h).note _

/-! ## Station frames -/

theorem State.Keeps.returnStation {i : Nat} {st : Station} (at_ : t.station i = some st) (h : HeadId) (rssi : Int) :
    s.Keeps (t.returnStation h i st rssi) := by
  unfold State.returnStation
  split
  · exact k.send h _
  · split
    · have joined := (k.rewrite (x := { st.arrive h rssi t.nowMs with
        state := st.standing, res := t.unbound, lapse := none }) at_ (.of_eq rfl rfl rfl)).recompute h
      dsimp only
      split
      · exact (joined.settle i).send h _
      · exact joined.send h _
    · exact k.send h _

theorem State.Keeps.directMove {i : Nat} {st : Station} (at_ : t.station i = some st) (g h : HeadId) (rssi : Int) :
    s.Keeps (t.directMove g h i st rssi) := by
  unfold State.directMove
  split
  · exact k.send h _
  · split
    · exact (((((k.rewrite (x := st.arrive h rssi t.nowMs) at_ (.of_eq rfl rfl rfl)).send g _).send h _).recompute g).recompute h).drainCheck g
    · exact k.send h _

theorem State.Keeps.takeRssi (h : HeadId) (i : Nat) (st : Station) (rssi : Int) : s.Keeps (t.takeRssi h i st rssi) := by
  have stored := k.updateStation (f := fun x => { x with rssi := clampRssi rssi, rate := rateClass rssi }) i
  unfold State.takeRssi
  dsimp only
  split
  · exact stored
  · exact stored.recompute h

theorem State.Keeps.report (h : HeadId) (rssi : Int) (cands : List (Nat × Int)) (i : Nat) (st : Station) :
    s.Keeps (t.report h rssi cands i st) := by
  unfold State.report
  dsimp only
  split
  · exact ((k.takeRssi h i st rssi).updateStation i).weigh i
  · exact k.takeRssi h i st rssi

theorem State.Keeps.leave (h : HeadId) (chan i : Nat) (st : Station) : s.Keeps (t.leave h chan i st) := by
  unfold State.leave
  refine State.Keeps.send ?_ h _
  split
  · dsimp only
    split
    · exact (k.keepChans i _).recomputeBoth i
    · exact k
  · exact k

/-! ## Handovers -/

theorem State.Keeps.land {i : Nat} {st : Station} (at_ : t.station i = some st) (x : Hold) : s.Keeps (t.land i st x) := by
  have joined := (((k.send x.source (.release st.addr)).rewrite (x := st.landed x t.nowMs) at_
    (.of_eq rfl rfl rfl)).dropHold i).recompute x.source
  exact (((joined.recompute x.target).settle i).drainCheck x.source).note _

theorem State.Keeps.retryCapped (h : HeadId) : s.Keeps (t.retryCapped h) := k.foldl (fun _ i ku => ku.settle i) _

end

end Sys2Proof.Machine

/-!
PROOF LAYER. No command of the bowl but ASSOC-REQ and PASS-LOAD makes a record, and none changes an address or a pass number.
-/
namespace Sys2Proof.Machine

/-- Every station and pass record is one that stood before, by the same address and number. -/
structure State.NoNewNames (s t : State) : Prop where
  stationsWf : Table.wf s.stations → Table.wf t.stations
  addr       : ∀ i x, t.station i = some x → ∃ st, s.station i = some st ∧ x.addr = st.addr
  passesWf   : Table.wf s.passes → Table.wf t.passes
  number     : ∀ p x, t.pass p = some x → ∃ q, s.pass p = some q ∧ x.number = q.number

theorem State.NoNewNames.of_eq {s t : State} (stations : t.stations = s.stations) (passes : t.passes = s.passes) :
    s.NoNewNames t :=
  ⟨fun w => by rw [stations]; exact w, fun i x e => ⟨x, by rw [← e, State.station, State.station, stations], rfl⟩,
    fun w => by rw [passes]; exact w, fun p x e => ⟨x, by rw [← e, State.pass, State.pass, passes], rfl⟩⟩

theorem State.NoNewNames.refl (s : State) : s.NoNewNames s := .of_eq rfl rfl

theorem State.NoNewNames.trans {s t u : State} (h : s.NoNewNames t) (k : t.NoNewNames u) : s.NoNewNames u where
  stationsWf w := k.stationsWf (h.stationsWf w)
  addr i x e := by
    obtain ⟨y, hy, ey⟩ := k.addr i x e
    obtain ⟨st, at_, est⟩ := h.addr i y hy
    exact ⟨st, at_, ey.trans est⟩
  passesWf w := k.passesWf (h.passesWf w)
  number p x e := by
    obtain ⟨y, hy, ey⟩ := k.number p x e
    obtain ⟨q, at_, eq⟩ := h.number p y hy
    exact ⟨q, at_, ey.trans eq⟩

theorem State.passes_of_aside {s t : State} (e : t.aside = s.aside) : t.passes = s.passes :=
  (congrArg State.passes e : t.aside.passes = s.aside.passes)

theorem State.Keeps.noNewNames {s t : State} (k : s.Keeps t) : s.NoNewNames t where
  stationsWf := k.wf
  addr i x e := by
    obtain ⟨st, at_, o⟩ := k.old i x e
    exact ⟨st, at_, o.1⟩
  passesWf w := by rw [State.passes_of_aside k.aside]; exact w
  number p x e := ⟨x, by rw [← e, State.pass, State.pass, State.passes_of_aside k.aside], rfl⟩

theorem State.StationsInv.of_noNewNames {s t : State} (inv : s.StationsInv) (n : s.NoNewNames t) : t.StationsInv := by
  rw [State.stationsInv_iff] at inv ⊢
  exact inv.of_old (n.stationsWf inv.1) n.addr

theorem State.PassesInv.of_noNewNames {s t : State} (inv : s.PassesInv) (n : s.NoNewNames t) : t.PassesInv := by
  rw [State.passesInv_iff] at inv ⊢
  exact inv.of_old (n.passesWf inv.1) n.number

theorem State.pass_setPass (s : State) (p k : Nat) (x : Pass) :
    (s.setPass p x).pass k = if k = p then some x else s.pass k := Table.get_put _ _ _ _

theorem State.pass_updatePass (s : State) (p k : Nat) (f : Pass → Pass) :
    (s.updatePass p f).pass k = if k = p then (s.pass k).map f else s.pass k := Table.get_update _ _ _ _

section
variable {s t : State} (n : s.NoNewNames t)
include n

/-! ## The named operations -/

/-- Work that makes no name, done on a state without new names. -/
theorem State.NoNewNames.work {u : State} (k : t.Keeps u) : s.NoNewNames u := n.trans k.noNewNames

/-- A record written where one of the base state's stood. -/
theorem State.NoNewNames.setStation {i : Nat} {st x : Station} (at_ : s.station i = some st) (e : x.addr = st.addr) :
    s.NoNewNames (t.setStation i x) where
  stationsWf w := Table.wf_put (n.stationsWf w) i x
  addr j y e' := by
    rw [State.station_setStation] at e'
    split at e'
    · next eq => cases e'; exact ⟨st, eq ▸ at_, e⟩
    · exact n.addr j y e'
  passesWf := n.passesWf
  number := n.number

theorem State.NoNewNames.updateStation (i : Nat) {f : Station → Station} (e : ∀ x, (f x).addr = x.addr := by exact fun _ => rfl) :
    s.NoNewNames (t.updateStation i f) where
  stationsWf w := Table.wf_update (n.stationsWf w) i f
  addr j y e' := by
    rw [State.station_updateStation] at e'
    split at e'
    · obtain ⟨x, hx, rfl⟩ := Option.map_eq_some_iff.1 e'
      obtain ⟨st, at_, ex⟩ := n.addr j x hx
      exact ⟨st, at_, (e x).trans ex⟩
    · exact n.addr j y e'
  passesWf := n.passesWf
  number := n.number

theorem State.NoNewNames.setPass {p : Nat} {q x : Pass} (at_ : s.pass p = some q) (e : x.number = q.number) :
    s.NoNewNames (t.setPass p x) where
  stationsWf := n.stationsWf
  addr := n.addr
  passesWf w := Table.wf_put (n.passesWf w) p x
  number j y e' := by
    rw [State.pass_setPass] at e'
    split at e'
    · next eq => cases e'; exact ⟨q, eq ▸ at_, e⟩
    · exact n.number j y e'

/-- A pass record written where one stands. -/
theorem State.NoNewNames.rewritePass {p : Nat} {q x : Pass} (at_ : t.pass p = some q) (e : x.number = q.number) :
    s.NoNewNames (t.setPass p x) :=
  n.trans ((State.NoNewNames.refl t).setPass at_ e)

theorem State.NoNewNames.updatePass (p : Nat) {f : Pass → Pass} (e : ∀ x, (f x).number = x.number := by exact fun _ => rfl) :
    s.NoNewNames (t.updatePass p f) where
  stationsWf := n.stationsWf
  addr := n.addr
  passesWf w := Table.wf_update (n.passesWf w) p f
  number j y e' := by
    rw [State.pass_updatePass] at e'
    split at e'
    · obtain ⟨x, hx, rfl⟩ := Option.map_eq_some_iff.1 e'
      obtain ⟨q, at_, ex⟩ := n.number j x hx
      exact ⟨q, at_, (e x).trans ex⟩
    · exact n.number j y e'

theorem State.NoNewNames.dropPass (p : Nat) : s.NoNewNames { t with passes := Table.drop t.passes p } where
  stationsWf := n.stationsWf
  addr := n.addr
  passesWf w := Table.wf_drop (n.passesWf w) p
  number j y e := by
    have e' : Table.get (Table.drop t.passes p) j = some y := e
    rw [Table.get_drop] at e'
    split at e'
    · cases e'
    · exact n.number j y e'

theorem State.NoNewNames.censusMove (z : Option ZoneId) (a b : Option PassState) : s.NoNewNames (t.censusMove z a b) :=
  n.trans (.of_eq rfl rfl)

theorem State.NoNewNames.markStale (z : Option ZoneId) : s.NoNewNames (t.markStale z) := n.trans (.of_eq rfl rfl)

theorem State.NoNewNames.send (h : HeadId) (f : LinkFrame) : s.NoNewNames (t.send h f) := n.trans (.of_eq rfl rfl)

theorem State.NoNewNames.note (x : Notice) : s.NoNewNames (t.note x) := n.trans (.of_eq rfl rfl)

theorem State.NoNewNames.withRezone (r : Rezone) : s.NoNewNames { t with rezone := r } := n.trans (.of_eq rfl rfl)

theorem State.NoNewNames.rezoneCounts (st : PassState) (a b : Option ZoneId) : s.NoNewNames (t.rezoneCounts st a b) := by
  unfold State.rezoneCounts; split
  · exact n
  · exact (n.censusMove _ _ _).censusMove _ _ _

theorem State.NoNewNames.foldl {β : Type} {f : State → β → State} (each : ∀ u b, s.NoNewNames u → s.NoNewNames (f u b))
    (l : List β) : s.NoNewNames (l.foldl f t) := by
  induction l generalizing t with
  | nil => exact n
  | cons b bs ih => exact ih (each t b n)

/-! ## Unbinding and vacating -/

theorem State.NoNewNames.unbindPass (p : Nat) (a : PassState) : s.NoNewNames (t.unbindPass p a) := by
  unfold State.unbindPass
  split
  · exact n
  · next q e =>
    have moved := (n.rewritePass (x := { q with station := none, state := a }) e rfl).censusMove q.cached (some q.state) (some a)
    dsimp only
    split
    · exact moved
    · exact moved.updateStation _

theorem State.NoNewNames.unbind (p : Nat) (a : PassState) : s.NoNewNames (t.unbind p a) := by
  unfold State.unbind
  split
  · exact n.unbindPass p a
  · exact (n.unbindPass p a).work ((State.Keeps.refl _).unbindStation _)

theorem State.NoNewNames.dropStation (i : Nat) : s.NoNewNames { t with stations := Table.drop t.stations i } :=
  n.work ((State.Keeps.refl _).dropStation i)

theorem State.NoNewNames.vacate (i : Nat) (a b : Bool) : s.NoNewNames (t.vacate i a b) := by
  unfold State.vacate
  split
  · exact n
  · dsimp only
    have aborted : ∀ o : Option Hold, s.NoNewNames (match o with | none => t | some x => t.abortDeparture x b) := by
      intro o; cases o with
      | none => exact n
      | some x => exact n.work ((State.Keeps.refl t).abortDeparture x b)
    have unbound : ∀ (u : State) (o : Option Nat), s.NoNewNames u →
        s.NoNewNames (match o with | none => u | some p => u.unbindPass p .admitted) := by
      intro u o m; cases o with
      | none => exact m
      | some p => exact m.unbindPass p _
    split
    · exact (unbound _ _ (aborted _)).dropStation i
    · refine State.NoNewNames.work ?_ (((State.Keeps.refl _).recompute _).drainCheck _)
      split
      · exact ((unbound _ _ (aborted _)).send _ _).dropStation i
      · exact (unbound _ _ (aborted _)).dropStation i

/-! ## Binding -/

theorem State.NoNewNames.suspectIf {p : Nat} {q x : Pass} (at_ : t.pass p = some q) (e : x.number = q.number) (r : Bool)
    (c : SuspectCause) : s.NoNewNames (t.suspectIf p x r c) := by
  unfold State.suspectIf; split
  · exact (n.rewritePass (x := { x with suspect := true }) at_ e).note _
  · exact n.rewritePass at_ e

theorem State.NoNewNames.bindStation {i p : Nat} {st : Station} (at_ : s.station i = some st) :
    s.NoNewNames (t.bindStation i p st) :=
  (n.setStation (x := { st with state := .seated, pass := some p }) at_ rfl).work ((State.Keeps.refl _).settle i)

end

section
variable {s : State}

theorem State.bind_noNewNames {i p : Nat} {st : Station} {q : Pass} (at_ : s.station i = some st) (e : s.pass p = some q) :
    s.NoNewNames (s.bind i p st q) :=
  (((State.NoNewNames.refl s).setPass (x := { q with state := .seated, station := some i }) e rfl).censusMove
    q.cached (some .admitted) (some .seated)).bindStation at_

theorem State.transfer_noNewNames {i p holder : Nat} {st : Station} {q : Pass} (at_ : s.station i = some st)
    (e : s.pass p = some q) : s.NoNewNames (s.transfer i p holder st q) := by
  have moved := ((State.NoNewNames.refl s).setPass (x := { q with station := some i }) e rfl).updateStation holder
    (f := fun x => { x with pass := none })
  exact (moved.work ((State.Keeps.refl _).trim holder)).bindStation at_

theorem State.bindRequest_noNewNames {i : Nat} {st : Station} (at_ : s.station i = some st) (h : HeadId) (m : PassNumber) :
    s.NoNewNames (s.bindRequest h m i st) := by
  have n := State.NoNewNames.refl s
  unfold State.bindRequest
  dsimp only
  split
  · exact n.send h _
  · split
    · exact n.send h _
    · next p _ =>
      split
      · exact n.send h _
      · next q e =>
        have conflicted : s.NoNewNames (s.conflict p q) := by
          unfold State.conflict; dsimp only; split
          · exact n.suspectIf (x := { q with conflicts := q.conflicts + 1 }) e rfl _ _
          · exact n
        split
        case h_4 =>
          split
          · exact n.send h _
          · exact (State.bind_noNewNames at_ e).send h _
        case h_5 =>
          repeat' split
          · exact n.send h _
          · exact n.send h _
          · exact n.send h _
          · exact (State.transfer_noNewNames at_ e).send h _
          · exact conflicted.send h _
        all_goals exact n.send h _

theorem State.unbindRequest_noNewNames (h : HeadId) (i : Nat) (st : Station) : s.NoNewNames (s.unbindRequest h i st) := by
  unfold State.unbindRequest
  split
  · exact (State.NoNewNames.refl s).send h _
  · exact ((State.NoNewNames.refl s).unbind _ _).send h _

/-! ## Passes -/

theorem State.amend_noNewNames {p : Nat} {q : Pass} (e : s.pass p = some q) (tier : Tier) (seat : Option (BitVec 16))
    (declared : Option ZoneId) : s.NoNewNames (s.amend p q tier seat declared) := by
  have written := ((State.NoNewNames.refl s).setPass (x := { q with
    tier := tier, seat := seat, declared := declared, cached := s.cachedZone seat declared }) e rfl).rezoneCounts
    q.state q.cached (s.cachedZone seat declared)
  have aligned : ∀ (u : State) (i : Nat), u.Keeps (u.bringIntoLine i) := by
    intro u i
    have k := State.Keeps.refl u
    unfold State.bringIntoLine; dsimp only; split
    · exact ((k.setReservation i).trim i).recomputeBoth i
    · exact (k.setReservation i).recomputeOf i
  unfold State.amend
  dsimp only
  split
  · split
    · exact written.work ((State.Keeps.refl _).settle _)
    · exact written.work (aligned _ _)
  · exact written

theorem State.scan_noNewNames {p : Nat} {q : Pass} (e : s.pass p = some q) (gate : Nat) (dir : ScanDirection) :
    s.NoNewNames (s.scan p gate q dir).state := by
  have n := State.NoNewNames.refl s
  have passed : s.NoNewNames (s.passback p q) :=
    n.suspectIf (x := { q with passbacks := countUp 255 q.passbacks }) e rfl _ _
  have admitted : ∀ x : Pass, x.number = q.number → s.NoNewNames (s.admitPass p gate x) := fun x ex =>
    (n.setPass (x := { x with state := .admitted, lastGate := some gate }) e ex).censusMove _ _ _
  have entered : s.NoNewNames (s.scanIn p gate q).1 := by
    unfold State.scanIn
    repeat' split
    · exact admitted q rfl
    · exact admitted _ rfl
    · exact n
    · exact passed
    · exact passed
    · exact n
  have left_ : s.NoNewNames (s.scanOut p gate q).1 := by
    unfold State.scanOut
    split
    · exact passed
    · exact passed
    · exact (n.unbind p .out).updatePass p
    · exact (n.unbind p .out).updatePass p
    · exact n
  unfold State.scan
  cases dir with
  | into => dsimp only; split <;> exact entered
  | outOf => dsimp only; split <;> exact left_

theorem State.visitPass_noNewNames (p : Nat) : s.NoNewNames (s.visitPass p) := by
  have n := State.NoNewNames.refl s
  unfold State.visitPass
  split
  · exact n
  · next q e =>
    have zoned : s.NoNewNames (s.visitZone p q) := by
      unfold State.visitZone
      dsimp only
      split
      · exact n
      · have counted := (n.setPass (x := { q with cached := s.cachedZone q.seat q.declared }) e rfl).rezoneCounts
          q.state q.cached (s.cachedZone q.seat q.declared)
        refine State.NoNewNames.withRezone ?_ _
        split
        · exact (counted.markStale _).markStale _
        · exact counted
    unfold State.visitStation
    split
    · split
      · exact (zoned.work (((State.Keeps.refl _).trim _).recomputeBoth _)).withRezone _
      · exact zoned
    · exact zoned

theorem State.advanceCursor_noNewNames : s.NoNewNames s.advanceCursor := by
  unfold State.advanceCursor
  dsimp only
  split
  · exact .of_eq rfl rfl
  · split <;> exact .of_eq rfl rfl

end

end Sys2Proof.Machine

/-!
PROOF LAYER. The clip records, the slots and the stacked DRAM keep their canonical form under the work of the ingest and playout
commands (R141, R144).
-/
namespace Sys2Proof.Machine

/-- The clip records, slots and stacked DRAM in their canonical form. -/
def State.ClipStoreInv (s : State) : Prop := s.ClipsInv ∧ Memory.wf s.dram

theorem State.ClipStoreInv.of_eq {s t : State} (c : s.ClipStoreInv) (clips : t.clips = s.clips) (slots : t.slots = s.slots)
    (dram : t.dram = s.dram) : t.ClipStoreInv := by
  simpa only [State.ClipStoreInv, State.ClipsInv, clips, slots, dram] using c

/-- Clips that stood before, by the same keys, and a slot pool in its form. -/
theorem State.ClipStoreInv.of_old {s t : State} (c : s.ClipStoreInv) (w : Table.wf t.clips)
    (old : ∀ i x, t.clip i = some x → ∃ k, s.clip i = some k ∧ x.key = k.key)
    (slots : Table.wf t.slots ∧ ∀ p ∈ t.slots, p.1 < 16384) (dram : Memory.wf t.dram) : t.ClipStoreInv :=
  ⟨State.clipsInv_iff.2 ⟨(State.clipsInv_iff.1 c.1).1.of_old w old, slots⟩, dram⟩

theorem State.ClipStoreInv.slots {s : State} (c : s.ClipStoreInv) : Table.wf s.slots ∧ ∀ p ∈ s.slots, p.1 < 16384 :=
  c.1.2.2.2

theorem State.clip_updateClip (s : State) (i j : Nat) (f : Clip → Clip) :
    (s.updateClip i f).clip j = if j = i then (s.clip j).map f else s.clip j := Table.get_update _ _ _ _

theorem Table.lowestFree_lt {α : Type} {t : Table α} {size i : Nat} (e : Table.lowestFree t size = some i) : i < size := by
  simp only [Table.lowestFree] at e
  split at e
  · next lt => cases e; exact lt
  · cases e

/-- Room made for a clip leaves no clip that did not stand before. -/
theorem State.clip_of_roomForClip {s : State} {j : Nat} {x : Clip} (e : s.roomForClip.clip j = some x) : s.clip j = some x := by
  unfold State.roomForClip State.evict State.vacateClip at e
  split at e
  · exact e
  · split at e
    · exact e
    · split at e
      · exact e
      · have e' : Table.get (Table.drop s.clips _) j = some x := e
        rw [Table.get_drop] at e'
        split at e'
        · cases e'
        · exact e'

section
variable {s : State} (c : s.ClipStoreInv)
include c

/-! ## The named operations -/

theorem State.ClipStoreInv.updateClip (i : Nat) {f : Clip → Clip} (e : ∀ x, (f x).key = x.key := by exact fun _ => rfl) :
    (s.updateClip i f).ClipStoreInv := by
  refine c.of_old (Table.wf_update c.1.1 i f) (fun j x e' => ?_) c.slots c.2
  rw [State.clip_updateClip] at e'
  split at e'
  · obtain ⟨k, hk, rfl⟩ := Option.map_eq_some_iff.1 e'
    exact ⟨k, hk, e k⟩
  · exact ⟨x, e', rfl⟩

theorem State.ClipStoreInv.setChannel (ch : Chan) (x : Channel) : (s.setChannel ch x).ClipStoreInv := c.of_eq rfl rfl rfl
theorem State.ClipStoreInv.setHead (h : HeadId) (x : Head) : (s.setHead h x).ClipStoreInv := c.of_eq rfl rfl rfl
theorem State.ClipStoreInv.note (n : Notice) : (s.note n).ClipStoreInv := c.of_eq rfl rfl rfl
theorem State.ClipStoreInv.updateIngest (p : Port) (f : IngestPort → IngestPort) : (s.updateIngest p f).ClipStoreInv :=
  c.of_eq rfl rfl rfl
theorem State.ClipStoreInv.tally (p : Port) (f : PortCounts → PortCounts) : (s.tally p f).ClipStoreInv := c.of_eq rfl rfl rfl
theorem State.ClipStoreInv.dropUnplaced (p : Port) : (s.dropUnplaced p).ClipStoreInv := c.of_eq rfl rfl rfl
theorem State.ClipStoreInv.dropForeign (p : Port) : (s.dropForeign p).ClipStoreInv := c.of_eq rfl rfl rfl
theorem State.ClipStoreInv.dropDuplicate (p : Port) : (s.dropDuplicate p).ClipStoreInv := c.of_eq rfl rfl rfl
theorem State.ClipStoreInv.stopIfEmpty (k : Key) : (s.stopIfEmpty k).ClipStoreInv := c.of_eq rfl rfl rfl

theorem State.ClipStoreInv.freeSlotList (xs : List Nat) : (s.freeSlotList xs).ClipStoreInv :=
  c.of_old c.1.1 (fun _ x e => ⟨x, e, rfl⟩)
    ⟨Table.wf_filter c.slots.1 _, fun p mem => c.slots.2 p (List.mem_filter.1 mem).1⟩ c.2

theorem State.ClipStoreInv.fillSlot {slot : Nat} (small : slot < 16384) (payload : List Byte) :
    (s.fillSlot slot payload).ClipStoreInv := by
  refine c.of_old c.1.1 (fun _ x e => ⟨x, e, rfl⟩) ⟨Table.wf_put c.slots.1 _ _, fun p mem => ?_⟩ (Memory.wf_writeBytes c.2 _ _)
  rcases Table.mem_put mem with rfl | old
  · exact small
  · exact c.slots.2 p old

theorem State.ClipStoreInv.foldl {β : Type} {f : State → β → State}
    (each : ∀ u b, u.ClipStoreInv → (f u b).ClipStoreInv) (l : List β) : (l.foldl f s).ClipStoreInv := by
  induction l generalizing s with
  | nil => exact c
  | cons b bs ih => exact ih (each s b c)

theorem State.ClipStoreInv.recompute (h : HeadId) : (s.recompute h).ClipStoreInv := by
  unfold State.recompute; split
  · exact c
  · exact c.of_eq rfl rfl rfl

theorem State.ClipStoreInv.recomputeAll : s.recomputeAll.ClipStoreInv := c.foldl (fun _ h cu => cu.recompute h) _

theorem State.ClipStoreInv.reportLevel (ch : Chan) (l m : Level) : (s.reportLevel ch l m).ClipStoreInv := by
  have from_ : ∀ (u : State) (h : HeadId), u.ClipStoreInv → (State.fromVenueAt ch u h).ClipStoreInv := by
    intro u h cu
    unfold State.fromVenueAt
    repeat' split
    all_goals exact cu
  have to_ : ∀ (u : State) (h : HeadId), u.ClipStoreInv → (State.toVenueAt ch u h).ClipStoreInv := by
    intro u h cu
    unfold State.toVenueAt
    repeat' split
    all_goals exact cu
  unfold State.reportLevel
  repeat' split
  · exact c
  · exact c.foldl from_ _
  · exact c.foldl to_ _
  · exact c

theorem State.ClipStoreInv.deliver (ch : Chan) (f : Nat → LinkFrame) : (s.deliver ch f).ClipStoreInv := by
  refine c.foldl (fun u h cu => ?_) _
  unfold State.deliverAt; split
  · exact cu
  · exact cu.of_eq rfl rfl rfl

/-! ## The Cue Controller -/

theorem State.ClipStoreInv.use (i : Nat) : (s.use i).ClipStoreInv := c.updateClip i
theorem State.ClipStoreInv.unuse (i : Nat) : (s.unuse i).ClipStoreInv := c.updateClip i

theorem State.ClipStoreInv.startEntry (ch : Chan) (l : Level) (p : Pending) : (s.startEntry ch l p).ClipStoreInv := by
  unfold State.startEntry
  dsimp only
  repeat' split
  · exact (c.setChannel ch _).recomputeAll
  · exact (c.setChannel ch _).reportLevel ..
  · exact ((c.setChannel ch _).reportLevel ..).note _

theorem State.ClipStoreInv.requestEntry (ch : Chan) (l : Level) (p : Pending) : (s.requestEntry ch l p).ClipStoreInv := by
  have made : (s.makePending ch l p).ClipStoreInv := by
    unfold State.makePending
    dsimp only
    split
    · exact (c.use _).setChannel ch _
    · exact ((c.use _).unuse _).setChannel ch _
  unfold State.requestEntry
  dsimp only
  split
  · exact made.startEntry ch l p
  · exact made

theorem State.ClipStoreInv.choose (ch : Chan) (l : Level) : (s.choose ch l).ClipStoreInv := by
  unfold State.choose
  dsimp only
  repeat' split
  · exact (c.setChannel ch _).reportLevel ..
  · exact (c.setChannel ch _).reportLevel ..
  · exact (c.setChannel ch _).recomputeAll

theorem State.ClipStoreInv.weighPending (ch : Chan) : (s.weighPending ch).ClipStoreInv := by
  unfold State.weighPending; split
  · exact c
  · exact c.startEntry ..

theorem State.ClipStoreInv.autoCue (i : Nat) (p : Program) : (s.autoCue i p).ClipStoreInv :=
  c.foldl (fun _ ch cu => cu.requestEntry ch _ _) _

theorem State.ClipStoreInv.stopLevels (ch : Chan) (ls : LevelSet) : (s.stopLevels ch ls).state.ClipStoreInv := by
  have one : ∀ (u : State) (l : Level), u.ClipStoreInv → (State.stopLevel ch u l).ClipStoreInv := by
    intro u l cu
    unfold State.stopLevel
    dsimp only
    refine State.ClipStoreInv.setChannel ?_ ch _
    repeat' split
    · exact cu
    · exact cu.unuse _
    · exact cu.unuse _
    · exact (cu.unuse _).unuse _
  unfold State.stopLevels
  dsimp only
  repeat' split
  · exact c.foldl one _
  · exact (c.foldl one _).choose ..
  · exact c.foldl one _

/-! ## The Playout Unit -/

theorem State.ClipStoreInv.grant : s.grant.ClipStoreInv := by
  unfold State.grant
  repeat' split
  all_goals exact c

theorem State.ClipStoreInv.requestRead (ch : Chan) (l : Level) (i n : Nat) : (s.requestRead ch l i n).ClipStoreInv :=
  ((c.use i).setChannel ch _).grant

theorem State.ClipStoreInv.endEntry (ch : Chan) (l : Level) (e : InService) : (s.endEntry ch l e).ClipStoreInv :=
  (((c.setChannel ch _).unuse e.clip).choose ch l).note _

theorem State.ClipStoreInv.serveAt (ch : Chan) (l : Level) (e : InService) (k : Clip) {f : State → State}
    (atEnd : (f s).ClipStoreInv) : (s.serveAt ch l e k f).ClipStoreInv := by
  unfold State.serveAt
  split
  · exact c.requestRead ..
  · split
    · exact atEnd
    · exact (c.deliver ..).setChannel ..

theorem State.ClipStoreInv.atEntryEnd (ch : Chan) (l : Level) (e : InService) (k : Clip) :
    (State.atEntryEnd ch l e k s).ClipStoreInv := by
  unfold State.atEntryEnd
  split
  · exact (c.setChannel ch _).serveAt ch l _ k ((c.setChannel ch _).endEntry ..)
  · exact c.endEntry ..

theorem State.ClipStoreInv.serveCurrent (ch : Chan) : (s.serveCurrent ch).ClipStoreInv := by
  unfold State.serveCurrent
  repeat' split
  · exact c
  · exact c
  · exact c
  · exact c.atEntryEnd ..
  · exact c.serveAt _ _ _ _ (c.atEntryEnd ..)

theorem State.ClipStoreInv.deliverSegment (ch : Chan) (r : Read) : (s.deliverSegment ch r).ClipStoreInv := by
  unfold State.deliverSegment
  dsimp only
  split
  · exact (c.deliver ..).setChannel ..
  · exact c

/-! ## The Clip Store -/

theorem State.ClipStoreInv.vacateClip (i : Nat) : (s.vacateClip i).ClipStoreInv := by
  unfold State.vacateClip
  split
  · exact c
  · next k _ =>
    have freed := c.freeSlotList k.segments
    refine freed.of_old (Table.wf_drop c.1.1 i) (fun j x e => ⟨x, ?_, rfl⟩) freed.slots freed.2
    have e' : Table.get (Table.drop s.clips i) j = some x := e
    rw [Table.get_drop] at e'
    split at e'
    · cases e'
    · exact e'

theorem State.ClipStoreInv.evict (b : Bool) : (s.evict b).ClipStoreInv := by
  unfold State.evict; split
  · exact c
  · exact (c.vacateClip _).note _

theorem State.ClipStoreInv.roomForSlot : s.roomForSlot.ClipStoreInv := by
  unfold State.roomForSlot; split
  · exact c
  · exact c.evict _

theorem State.ClipStoreInv.roomForClip : s.roomForClip.ClipStoreInv := by
  unfold State.roomForClip; split
  · exact c
  · exact c.evict _

theorem State.ClipStoreInv.releaseAt (p : Port) (pick : HeldSegment → Bool) (f : Nat → PortCounts → PortCounts) :
    (s.releaseAt p pick f).ClipStoreInv := (c.updateIngest p _).freeSlotList _

theorem State.ClipStoreInv.release (k : Key) (pick : HeldSegment → Bool) : (s.release k pick).ClipStoreInv :=
  ((c.releaseAt ..).releaseAt ..).stopIfEmpty k

theorem State.ClipStoreInv.releaseKey (k : Key) : (s.releaseKey k).ClipStoreInv := c.release k _

theorem State.ClipStoreInv.damage (i : Nat) (k : Clip) (d : DamageCause) : (s.damage i k d).ClipStoreInv :=
  ((c.updateClip i).releaseKey _).note _

theorem State.ClipStoreInv.readyTest (i : Nat) : (s.readyTest i).ClipStoreInv := by
  unfold State.readyTest
  repeat' split
  · exact c
  · exact ((c.updateClip i).releaseKey _).note _
  · exact c

theorem State.ClipStoreInv.drain (i n : Nat) : (State.drain i n s).ClipStoreInv := by
  induction n generalizing s with
  | zero => exact c
  | succ n ih =>
    unfold State.drain
    repeat' split
    · exact c
    · exact c
    · exact ih ((c.updateClip i).updateIngest _ _)

theorem State.ClipStoreInv.settleClip (i : Nat) : (s.settleClip i).ClipStoreInv := by
  unfold State.settleClip
  dsimp only
  split
  · exact c.drain ..
  · exact ((((c.drain ..).releaseAt ..).releaseAt ..).stopIfEmpty _).readyTest i

/-! ## The Ingest Unit -/

theorem State.ClipStoreInv.cannotHold (p : Port) (k : Key) (x : Option (Nat × Clip)) (d : DamageCause) :
    (s.cannotHold p k x d).ClipStoreInv := by
  unfold State.cannotHold; split
  · exact (c.dropUnplaced p).damage ..
  · exact ((c.dropUnplaced p).releaseKey k).note _

theorem State.ClipStoreInv.hold (p : Port) (f : SegmentFrame) (x : Option (Nat × Clip)) : (s.hold p f x).ClipStoreInv := by
  unfold State.hold
  dsimp only
  repeat' split
  · exact c.cannotHold ..
  · exact c.roomForSlot.cannotHold ..
  · next e =>
    refine (State.ClipStoreInv.fillSlot ?_ (Table.lowestFree_lt e) _).updateIngest p _
    exact c.roomForSlot.of_eq rfl rfl rfl

theorem State.ClipStoreInv.place (p : Port) (f : SegmentFrame) (i : Nat) (k : Clip) : (s.place p f i k).ClipStoreInv := by
  have appended : (s.append p f i k).ClipStoreInv := by
    unfold State.append
    dsimp only
    split
    · exact (c.roomForSlot.dropUnplaced p).damage ..
    · next e => exact ((c.roomForSlot.fillSlot (Table.lowestFree_lt e) _).updateClip i).settleClip i
  have early : (s.early p f i k).ClipStoreInv := by
    unfold State.early
    repeat' split
    · exact c.dropDuplicate p
    · exact c.hold ..
    · exact (c.dropUnplaced p).damage ..
  unfold State.place
  repeat' split
  · exact appended
  · exact c.dropDuplicate p
  · exact c.dropUnplaced p
  · exact early
  · exact early

theorem State.ClipStoreInv.afterClose (p : Port) (f : SegmentFrame) (i : Nat) : (s.afterClose p f i).ClipStoreInv := by
  unfold State.afterClose
  split
  · exact c
  · refine State.ClipStoreInv.readyTest ?_ i
    split
    · exact c
    · exact c.place ..

theorem State.ClipStoreInv.closeAndPlace (p : Port) (f : SegmentFrame) (i : Nat) (k : Clip) :
    (s.closeAndPlace p f i k).ClipStoreInv := by
  have conflict : (s.closeConflict p f i k).ClipStoreInv := by
    unfold State.closeConflict
    refine State.ClipStoreInv.damage ?_ i k _
    split
    · exact c
    · exact c.dropUnplaced p
  unfold State.closeAndPlace
  repeat' split
  · exact c.afterClose ..
  · exact conflict
  · exact conflict
  · exact ((c.updateClip i).release ..).afterClose ..
  · exact c
  · exact c.place ..

theorem State.ClipStoreInv.handleFrame (p : Port) (f : SegmentFrame) : (s.handleFrame p f).ClipStoreInv := by
  unfold State.handleFrame
  repeat' split
  · exact c.hold ..
  · exact c.dropUnplaced p
  · exact c
  · exact c.dropUnplaced p
  · exact c.dropForeign p
  · exact c.closeAndPlace ..

/-- A clip created in a vacant record under a key that none has (R141, R146). -/
theorem State.ClipStoreInv.openClip {i : Nat} (small : i < 64) (p : Port) {key : Key}
    (new : ∀ j x, s.clip j = some x → x.key ≠ key) : (s.openClip i p key).ClipStoreInv :=
  ⟨State.clipsInv_iff.2 ⟨(State.clipsInv_iff.1 c.1).1.put small trivial fun j y e same => absurd same (new j y e), c.slots⟩, c.2⟩

theorem State.ClipStoreInv.openFrame (p : Port) (f : SegmentFrame) (new : ∀ j x, s.clip j = some x → x.key ≠ f.key) :
    (s.openFrame p f).ClipStoreInv := by
  unfold State.openFrame
  dsimp only
  split
  · refine State.ClipStoreInv.note (State.ClipStoreInv.releaseKey ?_ _) _
    exact c.roomForClip.of_eq rfl rfl rfl
  · next i e =>
    have opened := c.roomForClip.openClip (Table.lowestFree_lt e) p (key := f.key)
      fun j x at_ => new j x (State.clip_of_roomForClip at_)
    exact (opened.handleFrame p f).autoCue ..

theorem State.ClipStoreInv.takeSegment (p : Port) (f : SegmentFrame) : (s.takeSegment p f).ClipStoreInv := by
  have opened : (s.takeOpen p f).ClipStoreInv := by
    unfold State.takeOpen
    split
    · next e =>
      refine c.openFrame p f fun j x at_ same => ?_
      have found := (State.lookupClip_eq_some c.1).2 ⟨x, at_, same⟩
      rw [found, Option.bind_some, at_] at e
      cases e
    · repeat' split
      · exact c.dropUnplaced p
      · exact c.dropForeign p
      · exact c.handleFrame p f
  unfold State.takeSegment
  repeat' split
  · exact c.dropForeign p
  · exact opened
  · exact c.handleFrame p f

theorem State.ClipStoreInv.goodFrame (p : Port) (f : SegmentFrame) (b : Bool) : (s.goodFrame p f b).ClipStoreInv := by
  unfold State.goodFrame
  dsimp only
  split
  · exact c.tally ..
  · exact (c.tally ..).takeSegment ..

theorem State.ClipStoreInv.holdTimeout (k : Key) : (s.holdTimeout k).ClipStoreInv := by
  unfold State.holdTimeout
  repeat' split
  · exact (c.releaseKey k).note _
  · exact c
  · exact c.damage ..
  · exact c

end

end Sys2Proof.Machine

/-!
PROOF LAYER. What whole commands leave alone: the bowl's records (`State.bowlView`: the commands of the control link, of the Playout
Unit and of the Clip Store, the queries, and most of the heads' own), or every name, pass and zone record (`State.Tended`: most
commands about stations).
-/
namespace Sys2Proof.Machine

/-! ## Relations between the states before and after a command -/

/-- A relation between the states before and after some work that the control link's own work obeys. -/
structure LinkWork (R : State → State → Prop) : Prop where
  refl  : ∀ s, R s s
  trans : ∀ {s t u}, R s t → R t u → R s u
  flush : ∀ s : State, R s s.flush
  reply : ∀ (s : State) type tag c x, R s (s.reply type tag c x)
  take  : ∀ {s u : State} {type tag : Byte}, s.takeRequest type tag = some u → R s u

/-- What a command gives stands in a relation to the state before. -/
def Leads (R : State → State → Prop) (s : State) (r : Result) : Prop := ∀ t, r = .next t → R s t

theorem Leads.next {R : State → State → Prop} {s t : State} (r : R s t) : Leads R s (.next t) := by rintro u ⟨⟩; exact r

section
variable {R : State → State → Prop} (w : LinkWork R) {s : State}
include w


theorem LinkWork.done {t : State} (r : R s t) : Leads R s t.done := .next (w.trans r (w.flush t))

theorem LinkWork.serve (f : Req) (type : Byte) (work : State → Served) (wrong : State → Content)
    (each : ∀ u, R u (work u).state) : Leads R s (.next (s.serve f type work wrong)) := by
  refine .next ?_
  unfold State.serve
  split
  · exact w.refl s
  · next u e =>
    dsimp only
    refine w.trans (w.take e) (w.trans ?_ (w.trans (w.reply _ _ _ _ _) (w.flush _)))
    split
    · exact each u
    · exact w.refl u

theorem LinkWork.withHead (head : Nat) {work : HeadId → State → Served} (ended : ∀ h, R s (s.endSequence h))
    (each : ∀ h t, R t (work h t).state) : R s (s.withHead head work).state := by
  unfold State.withHead
  split
  · exact w.refl s
  · exact w.trans (ended _) (each _ _)

theorem LinkWork.forMember (h : HeadId) (a : StationAddress) {work : Nat → Station → State}
    (each : ∀ i st, s.station i = some st → R s (work i st)) : R s (s.forMember h a work) := by
  unfold State.forMember
  split
  · exact w.refl s
  · split
    · exact w.refl s
    · next e =>
      split
      · exact each _ _ e
      · exact w.refl s

end

theorem State.handOn_leads {R : State → State → Prop} {s : State} (h : HeadId) {work : State → State} (discards : R s (s.discard (linkOf h))) (done : R s (work s)) :
    R s (s.handOn h work) := by
  unfold State.handOn; split
  · exact discards
  · exact done

/-! ## Commands that leave the bowl's records alone -/

/-- The bowl's records: stations, holds, passes, zones and the re-zone pass, what the host sets, and which heads serve. -/
def State.bowlView (s : State) :=
  (s.stationView, s.passView, s.tiers, s.unbound, s.roam, fun h => (s.head h).serving)

/-- The bowl's records stay as they are. -/
def State.Quiet (s t : State) : Prop := t.bowlView = s.bowlView

theorem State.serving_of_headsView {s t : State} (e : t.headsView = s.headsView) (h : HeadId) :
    (t.head h).serving = (s.head h).serving := by
  have := congrArg Head.state (State.closed_of_headsView e h)
  simp only [Head.closed] at this
  simp only [Head.serving, this]

theorem State.Quiet.of_eq {s t : State} (heads : ∀ h, (t.head h).serving = (s.head h).serving) (stations : t.stations = s.stations)
    (holds : t.holds = s.holds) (passes : t.passView = s.passView) (tiers : t.tiers = s.tiers) (unbound : t.unbound = s.unbound)
    (roam : t.roam = s.roam) : s.Quiet t := by
  simp only [State.Quiet, State.bowlView, State.stationView, stations, holds, passes, tiers, unbound, roam, heads]

/-- Work of the ingest and playout commands. -/
theorem State.Quiet.replay {s t : State} (heads : t.headsView = s.headsView) (b : t.besideReplay = s.besideReplay) : s.Quiet t := by
  obtain ⟨-, config, stations, passes, -⟩ := by simpa only [State.besideReplay, Prod.mk.injEq] using b
  simp only [State.stationView, State.configView, Prod.mk.injEq] at stations config
  exact .of_eq (State.serving_of_headsView heads) stations.1 stations.2 passes config.1 config.2.1 config.2.2.1

/-- A head record written that serves as the one before does. -/
theorem State.Quiet.setHead {s : State} {h : HeadId} {x : Head} (e : x.serving = (s.head h).serving) : s.Quiet (s.setHead h x) := by
  refine .of_eq (fun g => ?_) rfl rfl rfl rfl rfl rfl
  rw [State.head_setHead]
  split
  · next at_ => rw [at_, e]
  · rfl

theorem State.quiet_linkWork : LinkWork State.Quiet where
  refl _ := rfl
  trans h k := k.trans h
  flush s := by rw [State.flush_eq]; exact .of_eq (fun _ => rfl) rfl rfl rfl rfl rfl rfl
  reply _ _ _ _ _ := rfl
  take e := by obtain ⟨-, ⟨-, rfl⟩ | ⟨g, rest, -, -, -, -, rfl⟩⟩ := State.takeRequest_eq_some e <;> rfl

theorem State.endSequence_quiet (s : State) (h : HeadId) : s.Quiet (s.endSequence h) := .setHead rfl

/-- What the host sets of the bowl's records. -/
def State.hostSet (s : State) := (s.tiers, s.unbound, s.roam)

theorem State.hostSet_of_aside {s t : State} (e : t.aside = s.aside) : t.hostSet = s.hostSet := by
  rw [State.eq_of_aside e]; rfl

theorem State.recompute_quiet (s : State) (h : HeadId) : s.Quiet (s.recompute h) := by
  have host := State.hostSet_of_aside (s.recompute_aside h)
  simp only [State.hostSet, Prod.mk.injEq] at host
  exact .of_eq (State.serving_of_headsView (s.recompute_headsView h)) (s.recompute_stations h) (s.recompute_holds h)
    (State.passView_of_aside (s.recompute_aside h)) host.1 host.2.1 host.2.2

theorem State.stopLevel_besideReplay (u : State) (c : Chan) (l : Level) : (State.stopLevel c u l).besideReplay = u.besideReplay := by
  unfold State.stopLevel
  dsimp only
  rw [State.setChannel_besideReplay]
  repeat' split
  all_goals simp

theorem State.stopLevels_besideReplay (u : State) (c : Chan) (ls : LevelSet) :
    (u.stopLevels c ls).state.besideReplay = u.besideReplay := by
  unfold State.stopLevels
  dsimp only
  repeat' split
  all_goals simp [foldl_kept _ _ fun t l => t.stopLevel_besideReplay c l]

section
variable (s : State) (f : Req)

theorem execHeartbeat_quiet (h : HeadId) : Leads State.Quiet s (execHeartbeat h s) := by
  refine State.quiet_linkWork.done ?_
  have heard : ∀ t : State, t.Quiet (t.hearHead h) := fun t => .setHead rfl
  have dark : (s.head h).serving = false → s.Quiet (s.headToDark h) := fun idle =>
    State.quiet_linkWork.trans (.setHead (x := { s.head h with state := .dark }) idle.symm) (heard _)
  split
  · next e => exact dark (by simp [Head.serving, e])
  · next e => exact dark (by simp [Head.serving, e])
  all_goals exact heard s

theorem execHeadSetupPart1_quiet (head radio step : Nat) : Leads State.Quiet s (execHeadSetupPart1 f head radio step s) := by
  refine State.quiet_linkWork.serve f _ _ _ fun u => ?_
  split
  · exact rfl
  · split
    · exact rfl
    · split
      · exact .setHead rfl
      · exact rfl

theorem execHeadSetupPart2_quiet (head cap floor : Nat) : Leads State.Quiet s (execHeadSetupPart2 f head cap floor s) := by
  refine State.quiet_linkWork.serve f _ _ _ fun u => ?_
  split
  · exact rfl
  · split
    · exact rfl
    · split
      · exact .setHead rfl
      · exact rfl

theorem execHeadSetupPart3_quiet (head : Nat) (ns : List Nat) : Leads State.Quiet s (execHeadSetupPart3 f head ns s) := by
  refine State.quiet_linkWork.serve f _ _ _ fun u => ?_
  split
  · exact rfl
  · split
    · exact rfl
    · split
      · exact rfl
      · exact .setHead rfl

/-- A request naming a head whose work leaves the bowl's records alone. -/
theorem State.serveHead_quiet (head : Nat) (type : Byte) {work : HeadId → State → Served} (wrong : State → Content)
    (each : ∀ h t, State.Quiet t (work h t).state) :
    Leads State.Quiet s (.next (s.serve f type (fun u => u.withHead head work) wrong)) :=
  State.quiet_linkWork.serve f _ _ _ fun u => State.quiet_linkWork.withHead head u.endSequence_quiet each

theorem execHeadControlStart_quiet (head : Nat) (known : Bool) :
    Leads State.Quiet s (execHeadControlStart f head known s) := by
  refine s.serveHead_quiet f head _ _ fun h t => ?_
  split
  · unfold State.startHead
    dsimp only
    split
    · next c =>
      have dark : ({ t.head h with state := .starting, startTimer := some (t.now + ms 500) } : Head).serving
          = (t.head h).serving := by simp only [Head.serving, c.2.1]; decide
      exact (State.Quiet.setHead dark : t.Quiet (t.setHead h _))
    · exact rfl
  · exact rfl

theorem execHeadLimits_quiet (head cap floor : Nat) : Leads State.Quiet s (execHeadLimits f head cap floor s) := by
  refine s.serveHead_quiet f head _ _ fun h t => ?_
  dsimp only
  split
  · split
    · exact State.quiet_linkWork.trans (.setHead (x := { t.head h with cap := cap, floor := floor }) rfl)
        (State.recompute_quiet _ h)
    · exact rfl
  · exact rfl

theorem execHeadQuery_quiet (head : Nat) : Leads State.Quiet s (execHeadQuery f head s) :=
  s.serveHead_quiet f head _ _ fun _ _ => rfl

theorem execHeadStats_quiet (head : Nat) : Leads State.Quiet s (execHeadStats f head s) :=
  s.serveHead_quiet f head _ _ fun _ _ => rfl

theorem execStationQuery_quiet (r : StationRef) : Leads State.Quiet s (execStationQuery f r s) := by
  refine State.quiet_linkWork.serve f _ _ _ fun u => ?_
  cases r with
  | index => dsimp only; split <;> rfl
  | address => dsimp only; split <;> rfl

theorem execPassQuery_quiet (r : PassRef) : Leads State.Quiet s (execPassQuery f r s) := by
  refine State.quiet_linkWork.serve f _ _ _ fun u => ?_
  cases r with
  | index => dsimp only; split <;> rfl
  | number => dsimp only; split <;> rfl

theorem execZoneQuery_quiet (z : Nat) : Leads State.Quiet s (execZoneQuery f z s) := by
  refine State.quiet_linkWork.serve f _ _ _ fun u => ?_
  split <;> rfl

theorem execSegmentFrame_quiet (p : Port) (bytes : List Byte) : Leads State.Quiet s (execSegmentFrame p bytes s) := by
  refine State.quiet_linkWork.done ?_
  split
  · split
    · exact rfl
    · exact .replay (by simp) (s.goodFrame_besideReplay ..)
  · exact rfl

theorem execHoldTimerExpiry_quiet (key : Key) : Leads State.Quiet s (execHoldTimerExpiry key s) := by
  refine State.quiet_linkWork.done ?_
  split
  · exact rfl
  · next t _ =>
    exact State.quiet_linkWork.trans (t := s.expireAt t.2) rfl
      (.replay (State.holdTimeout_headsView _ _) (State.holdTimeout_besideReplay _ _))

theorem execPaceTimerExpiry_quiet (c : Chan) : Leads State.Quiet s (execPaceTimerExpiry c s) := by
  refine State.quiet_linkWork.done ?_
  split
  · exact rfl
  · dsimp only
    split
    · exact rfl
    · next tm _ _ _ =>
      exact State.quiet_linkWork.trans (t := (s.expireAt (tm.due (s.channel c).pace)).setChannel c
          { (s.expireAt (tm.due (s.channel c).pace)).channel c with timer := some { tm with next := tm.next + 1 } }) rfl
        (.replay (State.serveCurrent_headsView _ c) (State.serveCurrent_besideReplay ..))

theorem execReadCompletion_quiet : Leads State.Quiet s (execReadCompletion s) := by
  have granted : ∀ t : State, t.Quiet t.grant := fun t => .replay t.grant_headsView t.grant_besideReplay
  refine State.quiet_linkWork.done ?_
  split
  · exact rfl
  · exact State.quiet_linkWork.trans (t := { s with port := .free }) rfl (granted _)
  · dsimp only
    split
    · exact State.quiet_linkWork.trans (t := { s with port := .free }) rfl (granted _)
    · refine State.quiet_linkWork.trans ?_ (granted _)
      split
      · exact .replay (State.deliverSegment_headsView _ _ _) (State.deliverSegment_besideReplay ..)
      · exact rfl

theorem execIngestMode_quiet (mode : Option IngestMode) (strict : Bool) : Leads State.Quiet s (execIngestMode f mode strict s) := by
  refine State.quiet_linkWork.serve f _ _ _ fun u => ?_
  split
  · exact rfl
  · split <;> rfl

theorem execProgramSet_quiet (program level : Nat) (auto : ChanSet) (loop : Bool) :
    Leads State.Quiet s (execProgramSet f program level auto loop s) := by
  refine State.quiet_linkWork.serve f _ _ _ fun u => ?_
  repeat' split
  all_goals exact rfl

theorem execChannelSetup_quiet (chan pace rated : Nat) (mode : Option ArbMode) :
    Leads State.Quiet s (execChannelSetup f chan pace rated mode s) := by
  refine State.quiet_linkWork.serve f _ _ _ fun u => ?_
  repeat' split
  all_goals exact rfl

theorem execChannelEnable_quiet (andMask orMask : ChanSet) : Leads State.Quiet s (execChannelEnable f andMask orMask s) := by
  refine State.quiet_linkWork.serve f _ _ _ fun u => ?_
  dsimp only
  refine .replay ?_ ?_
  · rw [foldl_kept _ _ fun t c => t.weighPending_headsView c]; rfl
  · rw [foldl_kept _ _ fun t c => t.weighPending_besideReplay c]; rfl

theorem execPlay_quiet (chan clip : Nat) (level : Option Nat) (base : Nat) (count : Option Nat) (loop : Bool) :
    Leads State.Quiet s (execPlay f chan clip level base count loop s) := by
  refine State.quiet_linkWork.serve f _ _ _ fun u => ?_
  repeat' split
  · exact rfl
  · exact rfl
  · exact rfl
  · exact rfl
  · exact .replay (State.requestEntry_headsView ..) (State.requestEntry_besideReplay ..)
  · exact rfl

theorem execStop_quiet (chan : Nat) (ls : LevelSet) : Leads State.Quiet s (execStop f chan ls s) := by
  refine State.quiet_linkWork.serve f _ _ _ fun u => ?_
  split
  · exact rfl
  · exact .replay (State.stopLevels_headsView ..) (State.stopLevels_besideReplay ..)

theorem execChannelStatus_quiet (chan : Nat) : Leads State.Quiet s (execChannelStatus f chan s) := by
  refine State.quiet_linkWork.serve f _ _ _ fun u => ?_
  split <;> rfl

theorem execClipQuery_quiet (r : ClipRef) : Leads State.Quiet s (execClipQuery f r s) := by
  refine State.quiet_linkWork.serve f _ _ _ fun u => ?_
  dsimp only
  repeat' split
  all_goals exact rfl

theorem execClipPin_quiet (clip : Nat) (pin : Bool) : Leads State.Quiet s (execClipPin f clip pin s) := by
  refine State.quiet_linkWork.serve f _ _ _ fun u => ?_
  repeat' split
  all_goals exact rfl

theorem execClipRetire_quiet (clip : Nat) : Leads State.Quiet s (execClipRetire f clip s) := by
  refine State.quiet_linkWork.serve f _ _ _ fun u => ?_
  split
  · split
    · exact rfl
    · split
      · exact rfl
      · dsimp only
        split
        · exact .replay (by simp) (by simp)
        · exact .replay (by simp) (by simp)
  · exact rfl

theorem execTransactionBegin_quiet : Leads State.Quiet s (execTransactionBegin s) := by
  refine .next ?_
  split <;> rfl

theorem execTransactionEnd_quiet (bytes : List Byte) : Leads State.Quiet s (execTransactionEnd bytes s) := by
  have stored : ∀ (t : State) (b : List Byte), t.Quiet (t.storeFrame b) := by
    intro t b
    unfold State.storeFrame
    repeat' split
    all_goals exact rfl
  refine .next ?_
  split
  · exact rfl
  · exact stored _ _

theorem execBadFrame_quiet : Leads State.Quiet s (execBadFrame s) := by
  refine .next ?_
  unfold State.takeFrame
  repeat' split
  all_goals exact rfl

theorem execUnknownRequestType_quiet : Leads State.Quiet s (execUnknownRequestType s) := by
  refine .next ?_
  unfold State.takeFrame
  repeat' split
  all_goals exact rfl

theorem execHello_quiet : Leads State.Quiet s (execHello f s) := State.quiet_linkWork.serve f _ _ _ fun _ => rfl

theorem execNoticeEnable_quiet (andMask orMask : ClassSet) : Leads State.Quiet s (execNoticeEnable f andMask orMask s) :=
  State.quiet_linkWork.serve f _ _ _ fun _ => rfl

theorem execSeatLinkFrameDiscarded_quiet (l : LinkId) : Leads State.Quiet s (execSeatLinkFrameDiscarded l s) :=
  State.quiet_linkWork.done (t := s.discard l) rfl

theorem execStart_quiet : Leads State.Quiet s (execStart f s) := by
  refine State.quiet_linkWork.serve f _ _ _ fun u => ?_
  split <;> rfl

end

/-! ## Laws of the bowl's records -/

/-- What a command gives keeps a law. -/
def Gives (P : State → Prop) (r : Result) : Prop := ∀ t, r = .next t → P t

/-- A law of every sound state that only the bowl's records decide. -/
structure BowlLaw (P : State → Prop) : Prop where
  sound : ∀ {s}, s.Sound → P s
  quiet : ∀ {s t}, P s → s.Quiet t → P t

section
variable {P : State → Prop} (law : BowlLaw P) {s : State}
include law

theorem BowlLaw.of_quiet (h : s.Sound) {r : Result} (q : Leads State.Quiet s r) : Gives P r :=
  fun t e => law.quiet (law.sound h) (q t e)

theorem BowlLaw.done (p : P s) : Gives P s.done := by
  rintro t ⟨⟩; exact law.quiet p (State.quiet_linkWork.flush s)

theorem BowlLaw.serve (h : s.Sound) (f : Req) (type : Byte) (work : State → Served) (wrong : State → Content)
    (each : ∀ u, u.Sound → P (work u).state) : Gives P (.next (s.serve f type work wrong)) := by
  have replied : ∀ {u : State} c x, P u → P (u.reply type f.tag c x).flush := fun c x p =>
    law.quiet p (State.quiet_linkWork.trans (State.quiet_linkWork.reply _ _ _ c x) (State.quiet_linkWork.flush _))
  rintro t ⟨⟩
  unfold State.serve
  split
  · exact law.sound h
  · next u e =>
    dsimp only
    split
    · exact replied _ _ (each u (h.takeRequest e))
    · exact replied _ _ (law.sound (h.takeRequest e))

theorem BowlLaw.handOn (h : s.Sound) (g : HeadId) {work : State → State} (done : P (work s)) :
    Gives P (s.handOn g work).done := by
  refine law.done ?_
  unfold State.handOn
  split
  · exact law.quiet (law.sound h) rfl
  · exact done

theorem BowlLaw.forMember (h : s.Sound) (g : HeadId) (a : StationAddress) {work : State → Nat → Station → State}
    (each : ∀ i st, s.station i = some st → st.current = some g → P (work s i st)) :
    Gives P (s.handOn g fun s => s.forMember g a (work s)).done := by
  refine law.handOn h g ?_
  unfold State.forMember
  split
  · exact law.sound h
  · split
    · exact law.sound h
    · next e =>
      split
      · next here => exact each _ _ e here
      · exact law.sound h

end

/-! ## Commands about stations that make no record and bind none -/

/-- All beside the heads, holds and the control link is as it was, but that each station's record may be written anew with its
address, its pass and no channel more. -/
structure State.Tended (s t : State) : Prop where
  replay : t.replayView = s.replayView
  passes : t.passView = s.passView
  host   : t.hostSet = s.hostSet
  wf     : Table.wf s.stations → Table.wf t.stations
  old    : ∀ i x, t.station i = some x → ∃ st, s.station i = some st ∧ st.Of x

theorem State.Tended.of_eq {s t : State} (replay : t.replayView = s.replayView) (passes : t.passView = s.passView)
    (host : t.hostSet = s.hostSet) (stations : t.stations = s.stations) : s.Tended t :=
  ⟨replay, passes, host, fun w => by rw [stations]; exact w,
    fun i x e => ⟨x, by rw [← e, State.station, State.station, stations], .refl x⟩⟩

theorem State.tended_linkWork : LinkWork State.Tended where
  refl _ := .of_eq rfl rfl rfl rfl
  trans h k :=
    { replay := k.replay.trans h.replay
      passes := k.passes.trans h.passes
      host := k.host.trans h.host
      wf := fun w => k.wf (h.wf w)
      old := fun i x e => by
        obtain ⟨y, hy, oy⟩ := k.old i x e
        obtain ⟨st, hst, ost⟩ := h.old i y hy
        exact ⟨st, hst, ost.trans oy⟩ }
  flush s := by rw [State.flush_eq]; exact .of_eq rfl rfl rfl rfl
  reply _ _ _ _ _ := .of_eq rfl rfl rfl rfl
  take e := by obtain ⟨-, ⟨-, rfl⟩ | ⟨g, rest, -, -, -, -, rfl⟩⟩ := State.takeRequest_eq_some e <;> exact .of_eq rfl rfl rfl rfl

theorem State.replayView_of_aside {s t : State} (e : t.aside = s.aside) : t.replayView = s.replayView := by
  rw [State.eq_of_aside e]; rfl

theorem State.Keeps.tended {s t : State} (k : s.Keeps t) : s.Tended t :=
  ⟨State.replayView_of_aside k.aside, State.passView_of_aside k.aside, State.hostSet_of_aside k.aside, k.wf, k.old⟩

theorem State.expireAt_tended (s : State) (due : Micros) : s.Tended (s.expireAt due) := .of_eq rfl rfl rfl rfl

theorem State.matched_station {s : State} {h : HeadId} {addr : StationAddress} {i : Nat} {st : Station} {x : Hold}
    (e : s.matched h addr i = some (st, x)) : s.station i = some st := by
  unfold State.matched at e
  split at e
  · next e' _ =>
    split at e
    · cases e; exact e'
    · cases e
  · cases e

section
variable (s : State) (f : Req)

theorem execAnnounce_tended (h : HeadId) : Leads State.Tended s (execAnnounce h s) := by
  refine State.tended_linkWork.done (State.Keeps.tended ?_)
  have k := State.Keeps.refl s
  split
  · exact (k.setHead h _).setHead h _
  · exact k.setHead h _
  · exact (k.setHead h _).setHead h _
  all_goals exact (k.headFault h _).setHead h _

theorem State.missHeartbeat_keeps (h : HeadId) : s.Keeps (s.missHeartbeat h) := by
  have k := State.Keeps.refl s
  unfold State.missHeartbeat
  dsimp only
  split
  · exact k.setHead h _
  · split
    · exact (k.setHead h _).setHead h _
    · exact (k.setHead h _).headFault h _
    · exact (k.setHead h _).headFault h _
    · exact (k.setHead h _).headFault h _
    · exact k.setHead h _
    · exact k.setHead h _

theorem execSupervisionTimerExpiry_tended (h : HeadId) : Leads State.Tended s (execSupervisionTimerExpiry h s) := by
  refine State.tended_linkWork.done ?_
  split
  · exact State.tended_linkWork.refl s
  · next due _ => exact State.tended_linkWork.trans (s.expireAt_tended due) ((s.expireAt due).missHeartbeat_keeps h).tended

theorem execSetupDone_tended (h : HeadId) : Leads State.Tended s (execSetupDone h s) := by
  refine State.tended_linkWork.done (State.handOn_leads h (.of_eq rfl rfl rfl rfl) ?_)
  split
  · exact .of_eq rfl rfl rfl rfl
  · exact State.tended_linkWork.refl s

theorem execStartTimerExpiry_tended (h : HeadId) : Leads State.Tended s (execStartTimerExpiry h s) := by
  refine State.tended_linkWork.done ?_
  split
  · exact State.tended_linkWork.refl s
  · next due _ =>
    refine State.tended_linkWork.trans (s.expireAt_tended due) (State.Keeps.tended ?_)
    dsimp only
    split
    · exact (State.Keeps.refl _).headFault h _
    · exact (State.Keeps.refl _).setHead h _

theorem execWindowTimerExpiry_tended (h : HeadId) : Leads State.Tended s (execWindowTimerExpiry h s) := by
  refine State.tended_linkWork.done ?_
  split
  · exact State.tended_linkWork.refl s
  · next a _ =>
    exact State.tended_linkWork.trans (s.expireAt_tended a.window)
      ((((State.Keeps.refl _).setHead h _).retryCapped h).restoreShed h).tended

/-- A request naming a head whose work keeps every name, pass and zone record. -/
theorem State.serveHead_tended (head : Nat) (type : Byte) {work : HeadId → State → Served} (wrong : State → Content)
    (each : ∀ h t, State.Keeps t (work h t).state) :
    Leads State.Tended s (.next (s.serve f type (fun u => u.withHead head work) wrong)) :=
  State.tended_linkWork.serve f _ _ _ fun u => State.tended_linkWork.withHead head
    (fun h => ((State.Keeps.refl u).setHead h _).tended) fun h t => (each h t).tended

theorem execHeadControlDrain_tended (head : Nat) (known : Bool) : Leads State.Tended s (execHeadControlDrain f head known s) := by
  refine s.serveHead_tended f head _ _ fun h t => ?_
  have k := State.Keeps.refl t
  split
  · unfold State.drainHead
    split
    · exact ((k.setHead h _).foldl (fun _ i ku => ku.weigh i) _).drainCheck h
    · exact k
  · exact k

theorem execHeadControlStop_tended (head : Nat) (known : Bool) : Leads State.Tended s (execHeadControlStop f head known s) := by
  refine s.serveHead_tended f head _ _ fun h t => ?_
  have k := State.Keeps.refl t
  split
  · unfold State.stopHead
    split
    · exact (k.setHead h _).loseHead h
    · exact k
  · exact k

/-- A frame handed on whose work keeps every name, pass and zone record. -/
theorem State.handOn_tended (h : HeadId) {work : State → State} (k : s.Keeps (work s)) :
    Leads State.Tended s (s.handOn h work).done :=
  State.tended_linkWork.done (State.handOn_leads h (.of_eq rfl rfl rfl rfl) k.tended)

/-- A member's frame whose work keeps every name, pass and zone record. -/
theorem State.forMember_tended (h : HeadId) (addr : StationAddress) {work : State → Nat → Station → State}
    (each : ∀ i st, s.station i = some st → s.Keeps (work s i st)) :
    Leads State.Tended s (s.handOn h fun s => s.forMember h addr (work s)).done :=
  State.tended_linkWork.done (State.handOn_leads h (.of_eq rfl rfl rfl rfl)
    (State.tended_linkWork.forMember h addr fun i st e => (each i st e).tended))

theorem execLost_tended (h : HeadId) (addr : StationAddress) : Leads State.Tended s (execLost h addr s) :=
  s.forMember_tended h addr (work := fun s i _ => ((s.loseMember i).recompute h).drainCheck h) fun i _ _ =>
    (((State.Keeps.refl s).loseMember i).recompute h).drainCheck h

theorem execStationReport_tended (h : HeadId) (addr : StationAddress) (rssi : Int) (cands : List (Nat × Int)) :
    Leads State.Tended s (execStationReport h addr rssi cands s) := by
  unfold execStationReport
  split
  · exact State.tended_linkWork.done (.of_eq rfl rfl rfl rfl)
  · exact s.forMember_tended h addr (work := fun s => s.report h rssi cands) fun i st _ =>
      (State.Keeps.refl s).report h rssi cands i st

theorem execLeaveReq_tended (h : HeadId) (addr : StationAddress) (chan : Nat) :
    Leads State.Tended s (execLeaveReq h addr chan s) :=
  s.forMember_tended h addr (work := fun s => s.leave h chan) fun i st _ => (State.Keeps.refl s).leave h chan i st

theorem State.lateAnswer_keeps (h : HeadId) (addr : StationAddress) (i : Nat) : s.Keeps (s.lateAnswer h addr i) :=
  ((State.Keeps.refl s).setHead h _).send h _

theorem execReady_tended (h : HeadId) (addr : StationAddress) (i : Nat) : Leads State.Tended s (execReady h addr i s) := by
  refine s.handOn_tended h ?_
  split
  · next e => exact (State.Keeps.refl s).land (State.matched_station e) _
  · exact s.lateAnswer_keeps h addr i

theorem execDecline_tended (h : HeadId) (addr : StationAddress) (i : Nat) : Leads State.Tended s (execDecline h addr i s) := by
  refine s.handOn_tended h ?_
  split
  · exact (State.Keeps.refl s).undoHandover _ _
  · exact s.lateAnswer_keeps h addr i

theorem execHandoverTimerExpiry_tended (i : Nat) : Leads State.Tended s (execHandoverTimerExpiry i s) := by
  refine State.tended_linkWork.done ?_
  split
  · exact State.tended_linkWork.refl s
  · next x _ =>
    exact State.tended_linkWork.trans (s.expireAt_tended x.due)
      (((State.Keeps.refl _).cancel x).undoHandover x _).tended

theorem State.moveTo_keeps {i : Nat} {st : Station} (e : s.station i = some st) (here h : HeadId) :
    s.Keeps (s.moveTo i st here h).state := by
  have k := State.Keeps.refl s
  unfold State.moveTo
  repeat' split
  · exact k
  · exact k.startHandover e ..
  · exact k.refuseRoam i
  · exact k

theorem execStationMove_tended (i target : Nat) : Leads State.Tended s (execStationMove f i target s) := by
  refine s.serveHead_tended f target _ _ fun h t => ?_
  have k := State.Keeps.refl t
  unfold State.moveChecks
  split
  · exact k
  · split
    · exact k
    · next e =>
      split
      · exact k
      · exact t.moveTo_keeps e _ h
      · exact t.moveTo_keeps e _ h
      · exact k

end

end Sys2Proof.Machine

/-!
PROOF LAYER. Every command keeps the stored records in their canonical form (R19, R20, R85, R86, R141, R144).
-/
namespace Sys2Proof.Machine

/-! ## The stored records -/

theorem State.StoreInv.clipStore {s : State} (v : s.StoreInv) : s.ClipStoreInv := ⟨v.2.2.1, v.2.2.2⟩

theorem State.StoreInv.of_eq {s t : State} (v : s.StoreInv) (stations : t.stations = s.stations) (passes : t.passes = s.passes)
    (clips : t.clips = s.clips) (slots : t.slots = s.slots) (dram : t.dram = s.dram) : t.StoreInv := by
  simpa only [State.StoreInv, State.StationsInv, State.PassesInv, State.ClipsInv, stations, passes, clips, slots, dram] using v

/-- Work that leaves the Clip Store alone and makes no record. -/
theorem State.StoreInv.records {s t : State} (v : s.StoreInv) (r : t.replayView = s.replayView) (n : s.NoNewNames t) :
    t.StoreInv := by
  obtain ⟨-, -, -, -, clips, -, slots, dram⟩ := by simpa only [State.replayView, Prod.mk.injEq] using r
  obtain ⟨c, m⟩ := v.clipStore.of_eq clips slots dram
  exact ⟨v.1.of_noNewNames n, v.2.1.of_noNewNames n, c, m⟩

theorem State.replayView_of_besideBowl {s t : State} (e : t.besideBowl = s.besideBowl) : t.replayView = s.replayView := by
  simp only [State.besideBowl, Prod.mk.injEq] at e
  exact e.2.2.1

theorem State.StoreInv.bowl {s t : State} (v : s.StoreInv) (b : t.besideBowl = s.besideBowl) (n : s.NoNewNames t) : t.StoreInv :=
  v.records (State.replayView_of_besideBowl b) n

/-- Work of the bowl that makes no station record and binds none. -/
theorem State.StoreInv.keeps {s t : State} (v : s.StoreInv) (k : s.Keeps t) : t.StoreInv :=
  v.bowl (State.besideBowl_of_aside k.aside) k.noNewNames

/-- Work of the ingest and playout commands. -/
theorem State.StoreInv.replay {s t : State} (v : s.StoreInv) (b : t.besideReplay = s.besideReplay) (c : t.ClipStoreInv) :
    t.StoreInv := by
  obtain ⟨-, -, stations, passes, -⟩ := by simpa only [State.besideReplay, Prod.mk.injEq] using b
  simp only [State.stationView, State.passView, Prod.mk.injEq] at stations passes
  refine ⟨?_, ?_, c.1, c.2⟩
  · simpa only [State.StationsInv, stations.1] using v.1
  · simpa only [State.PassesInv, passes.1] using v.2.1

/-- Work that keeps every name, and the Clip Store. -/
theorem State.StoreInv.tended {s t : State} (v : s.StoreInv) (k : s.Tended t) : t.StoreInv := by
  refine v.records k.replay ⟨k.wf, fun i x e => ?_, fun w => ?_, fun p x e => ?_⟩
  · obtain ⟨st, at_, o⟩ := k.old i x e
    exact ⟨st, at_, o.1⟩
  · have same : t.passes = s.passes := congrArg Prod.fst k.passes
    rw [same]; exact w
  · have same : t.passes = s.passes := congrArg Prod.fst k.passes
    exact ⟨x, by rw [← e, State.pass, State.pass, same], rfl⟩

/-! ## Records made -/

/-- A station record made under an address that none has (R20). -/
theorem State.StoreInv.newStation {s : State} (v : s.StoreInv) {i : Nat} (small : i < 4096) {x : Station}
    (new : ∀ j st, s.station j = some st → st.addr ≠ x.addr) : (s.setStation i x).StoreInv :=
  ⟨State.stationsInv_iff.2 ((State.stationsInv_iff.1 v.1).put small trivial fun j y e same => absurd same (new j y e)), v.2⟩

/-- A pass record made under a number that none has and that is not zero (R86). -/
theorem State.StoreInv.newPass {s : State} (v : s.StoreInv) {p : Nat} (small : p < 8192) {x : Pass} (fit : x.number ≠ 0)
    (new : ∀ j q, s.pass j = some q → q.number ≠ x.number) : (s.setPass p x).StoreInv :=
  ⟨v.1, State.passesInv_iff.2 ((State.passesInv_iff.1 v.2.1).put small fit fun j y e same => absurd same (new j y e)), v.2.2⟩

theorem State.StoreInv.assocRequest {s : State} (v : s.StoreInv) (h : HeadId) (addr : StationAddress) (rssi : Int) :
    (s.assocRequest h addr rssi).StoreInv := by
  have k := State.Keeps.refl s
  have declined : ∀ c : Code, (s.declineAssoc h addr c).StoreInv := fun c => v.keeps (k.send h _)
  unfold State.assocRequest
  split
  · exact declined _
  · split
    · next none_ =>
      split
      · unfold State.associate
        split
        · exact declined _
        · next i free =>
          split
          · exact declined _
          · split
            · refine State.StoreInv.keeps ?_ (((State.Keeps.refl (s.setStation i _)).recompute h).send h _)
              refine v.newStation (Table.lowestFree_lt free) fun j st at_ same => ?_
              have found : s.lookupStation addr = some j := (State.lookupStation_eq_some v.1).2 ⟨st, at_, same⟩
              rw [none_] at found
              cases found
            · exact declined _
      · exact declined _
    · split
      · exact v
      · next e =>
        split
        · exact declined _
        · split
          · exact v.keeps (k.send h _)
          · split
            · split
              · exact v.keeps (k.returnStation e h rssi)
              · exact v.keeps (k.directMove e _ h rssi)
            · exact declined _

theorem State.StoreInv.loadEntries {s : State} (v : s.StoreInv) (es : List PassEntry) : (s.loadEntries es).1.StoreInv := by
  have one : ∀ (u : State) (e : PassEntry), u.StoreInv → (u.loadEntry e).1.StoreInv := by
    intro u e w
    unfold State.loadEntry
    split
    · split
      · exact w
      · next fit =>
        split
        · exact w
        · exact w
        · next none_ free =>
          refine w.newPass (Table.lowestFree_lt free) fit fun j q at_ same => ?_
          have found : u.lookupPass e.number = some j := (State.lookupPass_eq_some w.2.1).2 ⟨q, at_, same⟩
          rw [none_] at found
          cases found
    · exact w
  induction es generalizing s with
  | nil => exact v
  | cons e es ih => exact ih (one s e v)

/-! ## What a command gives -/

/-- A command's outcome keeps the stored records in their form. -/
def StoredResult (r : Result) : Prop := ∀ t, r = .next t → t.StoreInv

theorem StoredResult.next {s : State} (v : s.StoreInv) : StoredResult (.next s) := by
  rintro t ⟨⟩; exact v

theorem State.StoreInv.flush {s : State} (v : s.StoreInv) : s.flush.StoreInv := by
  rw [State.flush_eq]; exact v

theorem State.StoreInv.reply {s : State} (v : s.StoreInv) (type tag : Byte) (c : Code) (x : Content) :
    (s.reply type tag c x).StoreInv := v

theorem StoredResult.done {s : State} (v : s.StoreInv) : StoredResult s.done := .next v.flush

theorem State.StoreInv.takeRequest {s u : State} (v : s.StoreInv) {type tag : Byte} (e : s.takeRequest type tag = some u) :
    u.StoreInv := by
  obtain ⟨-, ⟨-, rfl⟩ | ⟨g, rest, -, -, -, -, rfl⟩⟩ := State.takeRequest_eq_some e <;> exact v

/-- A request is served: its work decides. -/
theorem State.StoreInv.serve {s : State} (v : s.StoreInv) (f : Req) (type : Byte) (work : State → Served)
    (wrong : State → Content) (each : ∀ u, u.StoreInv → (work u).state.StoreInv) :
    StoredResult (.next (s.serve f type work wrong)) := by
  refine .next ?_
  unfold State.serve
  split
  · exact v
  · next u e =>
    have taken := v.takeRequest e
    dsimp only
    split
    · exact ((each u taken).reply ..).flush
    · exact (taken.reply ..).flush

theorem State.StoreInv.withHead {s : State} (v : s.StoreInv) (head : Nat) {work : HeadId → State → Served}
    (each : ∀ h u, u.StoreInv → (work h u).state.StoreInv) : (s.withHead head work).state.StoreInv := by
  unfold State.withHead
  split
  · exact v
  · exact each _ _ v

theorem State.StoreInv.handOn {s : State} (v : s.StoreInv) (h : HeadId) {work : State → State} (w : (work s).StoreInv) :
    (s.handOn h work).StoreInv := by
  unfold State.handOn; split
  · exact v
  · exact w

theorem State.StoreInv.forMember {s : State} (v : s.StoreInv) (h : HeadId) (a : StationAddress) {work : Nat → Station → State}
    (w : ∀ i st, s.station i = some st → (work i st).StoreInv) : (s.forMember h a work).StoreInv := by
  unfold State.forMember
  split
  · exact v
  · split
    · exact v
    · next e =>
      split
      · exact w _ _ e
      · exact v

/-! ## What some work finds and leaves alone -/

theorem State.scan_besideBowl (s : State) (p gate : Nat) (q : Pass) (dir : ScanDirection) :
    (s.scan p gate q dir).state.besideBowl = s.besideBowl := by
  have into_ : (s.scanIn p gate q).1.besideBowl = s.besideBowl := by
    unfold State.scanIn State.admitPass State.passback
    repeat' split
    all_goals simp
  have out_ : (s.scanOut p gate q).1.besideBowl = s.besideBowl := by
    unfold State.scanOut State.passback
    repeat' split
    all_goals simp
  unfold State.scan
  cases dir with
  | into => dsimp only; split <;> exact into_
  | outOf => dsimp only; split <;> exact out_

theorem State.visitZone_replayView (s : State) (p : Nat) (q : Pass) : (s.visitZone p q).replayView = s.replayView := by
  unfold State.visitZone
  dsimp only
  split
  · rfl
  · have counted : ((s.setPass p { q with cached := s.cachedZone q.seat q.declared }).rezoneCounts q.state q.cached
        (s.cachedZone q.seat q.declared)).replayView = s.replayView := State.replayView_of_besideBowl (by simp)
    split
    · exact counted
    · exact counted

theorem State.visitStation_replayView (s : State) (q : Pass) : (s.visitStation q).replayView = s.replayView := by
  unfold State.visitStation
  split
  · split
    · exact State.replayView_of_besideBowl (t := (s.trim _).recomputeBoth _) (by simp)
    · rfl
  · rfl

theorem State.visitPass_replayView (s : State) (p : Nat) : (s.visitPass p).replayView = s.replayView := by
  unfold State.visitPass
  split
  · rfl
  · rw [State.visitStation_replayView, State.visitZone_replayView]

theorem State.advanceCursor_replayView (s : State) : s.advanceCursor.replayView = s.replayView := by
  unfold State.advanceCursor
  dsimp only
  repeat' split
  all_goals rfl

theorem StoredResult.of_tended {s : State} (v : s.StoreInv) {r : Result} (k : Leads State.Tended s r) : StoredResult r :=
  fun t e => v.tended (k t e)

/-! ## The Seat Link Controller -/

section
variable {s : State} (v : s.StoreInv) (f : Req)
include v

theorem execHeartbeat_stored (h : HeadId) : StoredResult (execHeartbeat h s) := by
  refine .done ?_
  split <;> exact v

theorem execHeadSetupPart1_stored (head radio step : Nat) : StoredResult (execHeadSetupPart1 f head radio step s) := by
  refine v.serve f _ _ _ fun u w => ?_
  repeat' split
  all_goals exact w

theorem execHeadSetupPart2_stored (head cap floor : Nat) : StoredResult (execHeadSetupPart2 f head cap floor s) := by
  refine v.serve f _ _ _ fun u w => ?_
  repeat' split
  all_goals exact w

theorem execHeadSetupPart3_stored (head : Nat) (ns : List Nat) : StoredResult (execHeadSetupPart3 f head ns s) := by
  refine v.serve f _ _ _ fun u w => ?_
  repeat' split
  all_goals exact w

theorem execHeadControlStart_stored (head : Nat) (known : Bool) : StoredResult (execHeadControlStart f head known s) := by
  refine v.serve f _ _ _ fun u w => w.withHead head fun h t x => ?_
  split
  · unfold State.startHead
    dsimp only
    split <;> exact x
  · exact x

theorem execHeadLimits_stored (head cap floor : Nat) : StoredResult (execHeadLimits f head cap floor s) := by
  refine v.serve f _ _ _ fun u w => w.withHead head fun h t x => ?_
  dsimp only
  split
  · split
    · exact x.keeps (((State.Keeps.refl t).setHead h _).recompute h)
    · exact x
  · exact x

theorem execHeadQuery_stored (head : Nat) : StoredResult (execHeadQuery f head s) :=
  v.serve f _ _ _ fun _ w => w.withHead head fun _ _ x => x

theorem execHeadStats_stored (head : Nat) : StoredResult (execHeadStats f head s) :=
  v.serve f _ _ _ fun _ w => w.withHead head fun _ _ x => x

/-! ## Stations and handovers -/

theorem execAssocReq_stored (h : HeadId) (addr : StationAddress) (rssi : Int) : StoredResult (execAssocReq h addr rssi s) := by
  refine .done ?_
  split
  · exact v.assocRequest h addr rssi
  · exact v

theorem execDisassoc_stored (h : HeadId) (addr : StationAddress) : StoredResult (execDisassoc h addr s) := by
  have vacated : ∀ i a b, (s.vacate i a b).StoreInv := fun i a b =>
    v.bowl (s.vacate_besideBowl i a b) ((State.NoNewNames.refl s).vacate i a b)
  refine .done (v.handOn h ?_)
  repeat' split
  · exact v
  · exact v
  · exact vacated _ _ _
  · exact vacated _ _ _
  · exact v

theorem execJoinReq_stored (h : HeadId) (addr : StationAddress) (chan : Nat) : StoredResult (execJoinReq h addr chan s) := by
  refine .done (v.handOn h (v.forMember h addr fun i st at_ => ?_))
  unfold State.join
  dsimp only
  split
  · split
    · exact v
    · split
      · exact v
      · split
        · exact v
        · refine v.bowl ?_ ?_
          · rw [State.send_besideBowl, State.recompute_besideBowl, State.setStation_besideBowl]
          · exact (((State.NoNewNames.refl s).setStation (x := { st with chans := st.chans ||| oneChan ⟨chan, _⟩ })
              at_ rfl).work ((State.Keeps.refl _).recompute h)).send h _
  · exact v

theorem execLapseTimerExpiry_stored (i : Nat) : StoredResult (execLapseTimerExpiry i s) := by
  refine .done ?_
  split
  · exact v
  · next due _ =>
    have w : (s.expireAt due).StoreInv := v
    exact w.bowl (State.vacate_besideBowl _ i _ _) ((State.NoNewNames.refl _).vacate i _ _)

theorem execRoamSet_stored (a b c : Nat) (pub : ChanSet) : StoredResult (execRoamSet f a b c pub s) := by
  refine v.serve f _ _ _ fun u w => ?_
  split
  · dsimp only
    have x : ({ u with roam := ⟨a, b, c, pub⟩ } : State).StoreInv := w
    split
    · exact x
    · exact x.keeps (((State.Keeps.refl _).foldl (fun _ i ku => ku.trim i) _).recomputeList _)
  · exact w

theorem execStationQuery_stored (r : StationRef) : StoredResult (execStationQuery f r s) := by
  refine v.serve f _ _ _ fun u w => ?_
  repeat' split
  all_goals exact w

theorem execStationEvict_stored (i : Nat) : StoredResult (execStationEvict f i s) := by
  refine v.serve f _ _ _ fun u w => ?_
  repeat' split
  · exact w
  · exact w.bowl (u.vacate_besideBowl i _ _) ((State.NoNewNames.refl u).vacate i _ _)
  · exact w

/-! ## Passes -/

theorem execBindReq_stored (h : HeadId) (addr : StationAddress) (m : PassNumber) : StoredResult (execBindReq h addr m s) :=
  .done (v.handOn h (v.forMember h addr fun i st at_ =>
    v.bowl (s.bindRequest_besideBowl h m i st) (State.bindRequest_noNewNames at_ h m)))

theorem execUnbindReq_stored (h : HeadId) (addr : StationAddress) : StoredResult (execUnbindReq h addr s) :=
  .done (v.handOn h (v.forMember h addr fun i st _ =>
    v.bowl (s.unbindRequest_besideBowl h i st) (State.unbindRequest_noNewNames h i st)))

theorem execPassLoad_stored (es : List PassEntry) : StoredResult (execPassLoad f es s) := by
  refine v.serve f _ _ _ fun u w => ?_
  split
  · exact w.loadEntries es
  · exact w

theorem execPassAmend_stored (m : PassNumber) (tier : Option Nat) (seat : Change (BitVec 16)) (declared : Change Nat) :
    StoredResult (execPassAmend f m tier seat declared s) := by
  refine v.serve f _ _ _ fun u w => ?_
  split
  · split
    · exact w
    · split
      · exact w
      · next e =>
        split
        · exact w
        · exact w.bowl (u.amend_besideBowl ..) (State.amend_noNewNames e ..)
  · exact w

theorem execPassVoid_stored (m : PassNumber) : StoredResult (execPassVoid f m s) := by
  refine v.serve f _ _ _ fun u w => ?_
  split
  · exact w
  · exact w.bowl (u.unbind_besideBowl ..) ((State.NoNewNames.refl u).unbind ..)

theorem execPassDrop_stored (m : PassNumber) : StoredResult (execPassDrop f m s) := by
  refine v.serve f _ _ _ fun u w => ?_
  split
  · exact w
  · next p _ =>
    exact (w.bowl (u.unbind_besideBowl p .void) ((State.NoNewNames.refl u).unbind p .void)).records rfl
      ((State.NoNewNames.refl _).dropPass p)

theorem execPassQuery_stored (r : PassRef) : StoredResult (execPassQuery f r s) := by
  refine v.serve f _ _ _ fun u w => ?_
  repeat' split
  all_goals exact w

theorem execGateScan_stored (m : PassNumber) (gate : Nat) (dir : Option ScanDirection) :
    StoredResult (execGateScan f m gate dir s) := by
  refine v.serve f _ _ _ fun u w => ?_
  split
  · exact w
  · split
    · exact w
    · split
      · exact w
      · split
        · exact w
        · next e => exact w.bowl (u.scan_besideBowl ..) (State.scan_noNewNames e ..)

/-! ## Zones -/

theorem execZoneSet_stored (z : Nat) (d : Option ZoneSpec) : StoredResult (execZoneSet f z d s) := by
  refine v.serve f _ _ _ fun u w => ?_
  repeat' split
  all_goals exact w

theorem execZoneQuery_stored (z : Nat) : StoredResult (execZoneQuery f z s) := by
  refine v.serve f _ _ _ fun u w => ?_
  split <;> exact w

theorem execCensusLatch_stored (zs : ZoneSet) : StoredResult (execCensusLatch f zs s) :=
  v.serve f _ _ _ fun _ w => w.of_eq rfl rfl rfl rfl rfl

theorem execCensusRead_stored (z : Nat) : StoredResult (execCensusRead f z s) := by
  refine v.serve f _ _ _ fun u w => ?_
  repeat' split
  all_goals exact w

theorem execRezoneVisit_stored : StoredResult (execRezoneVisit s) := by
  refine .done ?_
  split
  · refine v.records ?_ ((State.visitPass_noNewNames _).trans State.advanceCursor_noNewNames)
    rw [State.advanceCursor_replayView, State.visitPass_replayView]
  · exact v

/-! ## The Ingest Unit, the Clip Store and the Playout Unit -/

theorem execSegmentFrame_stored (p : Port) (bytes : List Byte) : StoredResult (execSegmentFrame p bytes s) := by
  refine .done ?_
  split
  · split
    · exact v
    · exact v.replay (s.goodFrame_besideReplay ..) (v.clipStore.goodFrame ..)
  · exact v

theorem execHoldTimerExpiry_stored (key : Key) : StoredResult (execHoldTimerExpiry key s) := by
  refine .done ?_
  split
  · exact v
  · next t _ =>
    have w : (s.expireAt t.2).StoreInv := v
    exact w.replay (State.holdTimeout_besideReplay _ _) (w.clipStore.holdTimeout _)

theorem execPaceTimerExpiry_stored (c : Chan) : StoredResult (execPaceTimerExpiry c s) := by
  refine .done ?_
  split
  · exact v
  · dsimp only
    split
    · exact v
    · next tm _ _ _ =>
      have w : ((s.expireAt (tm.due (s.channel c).pace)).setChannel c
          { (s.expireAt (tm.due (s.channel c).pace)).channel c with
            timer := some { tm with next := tm.next + 1 } }).StoreInv := v
      exact w.replay (State.serveCurrent_besideReplay ..) (w.clipStore.serveCurrent c)

theorem execReadCompletion_stored : StoredResult (execReadCompletion s) := by
  have freed : ({ s with port := .free } : State).StoreInv := v
  refine .done ?_
  split
  · exact v
  · exact freed.replay (State.grant_besideReplay _) freed.clipStore.grant
  · next c _ =>
    dsimp only
    split
    · exact freed.replay (State.grant_besideReplay _) freed.clipStore.grant
    · next r _ =>
      have done_ := (freed.clipStore.unuse r.clip).setChannel c { s.channel c with read := none }
      refine freed.replay ?_ (State.ClipStoreInv.grant ?_)
      · rw [State.grant_besideReplay]
        split
        · rw [State.deliverSegment_besideReplay]; rfl
        · rfl
      · split
        · exact done_.deliverSegment c r
        · exact done_

theorem execIngestMode_stored (mode : Option IngestMode) (strict : Bool) : StoredResult (execIngestMode f mode strict s) := by
  refine v.serve f _ _ _ fun u w => ?_
  split
  · exact w
  · split
    · exact w
    · exact w

theorem execProgramSet_stored (program level : Nat) (auto : ChanSet) (loop : Bool) :
    StoredResult (execProgramSet f program level auto loop s) := by
  refine v.serve f _ _ _ fun u w => ?_
  repeat' split
  all_goals exact w

theorem execChannelSetup_stored (chan pace rated : Nat) (mode : Option ArbMode) :
    StoredResult (execChannelSetup f chan pace rated mode s) := by
  refine v.serve f _ _ _ fun u w => ?_
  repeat' split
  all_goals exact w

theorem execChannelEnable_stored (andMask orMask : ChanSet) : StoredResult (execChannelEnable f andMask orMask s) := by
  refine v.serve f _ _ _ fun u w => ?_
  dsimp only
  refine w.replay ?_ ?_
  · rw [foldl_kept _ _ (fun t c => t.weighPending_besideReplay c)]; rfl
  · refine State.ClipStoreInv.foldl ?_ (fun _ c cu => cu.weighPending c) _
    exact w.clipStore.of_eq rfl rfl rfl

theorem execPlay_stored (chan clip : Nat) (level : Option Nat) (base : Nat) (count : Option Nat) (loop : Bool) :
    StoredResult (execPlay f chan clip level base count loop s) := by
  refine v.serve f _ _ _ fun u w => ?_
  repeat' split
  · exact w
  · exact w
  · exact w
  · exact w
  · exact w.replay (u.requestEntry_besideReplay ..) (w.clipStore.requestEntry ..)
  · exact w

theorem execStop_stored (chan : Nat) (ls : LevelSet) : StoredResult (execStop f chan ls s) := by
  refine v.serve f _ _ _ fun u w => ?_
  split
  · exact w
  · exact w.replay (u.stopLevels_besideReplay ..) (w.clipStore.stopLevels ..)

theorem execChannelStatus_stored (chan : Nat) : StoredResult (execChannelStatus f chan s) := by
  refine v.serve f _ _ _ fun u w => ?_
  split <;> exact w

theorem execClipQuery_stored (r : ClipRef) : StoredResult (execClipQuery f r s) := by
  refine v.serve f _ _ _ fun u w => ?_
  dsimp only
  repeat' split
  all_goals exact w

theorem execClipPin_stored (clip : Nat) (pin : Bool) : StoredResult (execClipPin f clip pin s) := by
  refine v.serve f _ _ _ fun u w => ?_
  repeat' split
  · exact w
  · exact w.replay rfl (w.clipStore.updateClip clip)
  · exact w

theorem execClipRetire_stored (clip : Nat) : StoredResult (execClipRetire f clip s) := by
  refine v.serve f _ _ _ fun u w => ?_
  split
  · split
    · exact w
    · split
      · exact w
      · dsimp only
        split
        · exact w.replay (by simp) ((w.clipStore.releaseKey _).vacateClip _)
        · exact w.replay (by simp) (w.clipStore.vacateClip _)
  · exact w

/-! ## The part and the control link -/

theorem execTransactionBegin_stored : StoredResult (execTransactionBegin s) := by
  refine .next ?_
  split <;> exact v

theorem execTransactionEnd_stored (bytes : List Byte) : StoredResult (execTransactionEnd bytes s) := by
  have stored : ∀ (t : State) (b : List Byte), t.StoreInv → (t.storeFrame b).StoreInv := by
    intro t b w
    unfold State.storeFrame
    repeat' split
    all_goals exact w
  refine .next ?_
  split
  · exact v
  · exact stored _ _ v

theorem execBadFrame_stored : StoredResult (execBadFrame s) := by
  refine .next ?_
  unfold State.takeFrame
  repeat' split
  all_goals exact v

theorem execUnknownRequestType_stored : StoredResult (execUnknownRequestType s) := by
  refine .next ?_
  unfold State.takeFrame
  repeat' split
  all_goals exact v

theorem execStart_stored : StoredResult (execStart f s) := by
  refine v.serve f _ _ _ fun u w => ?_
  split <;> exact w

/-- RESTART empties every table but the passes', whose records it keeps in their places (R105). -/
theorem execRestart_stored : StoredResult (execRestart f s) := by
  refine v.serve f _ _ _ fun u w => ?_
  have changed : u.restarted.passes = Table.change u.passes fun _ q => q.restarted := rfl
  refine ⟨⟨Table.wf_nil, by simp [State.restarted], by simp [State.restarted]⟩, State.passesInv_iff.2 ?_,
    ⟨Table.wf_nil, by simp [State.restarted], by simp [State.restarted], Table.wf_nil, by simp [State.restarted]⟩, w.2.2.2⟩
  rw [changed]
  refine (State.passesInv_iff.1 w.2.1).of_old (Table.wf_change w.2.1.1 _) fun p x e => ?_
  rw [Table.get_change] at e
  obtain ⟨q, at_, rfl⟩ := Option.map_eq_some_iff.1 e
  exact ⟨q, at_, rfl⟩

theorem execTierSet_stored (row : TierRow) : StoredResult (execTierSet f row s) := by
  refine v.serve f _ _ _ fun u w => ?_
  repeat' split
  all_goals exact w

end

theorem State.reset_stored : State.reset.StoreInv := by
  refine ⟨⟨Table.wf_nil, ?_, ?_⟩, ⟨Table.wf_nil, ?_, ?_⟩, ⟨Table.wf_nil, ?_, ?_, Table.wf_nil, ?_⟩, Memory.wf_nil⟩ <;>
    simp [State.reset]

/-! ## The whole of a step -/

/-- Every command keeps the stored records in their form. -/
theorem exec_stored {s : State} (v : s.StoreInv) (i : Instr) : StoredResult (exec i s) := by
  cases i with
  | powerOn => exact .next State.reset_stored
  | announce g => exact .of_tended v (execAnnounce_tended s g)
  | heartbeat g => exact execHeartbeat_stored v g
  | supervisionTimerExpiry g => exact .of_tended v (execSupervisionTimerExpiry_tended s g)
  | setupDone g => exact .of_tended v (execSetupDone_tended s g)
  | startTimerExpiry g => exact .of_tended v (execStartTimerExpiry_tended s g)
  | seatLinkFrameDiscarded l => exact .done (s := s.discard l) v
  | assocReq g a r => exact execAssocReq_stored v g a r
  | disassoc g a => exact execDisassoc_stored v g a
  | lost g a => exact .of_tended v (execLost_tended s g a)
  | stationReport g a r cs => exact .of_tended v (execStationReport_tended s g a r cs)
  | joinReq g a c => exact execJoinReq_stored v g a c
  | leaveReq g a c => exact .of_tended v (execLeaveReq_tended s g a c)
  | bindReq g a n => exact execBindReq_stored v g a n
  | unbindReq g a => exact execUnbindReq_stored v g a
  | ready g a n => exact .of_tended v (execReady_tended s g a n)
  | decline g a n => exact .of_tended v (execDecline_tended s g a n)
  | lapseTimerExpiry n => exact execLapseTimerExpiry_stored v n
  | handoverTimerExpiry n => exact .of_tended v (execHandoverTimerExpiry_tended s n)
  | windowTimerExpiry g => exact .of_tended v (execWindowTimerExpiry_tended s g)
  | segmentFrame p bs => exact execSegmentFrame_stored v p bs
  | holdTimerExpiry k => exact execHoldTimerExpiry_stored v k
  | paceTimerExpiry c => exact execPaceTimerExpiry_stored v c
  | readCompletion => exact execReadCompletion_stored v
  | rezoneVisit => exact execRezoneVisit_stored v
  | transactionBegin => exact execTransactionBegin_stored v
  | transactionEnd bs => exact execTransactionEnd_stored v bs
  | badFrame => exact execBadFrame_stored v
  | unknownRequestType => exact execUnknownRequestType_stored v
  | hello f => exact v.serve f _ _ _ fun _ w => w
  | start f => exact execStart_stored v f
  | restart f => exact execRestart_stored v f
  | noticeEnable f a b => exact v.serve f _ _ _ fun _ w => w
  | tierSet f r => exact execTierSet_stored v f r
  | roamSet f a b c p => exact execRoamSet_stored v f a b c p
  | headSetupPart1 f g r x => exact execHeadSetupPart1_stored v f g r x
  | headSetupPart2 f g c x => exact execHeadSetupPart2_stored v f g c x
  | headSetupPart3 f g ns => exact execHeadSetupPart3_stored v f g ns
  | headControlStart f g k => exact execHeadControlStart_stored v f g k
  | headControlDrain f g k => exact .of_tended v (execHeadControlDrain_tended s f g k)
  | headControlStop f g k => exact .of_tended v (execHeadControlStop_tended s f g k)
  | headLimits f g c x => exact execHeadLimits_stored v f g c x
  | headQuery f g => exact execHeadQuery_stored v f g
  | headStats f g => exact execHeadStats_stored v f g
  | stationQuery f r => exact execStationQuery_stored v f r
  | stationMove f n g => exact .of_tended v (execStationMove_tended s f n g)
  | stationEvict f n => exact execStationEvict_stored v f n
  | passLoad f es => exact execPassLoad_stored v f es
  | passAmend f n t x d => exact execPassAmend_stored v f n t x d
  | passVoid f n => exact execPassVoid_stored v f n
  | passDrop f n => exact execPassDrop_stored v f n
  | passQuery f r => exact execPassQuery_stored v f r
  | gateScan f n g d => exact execGateScan_stored v f n g d
  | zoneSet f z d => exact execZoneSet_stored v f z d
  | zoneQuery f z => exact execZoneQuery_stored v f z
  | censusLatch f zs => exact execCensusLatch_stored v f zs
  | censusRead f z => exact execCensusRead_stored v f z
  | ingestMode f m b => exact execIngestMode_stored v f m b
  | programSet f p l a b => exact execProgramSet_stored v f p l a b
  | channelSetup f c p r m => exact execChannelSetup_stored v f c p r m
  | channelEnable f a b => exact execChannelEnable_stored v f a b
  | play f c i l n m b => exact execPlay_stored v f c i l n m b
  | stop f c ls => exact execStop_stored v f c ls
  | channelStatus f c => exact execChannelStatus_stored v f c
  | clipQuery f r => exact execClipQuery_stored v f r
  | clipPin f i b => exact execClipPin_stored v f i b
  | clipRetire f i => exact execClipRetire_stored v f i

/-- Settles O5: no work makes a record but under a new address, number or key, and none changes one; the DRAM is only written
byte by byte. -/
theorem everyStepKeepsTables : Obligations.EveryStepKeepsTables := by
  intro s t v e
  unfold step at e
  split at e
  · cases e; exact v
  · next c rest _ => exact exec_stored (s := { s with pending := rest }) v c t e

end Sys2Proof.Machine

/-!
PROOF LAYER. An unbound pass, and a vacated record in three parts: the handover's end, the unbinding, the departure from the head
(R30, R96).
-/
namespace Sys2Proof.Machine

/-! ## The unbound pass and its station -/

section
variable {s : State} {p : Nat} {q : Pass} (held : s.pass p = some q) (after : PassState)
include held

theorem State.unbindPass_passes :
    (s.unbindPass p after).passes = Table.put s.passes p { q with station := none, state := after } := by
  unfold State.unbindPass
  rw [held]
  dsimp only
  split <;> rfl

theorem State.unbindPass_pass (k : Nat) :
    (s.unbindPass p after).pass k = if k = p then some { q with station := none, state := after } else s.pass k := by
  rw [State.pass, State.unbindPass_passes held]; exact Table.get_put _ _ _ _

theorem State.unbindPass_station (j : Nat) : (s.unbindPass p after).station j
    = if q.station = some j then (s.station j).map fun st => { st with pass := none } else s.station j := by
  unfold State.unbindPass
  rw [held]
  dsimp only
  split
  · next none_ => rw [none_, if_neg (by simp)]; rfl
  · next i own =>
    rw [State.station_updateStation, own]
    by_cases e : j = i
    · subst e; rw [if_pos rfl, if_pos rfl]; rfl
    · rw [if_neg e, if_neg (by simpa using Ne.symm e)]; rfl

end

/-! ## The three parts -/

/-- The first part: a MOVING station's handover is aborted. -/
def State.endHandover (s : State) (i : Nat) (tell : Bool) : State :=
  match s.holdOf i with
  | none => s
  | some x => s.abortDeparture x tell

/-- The second: a bound station's pass returns to ADMITTED. -/
def State.freePass (s : State) (st : Station) : State :=
  match st.pass with
  | none => s
  | some p => s.unbindPass p .admitted

/-- The third: the record is vacant, and the head it leaves is recomputed and makes its drain check. -/
def State.leaveHead (s : State) (i : Nat) (st : Station) (tell : Bool) : State :=
  match st.current with
  | none => { s with stations := Table.drop s.stations i }
  | some h =>
    let t := if tell then s.send h (.disassoc st.addr) else s
    (({ t with stations := Table.drop t.stations i }).recompute h).drainCheck h

theorem State.vacate_of_vacant {s : State} {i : Nat} (e : s.station i = none) (a b : Bool) : s.vacate i a b = s := by
  unfold State.vacate; rw [e]

theorem State.vacate_eq {s : State} {i : Nat} {st : Station} (e : s.station i = some st) (a b : Bool) :
    s.vacate i a b = ((s.endHandover i b).freePass st).leaveHead i st a := by
  unfold State.vacate; rw [e]; rfl

theorem State.endHandover_keeps (s : State) (i : Nat) (tell : Bool) : s.Keeps (s.endHandover i tell) := by
  unfold State.endHandover
  split
  · exact State.Keeps.refl s
  · exact (State.Keeps.refl s).abortDeparture _ tell

theorem State.leaveHead_keeps (s : State) (i : Nat) (st : Station) (tell : Bool) : s.Keeps (s.leaveHead i st tell) := by
  have k := State.Keeps.refl s
  unfold State.leaveHead
  split
  · exact k.dropStation i
  · dsimp only
    split
    · exact ((((k.send _ _).dropStation i).recompute _).drainCheck _)
    · exact (((k.dropStation i).recompute _).drainCheck _)

theorem State.leaveHead_stations (s : State) (i : Nat) (st : Station) (tell : Bool) :
    (s.leaveHead i st tell).stations = Table.drop s.stations i := by
  unfold State.leaveHead
  split
  · rfl
  · dsimp only
    rw [State.drainCheck_stations, State.recompute_stations]
    split <;> rfl

theorem State.vacate_station (s : State) (i : Nat) (a b : Bool) : (s.vacate i a b).station i = none := by
  cases e : s.station i with
  | none => rw [State.vacate_of_vacant e, e]
  | some st => rw [State.vacate_eq e, State.station, State.leaveHead_stations, Table.get_drop, if_pos rfl]

end Sys2Proof.Machine

/-!
PROOF LAYER. What cached zones and permitted sets are read from: the zone map, the tier table, the public set, the re-zone pass and
four fields of each pass record (`State.mapView`).
-/
namespace Sys2Proof.Machine

/-! ## The view -/

/-- The fields of a pass that its cached zone, its station's permitted set and its tier value are read from. -/
def Pass.facts (q : Pass) : Tier × Option (BitVec 16) × Option ZoneId × Option ZoneId := (q.tier, q.seat, q.declared, q.cached)

/-- The facts of every pass record. -/
def State.passFacts (s : State) : Nat → Option (Tier × Option (BitVec 16) × Option ZoneId × Option ZoneId) :=
  fun p => (s.pass p).map Pass.facts

/-- The zone map: every zone's record, its counts and latch apart. -/
def State.zoneMap (s : State) : ZoneId → Option ZoneRecord := fun z => (s.zone z).fields

/-- All that cached zones, permitted sets and tier values are read from. -/
def State.mapView (s : State) := (s.passFacts, s.zoneMap, s.rezone, s.roam.pub, s.tiers, s.unbound)

theorem State.mapView_of_aside {s t : State} (e : t.aside = s.aside) : t.mapView = s.mapView := by
  have same : t.aside.mapView = s.aside.mapView := by rw [e]
  exact same

theorem State.mapView_of_passView {s t : State} (passes : t.passView = s.passView) (host : t.hostSet = s.hostSet) :
    t.mapView = s.mapView := by
  simp only [State.passView, State.hostSet, Prod.mk.injEq] at passes host
  have facts : t.passFacts = s.passFacts := by funext p; simp only [State.passFacts, State.pass, passes.1]
  have zones : t.zoneMap = s.zoneMap := by funext z; simp only [State.zoneMap, State.zone, passes.2.1]
  simp only [State.mapView, facts, zones, passes.2.2, host]

theorem State.Keeps.mapView {s t : State} (k : s.Keeps t) : t.mapView = s.mapView := State.mapView_of_aside k.aside

section
variable {s t : State} (e : t.mapView = s.mapView)
include e

theorem State.passFacts_of_mapView : t.passFacts = s.passFacts := by
  simp only [State.mapView, Prod.mk.injEq] at e; exact e.1

theorem State.zoneMap_of_mapView : t.zoneMap = s.zoneMap := by
  simp only [State.mapView, Prod.mk.injEq] at e; exact e.2.1

theorem State.rezone_of_mapView : t.rezone = s.rezone := by
  simp only [State.mapView, Prod.mk.injEq] at e; exact e.2.2.1

theorem State.pub_of_mapView : t.roam.pub = s.roam.pub := by
  simp only [State.mapView, Prod.mk.injEq] at e; exact e.2.2.2.1

theorem State.tiers_of_mapView : t.tiers = s.tiers := by
  simp only [State.mapView, Prod.mk.injEq] at e; exact e.2.2.2.2.1

theorem State.unbound_of_mapView : t.unbound = s.unbound := by
  simp only [State.mapView, Prod.mk.injEq] at e; exact e.2.2.2.2.2

end

/-! ## What is read from it -/

theorem State.cachedZone_congr {s t : State} (e : t.zoneMap = s.zoneMap) (seat : Option (BitVec 16)) (declared : Option ZoneId) :
    t.cachedZone seat declared = s.cachedZone seat declared := by
  have at_ : ∀ z, (t.zone z).fields = (s.zone z).fields := fun z => congrFun e z
  have seats : ∀ n, t.seatZone n = s.seatZone n := by intro n; simp only [State.seatZone, at_]
  have valid : t.validZone = s.validZone := by funext z; simp only [State.validZone, at_]
  simp only [State.cachedZone, seats, valid]

theorem State.zoneChans_congr {s t : State} (e : t.zoneMap = s.zoneMap) (z : ZoneId) : t.zoneChans z = s.zoneChans z := by
  simp only [State.zoneChans, show (t.zone z).fields = (s.zone z).fields from congrFun e z]

/-- What a bound pass adds to a station's permitted set (R35). -/
def State.bonus (s : State) (q : Pass) : ChanSet :=
  match q.cached with
  | none => 0
  | some z => s.zoneChans z &&& s.tiers[q.tier].chans

theorem State.permitted_of_unbound {s : State} {st : Station} (e : st.pass = none) : s.permitted st = s.roam.pub := by
  simp [State.permitted, e]

theorem State.permitted_of_bound {s : State} {st : Station} {p : Nat} {q : Pass} (e : st.pass = some p) (at_ : s.pass p = some q) :
    s.permitted st = s.roam.pub ||| s.bonus q := by
  simp only [State.permitted, e, Option.bind_some, at_, State.bonus] <;> rfl

theorem State.bonus_congr {s t : State} (map : t.zoneMap = s.zoneMap) (tiers : t.tiers = s.tiers) {q x : Pass}
    (cached : x.cached = q.cached) (tier : x.tier = q.tier) : t.bonus x = s.bonus q := by
  simp only [State.bonus, cached, tier, tiers, State.zoneChans_congr map]

/-- A permitted set is read from the public set and what the bound pass adds. -/
theorem State.permitted_congr {s t : State} (pub : t.roam.pub = s.roam.pub) {st x : Station} (pass : x.pass = st.pass)
    (bonus : ∀ p, st.pass = some p → (t.pass p).map t.bonus = (s.pass p).map s.bonus) : t.permitted x = s.permitted st := by
  cases e : st.pass with
  | none => rw [State.permitted_of_unbound (pass.trans e), State.permitted_of_unbound e, pub]
  | some p =>
    have same := bonus p e
    have ex : x.pass = some p := pass.trans e
    cases hs : s.pass p with
    | some q =>
      rw [hs] at same
      obtain ⟨q', ht, eq⟩ := Option.map_eq_some_iff.1 same
      rw [State.permitted_of_bound ex ht, State.permitted_of_bound e hs, pub, eq]
    | none =>
      rw [hs] at same
      have ht : t.pass p = none := by simpa using same
      simp only [State.permitted, ex, e, Option.bind_some, hs, ht, pub]

theorem State.bonus_of_mapView {s t : State} (e : t.mapView = s.mapView) (p : Nat) :
    (t.pass p).map t.bonus = (s.pass p).map s.bonus := by
  have facts := congrFun (State.passFacts_of_mapView e) p
  simp only [State.passFacts] at facts
  cases hs : s.pass p with
  | none =>
    have ht : t.pass p = none := by simpa [hs] using facts
    rw [ht]; rfl
  | some q =>
    rw [hs] at facts
    obtain ⟨q', ht, eq⟩ := Option.map_eq_some_iff.1 facts
    simp only [Pass.facts, Prod.mk.injEq] at eq
    rw [ht, Option.map_some, Option.map_some,
      State.bonus_congr (State.zoneMap_of_mapView e) (State.tiers_of_mapView e) eq.2.2.2 eq.1]

theorem State.permitted_of_mapView {s t : State} (e : t.mapView = s.mapView) {st x : Station} (pass : x.pass = st.pass) :
    t.permitted x = s.permitted st :=
  State.permitted_congr (State.pub_of_mapView e) pass fun p _ => State.bonus_of_mapView e p

theorem State.tierValue_of_mapView {s t : State} (e : t.mapView = s.mapView) {st x : Station} (pass : x.pass = st.pass) :
    t.tierValue x = s.tierValue st := by
  have unbound := State.unbound_of_mapView e
  have tiers := State.tiers_of_mapView e
  cases ep : st.pass with
  | none => simp only [State.tierValue, pass, ep, unbound]
  | some p =>
    have facts := congrFun (State.passFacts_of_mapView e) p
    simp only [State.passFacts] at facts
    cases hs : s.pass p with
    | none =>
      have ht : t.pass p = none := by simpa [hs] using facts
      simp only [State.tierValue, pass, ep, hs, ht, unbound]
    | some q =>
      rw [hs] at facts
      obtain ⟨q', ht, eq⟩ := Option.map_eq_some_iff.1 facts
      simp only [Pass.facts, Prod.mk.injEq] at eq
      simp only [State.tierValue, pass, ep, hs, ht, tiers, eq.1]

theorem State.visited_congr {s t : State} (e : t.rezone = s.rezone) (p : Nat) : t.Visited p ↔ s.Visited p := by
  simp only [State.Visited, e]

/-! ## Work that leaves it alone -/

/-- A pass record written with the facts of the one that stood there. -/
theorem State.mapView_setPass {s : State} {p : Nat} {q x : Pass} (at_ : s.pass p = some q) (e : x.facts = q.facts) :
    (s.setPass p x).mapView = s.mapView := by
  have facts : (s.setPass p x).passFacts = s.passFacts := by
    funext k
    simp only [State.passFacts, State.pass_setPass]
    split
    · next eq => rw [eq, at_, Option.map_some, Option.map_some, e]
    · rfl
  simp only [State.mapView, facts]; rfl

theorem State.mapView_updatePass (s : State) (p : Nat) {f : Pass → Pass} (e : ∀ x, (f x).facts = x.facts) :
    (s.updatePass p f).mapView = s.mapView := by
  have facts : (s.updatePass p f).passFacts = s.passFacts := by
    funext k
    simp only [State.passFacts, State.pass_updatePass]
    split
    · rw [Option.map_map]; congr 1; funext x; exact e x
    · rfl
  simp only [State.mapView, facts]; rfl

theorem State.zone_count (s : State) (z : Option ZoneId) (f : Zone → Zone) (k : ZoneId) :
    (s.count z f).zone k = if z = some k then f (s.zone k) else s.zone k := by
  cases z with
  | none => simp [State.zone, State.count]
  | some j =>
    simp only [State.zone, State.count, Fin.getElem_fin, Vector.getElem_set, Option.some.injEq, Fin.ext_iff]
    split
    · next e => simp only [e]
    · rfl

theorem State.zoneMap_count (s : State) (z : Option ZoneId) {f : Zone → Zone} (e : ∀ x, (f x).fields = x.fields) :
    (s.count z f).zoneMap = s.zoneMap := by
  funext k
  simp only [State.zoneMap, State.zone_count]
  split
  · exact e _
  · rfl

theorem State.mapView_count (s : State) (z : Option ZoneId) {f : Zone → Zone} (e : ∀ x, (f x).fields = x.fields) :
    (s.count z f).mapView = s.mapView := by
  simp only [State.mapView, State.zoneMap_count s z e]; rfl

theorem State.mapView_censusMove (s : State) (z : Option ZoneId) (a b : Option PassState) :
    (s.censusMove z a b).mapView = s.mapView := s.mapView_count z fun _ => rfl

theorem State.mapView_markStale (s : State) (z : Option ZoneId) : (s.markStale z).mapView = s.mapView :=
  s.mapView_count z fun _ => rfl

theorem State.mapView_rezoneCounts (s : State) (st : PassState) (a b : Option ZoneId) :
    (s.rezoneCounts st a b).mapView = s.mapView := by
  unfold State.rezoneCounts; split
  · rfl
  · rw [State.mapView_censusMove, State.mapView_censusMove]

@[simp] theorem State.mapView_setStation (s : State) (i : Nat) (x : Station) : (s.setStation i x).mapView = s.mapView := rfl

@[simp] theorem State.mapView_updateStation (s : State) (i : Nat) (f : Station → Station) :
    (s.updateStation i f).mapView = s.mapView := rfl

@[simp] theorem State.mapView_send (s : State) (h : HeadId) (f : LinkFrame) : (s.send h f).mapView = s.mapView := rfl

@[simp] theorem State.mapView_note (s : State) (n : Notice) : (s.note n).mapView = s.mapView := rfl

theorem State.mapView_unbindPass (s : State) (p : Nat) (a : PassState) : (s.unbindPass p a).mapView = s.mapView := by
  unfold State.unbindPass
  split
  · rfl
  · next q e =>
    have moved : ((s.setPass p { q with station := none, state := a }).censusMove q.cached (some q.state)
        (some a)).mapView = s.mapView := by
      rw [State.mapView_censusMove, State.mapView_setPass (x := { q with station := none, state := a }) e rfl]
    dsimp only
    split
    · exact moved
    · exact moved

theorem State.mapView_suspectIf {s : State} {p : Nat} {q x : Pass} (at_ : s.pass p = some q) (e : x.facts = q.facts) (r : Bool)
    (c : SuspectCause) : (s.suspectIf p x r c).mapView = s.mapView := by
  unfold State.suspectIf; split
  · exact State.mapView_setPass (x := { x with suspect := true }) at_ e
  · exact State.mapView_setPass at_ e

/-! ## The laws that rest on it -/

theorem State.RezoneInv.congr {s t : State} (inv : s.RezoneInv) (e : t.mapView = s.mapView) : t.RezoneInv := by
  obtain ⟨running, cursor, changed, trimmed, passes⟩ := inv
  have rez := State.rezone_of_mapView e
  refine ⟨by rw [rez]; exact running, by rw [rez]; exact cursor, by rw [rez]; exact changed, by rw [rez]; exact trimmed,
    fun p x at_ visited => ?_⟩
  have facts := congrFun (State.passFacts_of_mapView e) p
  simp only [State.passFacts, at_, Option.map_some] at facts
  obtain ⟨q, hs, eq⟩ := Option.map_eq_some_iff.1 facts.symm
  simp only [Pass.facts, Prod.mk.injEq] at eq
  have := passes p q hs ((State.visited_congr rez p).1 visited)
  rw [State.cachedZone_congr (State.zoneMap_of_mapView e), ← eq.2.2.2, ← eq.2.1, ← eq.2.2.1]
  exact this

/-- A station's channel set is contained in its permitted set, unless its pass is yet to be visited (R35). -/
def State.ChansAt (s : State) (i : Nat) : Prop :=
  ∀ st, s.station i = some st → (∀ p, st.pass = some p → s.Visited p) → st.chans &&& ~~~ s.permitted st = 0

theorem State.chansInv_iff {s : State} : s.ChansInv ↔ ∀ i, s.ChansAt i := Iff.rfl

/-- A record that comes of the one that stood there, under the same map, keeps the law. -/
theorem State.ChansAt.of {s t : State} {i : Nat} (law : s.ChansAt i) (e : t.mapView = s.mapView)
    (old : ∀ x, t.station i = some x → ∃ st, s.station i = some st ∧ st.Of x) : t.ChansAt i := by
  intro x at_ visited
  obtain ⟨st, hs, o⟩ := old x at_
  rw [State.permitted_of_mapView e o.2.1]
  refine chans_within_trans o.2.2 (law st hs fun p hp => ?_)
  exact (State.visited_congr (State.rezone_of_mapView e) p).1 (visited p (o.2.1.trans hp))

theorem State.ChansAt.keeps {s t : State} {i : Nat} (law : s.ChansAt i) (k : s.Keeps t) : t.ChansAt i :=
  law.of k.mapView (k.old i)

/-- A record that stands as it did, under the same map, keeps the law. -/
theorem State.ChansAt.same {s t : State} {i : Nat} (law : s.ChansAt i) (e : t.mapView = s.mapView)
    (station : t.station i = s.station i) : t.ChansAt i :=
  law.of e fun x at_ => ⟨x, station ▸ at_, .refl x⟩

/-- A station's channel set is contained in its permitted set, whatever its pass (R35). -/
def State.ChansFit (s : State) (i : Nat) : Prop := ∀ st, s.station i = some st → st.chans &&& ~~~ s.permitted st = 0

theorem State.ChansFit.chansAt {s : State} {i : Nat} (fit : s.ChansFit i) : s.ChansAt i := fun st at_ _ => fit st at_

theorem State.ChansFit.keeps {s t : State} {i : Nat} (fit : s.ChansFit i) (k : s.Keeps t) : t.ChansFit i := by
  intro x at_
  obtain ⟨st, held, o⟩ := k.old i x at_
  rw [State.permitted_of_mapView k.mapView o.2.1]
  exact chans_within_trans o.2.2 (fit st held)

theorem State.chansFit_of_not_overSubscribed {s : State} {i : Nat} (e : s.overSubscribed i = false) : s.ChansFit i := by
  intro st at_
  simpa [State.overSubscribed, at_] using e

/-- A trimmed station's channel set is contained in its permitted set (R38). -/
theorem State.trim_chansFit (s : State) (i : Nat) : (s.trim i).ChansFit i := by
  intro x at_
  have map : (s.trim i).mapView = s.mapView := ((State.Keeps.refl s).trim i).mapView
  unfold State.trim at at_
  split at at_
  · next none_ => rw [none_] at at_; cases at_
  · next st e =>
    have trimmed : (s.keepChans i (s.permitted st)).station i
        = some { st with chans := st.chans &&& s.permitted st } := by
      show (s.updateStation i fun st' => { st' with chans := st'.chans &&& s.permitted st }).station i = _
      rw [State.station_updateStation, if_pos rfl, e]; rfl
    rw [trimmed] at at_
    cases at_
    rw [State.permitted_of_mapView map (st := st) (x := { st with chans := st.chans &&& s.permitted st }) rfl]
    exact chans_within_right _ _

theorem State.trim_chansAt (s : State) (i : Nat) : (s.trim i).ChansAt i := (s.trim_chansFit i).chansAt

end Sys2Proof.Machine

/-!
PROOF LAYER. The census: a pass record written or removed with its counts moved keeps the counts true (R88, R118).
-/
namespace Sys2Proof.Machine

/-! ## Counting records -/

/-- A record written moves a count by what it counts for and what the record there before counted for. -/
theorem Table.countP_put {α : Type} {t : Table α} (w : Table.wf t) (i : Nat) (x : α) (f : α → Bool) :
    (Table.put t i x).countP (fun p => f p.2) + ((Table.get t i).any f).toNat = t.countP (fun p => f p.2) + (f x).toNat := by
  induction t with
  | nil => simp [Table.put, Table.get, List.countP_cons, Bool.toNat, Bool.cond_eq_ite]
  | cons a rest ih =>
    obtain ⟨j, y⟩ := a
    have tail : Table.wf rest := (List.pairwise_cons.1 w).2
    have below := (List.pairwise_cons.1 w).1
    simp only [Table.put, Table.get]
    split
    · next lt =>
      have vacant : Table.get rest i = none := by
        cases e : Table.get rest i with
        | none => rfl
        | some z =>
          have := below i (List.mem_map_of_mem (Table.get_eq_some_mem e))
          omega
      rw [if_neg (by omega), vacant]
      simp [List.countP_cons, Bool.toNat, Bool.cond_eq_ite]
    · split
      · next eq =>
        rw [if_pos eq.symm]
        simp only [List.countP_cons, Option.any_some, Bool.toNat, Bool.cond_eq_ite]
        omega
      · next ne =>
        rw [if_neg (fun e => ne e.symm)]
        have := ih tail
        simp only [List.countP_cons]
        omega

/-- A record removed lowers a count by what it counted for. -/
theorem Table.countP_drop {α : Type} {t : Table α} (w : Table.wf t) (i : Nat) (f : α → Bool) :
    (Table.drop t i).countP (fun p => f p.2) + ((Table.get t i).any f).toNat = t.countP (fun p => f p.2) := by
  induction t with
  | nil => rfl
  | cons a rest ih =>
    obtain ⟨j, y⟩ := a
    have tail : Table.wf rest := (List.pairwise_cons.1 w).2
    have below := (List.pairwise_cons.1 w).1
    have more := ih tail
    simp only [Table.drop, Table.get] at more ⊢
    by_cases eq : j = i
    · subst eq
      have vacant : Table.get rest j = none := by
        cases e : Table.get rest j with
        | none => rfl
        | some z => exact absurd (below j (List.mem_map_of_mem (Table.get_eq_some_mem e))) (lt_irrefl j)
      rw [vacant] at more
      simp only [List.countP_cons, Option.any_some, Option.any_none, Bool.toNat, Bool.cond_eq_ite, bne_self_eq_false,
        List.filter_cons, if_pos] at more ⊢
      simp at more ⊢
      omega
    · simp only [List.filter_cons, bne_iff_ne, ne_eq, eq, not_false_eq_true, if_true, if_false, List.countP_cons]
      omega

/-- An update of a vacant record changes nothing. -/
theorem Table.update_of_vacant {α : Type} {t : Table α} (w : Table.wf t) {i : Nat} (e : Table.get t i = none) (f : α → α) :
    Table.update t i f = t := by
  refine (List.map_congr_left fun p mem => ?_).trans (List.map_id t)
  have other : p.1 ≠ i := fun at_ => by
    have := Table.get_of_mem (x := p.2) w (i := p.1) mem
    rw [at_, e] at this; cases this
  rw [if_neg other]; rfl

/-! ## Counts that are true -/

/-- Whether a pass counts for a zone, by a condition on its state. -/
def Pass.countsIn (f : PassState → Bool) (z : ZoneId) (q : Pass) : Bool := q.cached == some z && f q.state

/-- Every zone's counts are true, and the pass records in their form. -/
def State.CensusTrue (s : State) : Prop := Table.wf s.passes ∧ s.CensusInv

theorem State.CensusTrue.congr {s t : State} (c : s.CensusTrue) (passes : t.passes = s.passes)
    (counts : ∀ z, (t.zone z).admitted = (s.zone z).admitted ∧ (t.zone z).seated = (s.zone z).seated) : t.CensusTrue := by
  refine ⟨by rw [passes]; exact c.1, fun z => ?_⟩
  have same : ∀ f, t.passCount f = s.passCount f := fun f => by rw [State.passCount, passes]; rfl
  rw [(counts z).1, (counts z).2, same, same]
  exact c.2 z

theorem State.CensusTrue.of_passView {s t : State} (c : s.CensusTrue) (e : t.passView = s.passView) : t.CensusTrue := by
  simp only [State.passView, Prod.mk.injEq] at e
  exact c.congr e.1 fun z => by rw [State.zone, State.zone, e.2.1]; exact ⟨rfl, rfl⟩

theorem moveCount_balance {before after : Bool} {n : Nat} (h : before.toNat ≤ n) :
    moveCount before after n + before.toNat = n + after.toNat := by
  cases before <;> cases after <;> simp_all [moveCount]

/-- A pass that counts for a zone is among those counted. -/
theorem State.CensusTrue.counted {s : State} (c : s.CensusTrue) {p : Nat} {q : Pass} (at_ : s.pass p = some q) (z : ZoneId) :
    (q.countsIn passInside z).toNat ≤ (s.zone z).admitted ∧ (q.countsIn passSeated z).toNat ≤ (s.zone z).seated := by
  have one : ∀ f : Pass → Bool, (f q).toNat ≤ s.passCount f := by
    intro f
    cases e : f q with
    | false => exact Nat.zero_le _
    | true => exact List.countP_pos_iff.2 ⟨(p, q), Table.get_eq_some_mem at_, e⟩
  rw [(c.2 z).1, (c.2 z).2]
  exact ⟨one _, one _⟩

/-- A record written with each zone's counts moved by what it and the record before it count for. -/
theorem State.CensusTrue.put {s t : State} (c : s.CensusTrue) {p : Nat} {x : Pass} (passes : t.passes = Table.put s.passes p x)
    (counts : ∀ z,
      (t.zone z).admitted + ((s.pass p).any (Pass.countsIn passInside z)).toNat
          = (s.zone z).admitted + (x.countsIn passInside z).toNat
        ∧ (t.zone z).seated + ((s.pass p).any (Pass.countsIn passSeated z)).toNat
          = (s.zone z).seated + (x.countsIn passSeated z).toNat) : t.CensusTrue := by
  refine ⟨by rw [passes]; exact Table.wf_put c.1 p x, fun z => ?_⟩
  obtain ⟨adm, sea⟩ := counts z
  have total : ∀ f : Pass → Bool, t.passCount f + ((s.pass p).any f).toNat = s.passCount f + (f x).toNat := fun f => by
    rw [State.passCount, passes]; exact Table.countP_put c.1 p x f
  have i := total (Pass.countsIn passInside z)
  have o := total (Pass.countsIn passSeated z)
  have was := c.2 z
  simp only [← show ∀ f, (Pass.countsIn f z) = (fun q => q.cached == some z && f q.state) from fun _ => rfl] at was ⊢
  omega

/-! ## The moves -/

theorem State.zone_censusMove (s : State) (c : Option ZoneId) (a b : Option PassState) (z : ZoneId) :
    (s.censusMove c a b).zone z = if c = some z then (s.zone z).moved a b else s.zone z := s.zone_count c _ z

section
variable {s : State} (c : s.CensusTrue)
include c

/-- A record written that counts as the one before it does. -/
theorem State.CensusTrue.rewrite {p : Nat} {q x : Pass} (at_ : s.pass p = some q) (cached : x.cached = q.cached)
    (state : x.state = q.state) : (s.setPass p x).CensusTrue :=
  c.put (t := s.setPass p x) rfl fun z => by
    simp only [at_, Option.any_some, Pass.countsIn, cached, state]; exact ⟨rfl, rfl⟩

theorem State.CensusTrue.updatePass (p : Nat) {f : Pass → Pass} (cached : ∀ q, (f q).cached = q.cached)
    (state : ∀ q, (f q).state = q.state) : (s.updatePass p f).CensusTrue := by
  cases e : s.pass p with
  | none =>
    exact c.congr (Table.update_of_vacant c.1 e f) fun _ => ⟨rfl, rfl⟩
  | some q =>
    have same : s.updatePass p f = s.setPass p (f q) := by
      simp only [State.updatePass, State.setPass, Table.update_eq_put c.1 e]
    rw [same]; exact c.rewrite e (cached q) (state q)

/-- A pass moves from one state to another in the zone it counts in (R88). -/
theorem State.CensusTrue.move {p : Nat} {q x : Pass} (at_ : s.pass p = some q) (cached : x.cached = q.cached) :
    ((s.setPass p x).censusMove q.cached (some q.state) (some x.state)).CensusTrue := by
  refine c.put (p := p) (x := x) rfl fun z => ?_
  have small := c.counted at_ z
  simp only [at_, Option.any_some, State.zone_censusMove, Pass.countsIn, cached] at small ⊢
  by_cases e : q.cached = some z
  · simp only [e, if_true, beq_self_eq_true, Bool.true_and] at small ⊢
    exact ⟨moveCount_balance small.1, moveCount_balance small.2⟩
  · simp only [e, if_false, beq_eq_false_iff_ne.2 e, Bool.false_and]
    exact ⟨rfl, rfl⟩

/-- A pass moves from one zone to another in the state it is in (R100, R114). -/
theorem State.CensusTrue.rezone {p : Nat} {q x : Pass} (at_ : s.pass p = some q) (state : x.state = q.state) :
    ((s.setPass p x).rezoneCounts q.state q.cached x.cached).CensusTrue := by
  unfold State.rezoneCounts
  split
  · next same => exact c.rewrite at_ same.symm state
  · next moved =>
    refine c.put (p := p) (x := x) rfl fun z => ?_
    have small := c.counted at_ z
    simp only [at_, Option.any_some, State.zone_censusMove, Pass.countsIn, state] at small ⊢
    by_cases e : q.cached = some z
    · have ne : x.cached ≠ some z := fun k => moved (e.trans k.symm)
      simp only [e, ne, if_true, if_false, beq_self_eq_true, beq_eq_false_iff_ne.2 ne, Bool.true_and, Bool.false_and] at small ⊢
      exact ⟨moveCount_balance small.1, moveCount_balance small.2⟩
    · by_cases k : x.cached = some z
      · simp only [e, k, if_true, if_false, beq_self_eq_true, beq_eq_false_iff_ne.2 e, Bool.true_and, Bool.false_and]
        exact ⟨moveCount_balance (Nat.zero_le _), moveCount_balance (Nat.zero_le _)⟩
      · simp only [e, k, if_false, beq_eq_false_iff_ne.2 e, beq_eq_false_iff_ne.2 k, Bool.false_and]
        exact ⟨rfl, rfl⟩

/-- A record made that counts nowhere. -/
theorem State.CensusTrue.make {p : Nat} {x : Pass} (vacant : s.pass p = none) (outside : passInside x.state = false) :
    (s.setPass p x).CensusTrue := by
  have idle : passSeated x.state = false := by revert outside; cases x.state <;> decide
  refine c.put (t := s.setPass p x) rfl fun z => ?_
  simp only [vacant, Option.any_none, Pass.countsIn, outside, idle, Bool.and_false]
  exact ⟨rfl, rfl⟩

/-- A record removed that counts nowhere. -/
theorem State.CensusTrue.remove {p : Nat} (outside : ∀ q, s.pass p = some q → passInside q.state = false) :
    ({ s with passes := Table.drop s.passes p } : State).CensusTrue := by
  refine ⟨Table.wf_drop c.1 p, fun z => ?_⟩
  have total : ∀ f : Pass → Bool, ({ s with passes := Table.drop s.passes p } : State).passCount f
      + ((s.pass p).any f).toNat = s.passCount f := fun f => Table.countP_drop c.1 p f
  have none_ : ∀ f, (∀ q, s.pass p = some q → f q = false) → ((s.pass p).any f).toNat = 0 := by
    intro f h
    cases e : s.pass p with
    | none => rfl
    | some q => rw [Option.any_some, h q e]; rfl
  have i := total (Pass.countsIn passInside z)
  have o := total (Pass.countsIn passSeated z)
  rw [none_ _ fun q e => by simp [Pass.countsIn, outside q e]] at i
  rw [none_ _ fun q e => by
    have out := outside q e
    have idle : passSeated q.state = false := by revert out; cases q.state <;> decide
    simp [Pass.countsIn, idle]] at o
  have was := c.2 z
  exact ⟨was.1.trans i.symm, was.2.trans o.symm⟩

end

end Sys2Proof.Machine

/-!
PROOF LAYER. Binding and unbinding: the zone map is left alone, the counts stay true, and only the stations bound or unbound have
their permitted sets changed (R35, R88, R96, R97, R128, R131).
-/
namespace Sys2Proof.Machine

/-! ## The census, the re-zone pass and the channel sets together -/

/-- The census counts are true, the re-zone pass is in order, and every station's channel set is permitted. -/
structure State.ZoneLaw (s : State) : Prop where
  census : s.CensusTrue
  rezone : s.RezoneInv
  chans  : ∀ i, s.ChansAt i

theorem State.Sound.zoneLaw {s : State} (h : s.Sound) : s.ZoneLaw :=
  ⟨⟨(State.passesInv_iff.1 h.store.2.1).1, h.census⟩, h.rezone, h.chans⟩

/-- Work that leaves the zone map alone, keeps the counts true, and has only some stations bound, unbound or given channels. -/
structure State.Rebinds (s t : State) (touched : Nat → Prop) : Prop where
  map    : t.mapView = s.mapView
  census : s.CensusTrue → t.CensusTrue
  others : ∀ j, ¬ touched j → ∀ x, t.station j = some x → ∃ st, s.station j = some st ∧ st.Of x

section
variable {s t u : State} {touched : Nat → Prop}

theorem State.Rebinds.law (r : s.Rebinds t touched) (law : s.ZoneLaw) (now : ∀ j, touched j → t.ChansAt j) : t.ZoneLaw := by
  refine ⟨r.census law.census, law.rezone.congr r.map, fun j => ?_⟩
  by_cases m : touched j
  · exact now j m
  · exact (law.chans j).of r.map (r.others j m)

theorem State.Rebinds.trans (h : s.Rebinds t touched) (k : t.Rebinds u touched) : s.Rebinds u touched where
  map := k.map.trans h.map
  census c := k.census (h.census c)
  others j m x e := by
    obtain ⟨y, hy, oy⟩ := k.others j m x e
    obtain ⟨st, hst, ost⟩ := h.others j m y hy
    exact ⟨st, hst, ost.trans oy⟩

theorem State.Rebinds.mono {more : Nat → Prop} (r : s.Rebinds t touched) (sub : ∀ j, touched j → more j) : s.Rebinds t more :=
  ⟨r.map, r.census, fun j m => r.others j fun h => m (sub j h)⟩

theorem State.Keeps.rebinds (k : s.Keeps t) : s.Rebinds t touched :=
  ⟨k.mapView, fun c => c.of_passView (State.passView_of_aside k.aside), fun j _ => k.old j⟩

theorem State.Rebinds.keeps (r : s.Rebinds t touched) (k : t.Keeps u) : s.Rebinds u touched := r.trans k.rebinds

/-- Work on the pass records and the counts alone. -/
theorem State.Rebinds.passes (map : t.mapView = s.mapView) (census : s.CensusTrue → t.CensusTrue)
    (stations : t.stations = s.stations) : s.Rebinds t touched :=
  ⟨map, census, fun j _ x e => ⟨x, by rw [← e, State.station, State.station, stations], .refl x⟩⟩

/-- A touched station's record is written. -/
theorem State.Rebinds.setStation (r : s.Rebinds t touched) {i : Nat} (m : touched i) (x : Station) :
    s.Rebinds (t.setStation i x) touched where
  map := r.map
  census c := (r.census c).of_passView rfl
  others j n y e := by
    rw [State.station_setStation, if_neg (by rintro rfl; exact n m)] at e
    exact r.others j n y e

theorem State.Rebinds.updateStation (r : s.Rebinds t touched) {i : Nat} (m : touched i) (f : Station → Station) :
    s.Rebinds (t.updateStation i f) touched where
  map := r.map
  census c := (r.census c).of_passView rfl
  others j n y e := by
    rw [State.station_updateStation, if_neg (by rintro rfl; exact n m)] at e
    exact r.others j n y e

theorem State.Rebinds.dropStation (r : s.Rebinds t touched) (i : Nat) :
    s.Rebinds { t with stations := Table.drop t.stations i } touched := r.keeps ((State.Keeps.refl t).dropStation i)

end

/-! ## Binding and unbinding -/

section
variable {s : State}

theorem State.CensusTrue.unbindPass (c : s.CensusTrue) (p : Nat) (a : PassState) : (s.unbindPass p a).CensusTrue := by
  unfold State.unbindPass
  split
  · exact c
  · next q e =>
    have moved := c.move (x := { q with station := none, state := a }) e rfl
    dsimp only
    split
    · exact moved
    · exact moved.of_passView rfl

theorem State.unbindPass_rebinds (p : Nat) (a : PassState) :
    s.Rebinds (s.unbindPass p a) fun j => (s.pass p).bind Pass.station = some j := by
  refine ⟨s.mapView_unbindPass p a, fun c => c.unbindPass p a, fun j other x e => ?_⟩
  unfold State.unbindPass at e
  split at e
  · exact ⟨x, e, .refl x⟩
  · next q at_ =>
    dsimp only at e
    split at e
    · exact ⟨x, e, .refl x⟩
    · next i bound =>
      have ne : j ≠ i := fun same => other (by rw [at_, Option.bind_some, bound, same])
      rw [State.station_updateStation, if_neg ne] at e
      exact ⟨x, e, .refl x⟩

theorem State.unbindStation_chansAt (i : Nat) : (s.unbindStation i).ChansAt i :=
  (State.trim_chansAt _ i).keeps ((State.Keeps.refl _).recomputeBoth i)

theorem State.unbind_rebinds (p : Nat) (a : PassState) :
    s.Rebinds (s.unbind p a) fun j => (s.pass p).bind Pass.station = some j := by
  unfold State.unbind
  split
  · exact s.unbindPass_rebinds p a
  · exact (s.unbindPass_rebinds p a).keeps ((State.Keeps.refl _).unbindStation _)

theorem State.unbind_chansAt (p : Nat) (a : PassState) {i : Nat} (bound : (s.pass p).bind Pass.station = some i) :
    (s.unbind p a).ChansAt i := by
  unfold State.unbind
  rw [bound]
  exact State.unbindStation_chansAt i

/-- An unbinding keeps the census, the re-zone pass and the channel sets in order. -/
theorem State.ZoneLaw.unbind (law : s.ZoneLaw) (p : Nat) (a : PassState) : (s.unbind p a).ZoneLaw :=
  (State.unbind_rebinds p a).law law fun _ bound => State.unbind_chansAt p a bound

theorem State.ZoneLaw.keeps {t : State} (law : s.ZoneLaw) (k : s.Keeps t) : t.ZoneLaw :=
  (k.rebinds (touched := fun _ => False)).law law fun _ h => h.elim

/-- A record is vacated: its pass alone is unbound. -/
theorem State.vacate_rebinds (binding : s.BindingInv) (i : Nat) (a b : Bool) : s.Rebinds (s.vacate i a b) (· = i) := by
  cases at_ : s.station i with
  | none => rw [State.vacate_of_vacant at_]; exact (State.Keeps.refl s).rebinds
  | some st =>
    rw [State.vacate_eq at_]
    have ended := s.endHandover_keeps i b
    refine State.Rebinds.keeps ?_ (State.leaveHead_keeps _ i st a)
    unfold State.freePass
    split
    · exact ended.rebinds
    · next p bound =>
      refine ended.rebinds.trans ((State.unbindPass_rebinds p _).mono fun j own => ?_)
      obtain ⟨q, held, holder⟩ := binding.2.1 i st p at_ bound
      have same : (s.endHandover i b).pass p = s.pass p := by rw [State.pass, State.passes_of_aside ended.aside]; rfl
      rw [same, held, Option.bind_some, holder] at own
      exact (Option.some.inj own).symm

theorem State.ZoneLaw.vacate (law : s.ZoneLaw) (binding : s.BindingInv) (i : Nat) (a b : Bool) : (s.vacate i a b).ZoneLaw := by
  refine (State.vacate_rebinds binding i a b).law law ?_
  rintro j rfl x e
  rw [State.vacate_station] at e
  cases e

/-! ## A bind, a transfer, a refusal -/

theorem State.suspectIf_rebinds {p : Nat} {q x : Pass} {touched : Nat → Prop} (at_ : s.pass p = some q)
    (facts : x.facts = q.facts) (state : x.state = q.state) (r : Bool) (c : SuspectCause) :
    s.Rebinds (s.suspectIf p x r c) touched := by
  refine .passes (State.mapView_suspectIf at_ facts r c) (fun census => ?_) ?_
  · have cached : x.cached = q.cached := by simp only [Pass.facts, Prod.mk.injEq] at facts; exact facts.2.2.2
    unfold State.suspectIf
    split
    · exact (census.rewrite (x := { x with suspect := true }) at_ cached state).of_passView rfl
    · exact census.rewrite at_ cached state
  · unfold State.suspectIf
    split <;> rfl

theorem State.conflict_rebinds {p : Nat} {q : Pass} {touched : Nat → Prop} (at_ : s.pass p = some q) :
    s.Rebinds (s.conflict p q) touched := by
  unfold State.conflict
  dsimp only
  split
  · exact State.suspectIf_rebinds (x := { q with conflicts := q.conflicts + 1 }) at_ rfl rfl _ _
  · exact (State.Keeps.refl s).rebinds

/-- The public set is permitted to every station (R35). -/
theorem State.pub_within_permitted (st : Station) : s.roam.pub &&& ~~~ s.permitted st = 0 :=
  chans_within_iff.2 fun c => by simp +contextual [State.permitted, hasChan]

theorem State.bindStation_chansAt {t : State} {i p : Nat} {st : Station} (pub : st.chans &&& ~~~ t.roam.pub = 0) :
    (t.bindStation i p st).ChansAt i := by
  refine State.ChansAt.keeps (s := t.setStation i { st with state := .seated, pass := some p }) (fun x e _ => ?_)
    ((State.Keeps.refl _).settle i)
  rw [State.station_setStation, if_pos rfl] at e
  cases e
  exact chans_within_trans pub (State.pub_within_permitted _)

/-- An unbound station's channels are public. -/
theorem State.ZoneLaw.pub (law : s.ZoneLaw) {i : Nat} {st : Station} (at_ : s.station i = some st) (unbound : st.pass = none) :
    st.chans &&& ~~~ s.roam.pub = 0 := by
  rw [← State.permitted_of_unbound unbound]
  exact law.chans i st at_ fun p e => by rw [unbound] at e; cases e

theorem State.ZoneLaw.bind (law : s.ZoneLaw) {i p : Nat} {st : Station} {q : Pass} (at_ : s.station i = some st)
    (unbound : st.pass = none) (held : s.pass p = some q) (admitted : q.state = .admitted) : (s.bind i p st q).ZoneLaw := by
  have moved : s.Rebinds ((s.setPass p { q with state := .seated, station := some i }).censusMove q.cached (some .admitted)
      (some .seated)) (· = i) := by
    refine .passes ?_ (fun c => ?_) rfl
    · rw [State.mapView_censusMove, State.mapView_setPass (x := { q with state := .seated, station := some i }) held rfl]
    · rw [← admitted]; exact c.move (x := { q with state := .seated, station := some i }) held rfl
  refine ((moved.setStation rfl _).keeps ((State.Keeps.refl _).settle i)).law law ?_
  rintro j rfl
  exact State.bindStation_chansAt (law.pub at_ unbound)

theorem State.ZoneLaw.transfer (law : s.ZoneLaw) {i p holder : Nat} {st : Station} {q : Pass} (at_ : s.station i = some st)
    (unbound : st.pass = none) (held : s.pass p = some q) (other : holder ≠ i) : (s.transfer i p holder st q).ZoneLaw := by
  have named : s.Rebinds (s.setPass p { q with station := some i }) (fun j => j = i ∨ j = holder) := by
    refine .passes (State.mapView_setPass (x := { q with station := some i }) held rfl) (fun c => ?_) rfl
    exact c.rewrite (x := { q with station := some i }) held rfl rfl
  have cleared := (named.updateStation (.inr rfl) fun x => { x with pass := none }).keeps
    ((State.Keeps.refl _).trim holder)
  have settled : ∀ u : State, (u.setStation i { st with state := .seated, pass := some p }).Keeps
      ((u.setStation i { st with state := .seated, pass := some p }).settle i) := fun u => (State.Keeps.refl _).settle i
  refine ((cleared.setStation (.inl rfl) _).keeps (settled _)).law law ?_
  rintro j (rfl | rfl)
  · refine State.bindStation_chansAt ?_
    rw [State.pub_of_mapView cleared.map]
    exact law.pub at_ unbound
  · have trimmed := State.trim_chansAt (((s.setPass p { q with station := some i }).updateStation j
      fun x => { x with pass := none })) j
    refine (State.ChansAt.same trimmed ?_ ?_).keeps (settled _)
    · rfl
    · rw [State.station_setStation, if_neg other]

theorem State.ZoneLaw.bindRequest (law : s.ZoneLaw) (binding : s.BindingInv) {i : Nat} {st : Station}
    (at_ : s.station i = some st) (h : HeadId) (m : PassNumber) : (s.bindRequest h m i st).ZoneLaw := by
  have answered : ∀ {t : State} (f : LinkFrame), t.ZoneLaw → (t.send h f).ZoneLaw := fun f w =>
    w.keeps ((State.Keeps.refl _).send h f)
  unfold State.bindRequest
  dsimp only
  split
  · exact answered _ law
  · split
    · exact answered _ law
    · next p _ =>
      split
      · exact answered _ law
      · next q held =>
        split
        case h_4 admitted =>
          split
          · exact answered _ law
          · next free => exact answered _ (law.bind at_ (by simpa using free) held admitted)
        case h_5 seated =>
          split
          · exact answered _ law
          · next free =>
            split
            · exact answered _ law
            · next other =>
              split
              · exact answered _ law
              · next holder bound =>
                split
                · have unbound : st.pass = none := by
                    cases e : st.pass with
                    | none => rfl
                    | some p' =>
                      have same : p' = p := by simpa [e] using free
                      subst same
                      obtain ⟨q', held', own⟩ := binding.2.1 i st p' at_ e
                      rw [held] at held'; cases held'
                      exact absurd own other
                  refine answered _ (law.transfer at_ unbound held ?_)
                  rintro rfl
                  exact other bound
                · refine answered _ ((State.conflict_rebinds (touched := fun _ => False) held).law law fun _ n => n.elim)
        all_goals exact answered _ law

theorem State.ZoneLaw.unbindRequest (law : s.ZoneLaw) (h : HeadId) (i : Nat) (st : Station) :
    (s.unbindRequest h i st).ZoneLaw := by
  unfold State.unbindRequest
  split
  · exact law.keeps ((State.Keeps.refl s).send h _)
  · exact (law.unbind _ _).keeps ((State.Keeps.refl _).send h _)

/-! ## Scans -/

theorem State.ZoneLaw.passback (law : s.ZoneLaw) {p : Nat} {q : Pass} (held : s.pass p = some q) : (s.passback p q).ZoneLaw :=
  (State.suspectIf_rebinds (x := { q with passbacks := countUp 255 q.passbacks }) (touched := fun _ => False) held rfl rfl _ _).law
    law fun _ n => n.elim

theorem State.ZoneLaw.admitPass (law : s.ZoneLaw) {p : Nat} {q x : Pass} (held : s.pass p = some q) (facts : x.facts = q.facts)
    (state : x.state = q.state) (gate : Nat) : (s.admitPass p gate x).ZoneLaw := by
  have cached : x.cached = q.cached := by simp only [Pass.facts, Prod.mk.injEq] at facts; exact facts.2.2.2
  have moved : s.Rebinds (s.admitPass p gate x) fun _ => False := by
    unfold State.admitPass
    refine .passes ?_ (fun c => ?_) rfl
    · rw [State.mapView_censusMove, State.mapView_setPass (x := { x with state := .admitted, lastGate := some gate }) held facts]
    · have m := c.move (x := { x with state := .admitted, lastGate := some gate }) held cached
      rw [← cached, ← state] at m
      exact m
  exact moved.law law fun _ n => n.elim

theorem State.ZoneLaw.updatePass (law : s.ZoneLaw) (p : Nat) {f : Pass → Pass} (facts : ∀ x, (f x).facts = x.facts)
    (state : ∀ x, (f x).state = x.state) : (s.updatePass p f).ZoneLaw := by
  have cached : ∀ x, (f x).cached = x.cached := fun x => by
    have := facts x
    simp only [Pass.facts, Prod.mk.injEq] at this; exact this.2.2.2
  exact (State.Rebinds.passes (touched := fun _ => False) (s.mapView_updatePass p facts)
    (fun c => c.updatePass p cached state) rfl).law law fun _ n => n.elim

theorem State.ZoneLaw.scan (law : s.ZoneLaw) {p : Nat} {q : Pass} (held : s.pass p = some q) (gate : Nat) (dir : ScanDirection) :
    (s.scan p gate q dir).state.ZoneLaw := by
  have entered : (s.scanIn p gate q).1.ZoneLaw := by
    unfold State.scanIn
    split
    · exact law.admitPass held rfl rfl gate
    · split
      · exact law.admitPass (x := { q with reentries := q.reentries + 1 }) held rfl rfl gate
      · exact law
    · exact law.passback held
    · exact law.passback held
    · exact law
  have left_ : (s.scanOut p gate q).1.ZoneLaw := by
    unfold State.scanOut
    split
    · exact law.passback held
    · exact law.passback held
    · exact (law.unbind p .out).updatePass p (fun _ => rfl) fun _ => rfl
    · exact (law.unbind p .out).updatePass p (fun _ => rfl) fun _ => rfl
    · exact law
  unfold State.scan
  cases dir with
  | into => dsimp only; split <;> exact entered
  | outOf => dsimp only; split <;> exact left_

end

end Sys2Proof.Machine

/-!
PROOF LAYER. Every command keeps the census true, the re-zone pass in order and the channel sets permitted (R35, R113, R115, R118).
-/
namespace Sys2Proof.Machine

/-! ## One pass record changed -/

/-- A pass record holds the cached zone the map gives it, if the re-zone pass has visited it (R115). -/
def State.CachedAt (s : State) (p : Nat) : Prop :=
  ∀ q, s.pass p = some q → s.Visited p → q.cached = s.cachedZone q.seat q.declared

/-- The re-zone pass is in order, the pass records apart (R113). -/
def State.RezoneTally (s : State) : Prop :=
  (s.rezone.running = true → s.rezone.cursor < 8192 ∧ s.rezone.subject.isSome) ∧ s.rezone.cursor ≤ 8192
    ∧ s.rezone.changed ≤ s.rezone.cursor ∧ s.rezone.trimmed ≤ s.rezone.cursor

theorem State.rezoneInv_iff {s : State} : s.RezoneInv ↔ s.RezoneTally ∧ ∀ p, s.CachedAt p :=
  ⟨fun ⟨a, b, c, d, e⟩ => ⟨⟨a, b, c, d⟩, e⟩, fun ⟨⟨a, b, c, d⟩, e⟩ => ⟨a, b, c, d, e⟩⟩

theorem State.RezoneTally.congr {s t : State} (tally : s.RezoneTally) (e : t.rezone = s.rezone) : t.RezoneTally := by
  unfold State.RezoneTally; rw [e]; exact tally

/-- Work that leaves the zone map, the tier table and the public set alone, and of the facts of the passes changes one's alone. -/
structure State.MapBut (s t : State) (p : Nat) : Prop where
  passes  : ∀ k, k ≠ p → t.passFacts k = s.passFacts k
  zones   : t.zoneMap = s.zoneMap
  tiers   : t.tiers = s.tiers
  pub     : t.roam.pub = s.roam.pub
  visited : ∀ k, k ≠ p → (s.pass k).isSome → t.Visited k → s.Visited k

section
variable {s t u : State} {p : Nat}

theorem State.MapBut.of_mapView (e : t.mapView = s.mapView) : s.MapBut t p :=
  ⟨fun k _ => congrFun (State.passFacts_of_mapView e) k, State.zoneMap_of_mapView e, State.tiers_of_mapView e,
    State.pub_of_mapView e, fun k _ _ => (State.visited_congr (State.rezone_of_mapView e) k).1⟩

theorem State.MapBut.trans (h : s.MapBut t p) (k : t.MapBut u p) : s.MapBut u p where
  passes j n := (k.passes j n).trans (h.passes j n)
  zones := k.zones.trans h.zones
  tiers := k.tiers.trans h.tiers
  pub := k.pub.trans h.pub
  visited j n held v := by
    have facts := h.passes j n
    obtain ⟨q, at_⟩ := Option.isSome_iff_exists.1 held
    simp only [State.passFacts, at_, Option.map_some] at facts
    obtain ⟨q', held', -⟩ := Option.map_eq_some_iff.1 facts
    exact h.visited j n held (k.visited j n (by rw [held']; rfl) v)

theorem State.MapBut.setPass (x : Pass) : s.MapBut (s.setPass p x) p where
  passes k n := by simp only [State.passFacts, State.pass_setPass, if_neg n]
  zones := rfl
  tiers := rfl
  pub := rfl
  visited _ _ _ v := v

/-- A pass whose facts are left alone still holds the cached zone the map gives it. -/
theorem State.MapBut.cachedAt (m : s.MapBut t p) {k : Nat} (other : k ≠ p) (law : s.CachedAt k) : t.CachedAt k := by
  intro q at_ visited
  have facts := m.passes k other
  simp only [State.passFacts, at_, Option.map_some] at facts
  obtain ⟨q', held, same⟩ := Option.map_eq_some_iff.1 facts.symm
  simp only [Pass.facts, Prod.mk.injEq] at same
  obtain ⟨-, seat, declared, zone⟩ := same
  rw [State.cachedZone_congr m.zones, ← zone, ← seat, ← declared]
  exact law q' held (m.visited k other (by rw [held]; rfl) visited)

/-- A station not bound to the pass has the permitted set it had. -/
theorem State.MapBut.permitted (m : s.MapBut t p) {st x : Station} (pass : x.pass = st.pass) (unbound : st.pass ≠ some p) :
    t.permitted x = s.permitted st :=
  State.permitted_congr m.pub pass fun k bound => by
    have facts := m.passes k fun e => unbound (e ▸ bound)
    simp only [State.passFacts] at facts
    cases hs : s.pass k with
    | none => simpa [hs] using facts
    | some q =>
      rw [hs] at facts
      obtain ⟨q', ht, eq⟩ := Option.map_eq_some_iff.1 facts
      simp only [Pass.facts, Prod.mk.injEq] at eq
      rw [ht, Option.map_some, Option.map_some, State.bonus_congr m.zones m.tiers eq.2.2.2 eq.1]

/-- Every pass that a station is bound to stands in the table. -/
def State.PassesHeld (s : State) : Prop := ∀ j st k, s.station j = some st → st.pass = some k → (s.pass k).isSome

theorem State.BindingInv.passesHeld (b : s.BindingInv) : s.PassesHeld := fun j st k at_ bound => by
  obtain ⟨q, held, -⟩ := b.2.1 j st k at_ bound
  rw [held]; rfl

/-- One pass record changed: what is to be shown is about that record and the station bound to it. -/
theorem State.ZoneLaw.but (law : s.ZoneLaw) (bound : s.PassesHeld) (m : s.MapBut t p) (census : t.CensusTrue)
    (tally : t.RezoneTally) (cached : t.CachedAt p)
    (old : ∀ j x, t.station j = some x → ∃ st, s.station j = some st ∧ st.Of x)
    (own : ∀ j st, s.station j = some st → st.pass = some p → t.ChansAt j) : t.ZoneLaw := by
  refine ⟨census, State.rezoneInv_iff.2 ⟨tally, fun k => ?_⟩, fun j x at_ visited => ?_⟩
  · by_cases e : k = p
    · rw [e]; exact cached
    · exact m.cachedAt e ((State.rezoneInv_iff.1 law.rezone).2 k)
  · obtain ⟨st, held, o⟩ := old j x at_
    by_cases e : st.pass = some p
    · exact own j st held e x at_ visited
    · rw [m.permitted o.2.1 e]
      refine chans_within_trans o.2.2 (law.chans j st held fun k b => ?_)
      exact m.visited k (fun same => e (same ▸ b)) (bound j st k held b) (visited k (o.2.1.trans b))

end

/-! ## Loading, amending, dropping -/

section
variable {s : State}

theorem State.ZoneLaw.newPass (law : s.ZoneLaw) (bound : s.PassesHeld) {p : Nat} (vacant : s.pass p = none) (n : PassNumber)
    (t : Tier) (seat : Option (BitVec 16)) (declared : Option ZoneId) :
    (s.setPass p (s.newPass n t seat declared)).ZoneLaw := by
  refine law.but bound (.setPass _) (law.census.make vacant rfl) ((State.rezoneInv_iff.1 law.rezone).1.congr rfl) ?_
    (fun j x e => ⟨x, e, .refl x⟩) fun j st at_ b => ?_
  · intro q at_ _
    rw [State.pass_setPass, if_pos rfl] at at_
    cases at_
    exact (State.cachedZone_congr rfl _ _).symm
  · have := bound j st p at_ b
    rw [vacant] at this; cases this

theorem State.ZoneLaw.loadEntries (law : s.ZoneLaw) (bound : s.PassesHeld) (es : List PassEntry) :
    (s.loadEntries es).1.ZoneLaw := by
  have one : ∀ (u : State) (e : PassEntry), u.ZoneLaw → u.PassesHeld → (u.loadEntry e).1.ZoneLaw ∧ (u.loadEntry e).1.PassesHeld := by
    intro u e w b
    unfold State.loadEntry
    split
    · split
      · exact ⟨w, b⟩
      · split
        · exact ⟨w, b⟩
        · exact ⟨w, b⟩
        · next p _ free =>
          refine ⟨w.newPass b ((Table.lowestFree_eq_some w.census.1).1 free).2.1 _ _ _ _, fun j st k at_ bnd => ?_⟩
          rw [State.pass_setPass]
          split
          · rfl
          · exact b j st k at_ bnd
    · exact ⟨w, b⟩
  induction es generalizing s with
  | nil => exact law
  | cons e es ih =>
    obtain ⟨w, b⟩ := one s e law bound
    exact ih w b

/-- A station brought into line has a permitted channel set (R101). -/
theorem State.bringIntoLine_chansAt (i : Nat) : (s.bringIntoLine i).ChansAt i := by
  unfold State.bringIntoLine
  dsimp only
  split
  · exact (State.trim_chansAt _ i).keeps ((State.Keeps.refl _).recomputeBoth i)
  · next fits =>
    exact (State.chansFit_of_not_overSubscribed (by simpa using fits)).chansAt.keeps ((State.Keeps.refl _).recomputeOf i)

theorem State.bringIntoLine_keeps (i : Nat) : s.Keeps (s.bringIntoLine i) := by
  have k := State.Keeps.refl s
  unfold State.bringIntoLine
  dsimp only
  split
  · exact ((k.setReservation i).trim i).recomputeBoth i
  · exact (k.setReservation i).recomputeOf i

/-- A pass moved from one cached zone to another, its counts with it: the map is left alone but for the pass (R100, R114). -/
theorem State.MapBut.rezoned (p : Nat) (x : Pass) (st : PassState) (a b : Option ZoneId) :
    s.MapBut ((s.setPass p x).rezoneCounts st a b) p :=
  (State.MapBut.setPass x).trans (.of_mapView (State.mapView_rezoneCounts _ st a b))

theorem State.rezoneCounts_stations (st : PassState) (a b : Option ZoneId) : (s.rezoneCounts st a b).stations = s.stations := by
  unfold State.rezoneCounts; split <;> rfl

theorem State.rezoneCounts_passes (st : PassState) (a b : Option ZoneId) : (s.rezoneCounts st a b).passes = s.passes := by
  unfold State.rezoneCounts; split <;> rfl

theorem State.ZoneLaw.amend (law : s.ZoneLaw) (binding : s.BindingInv) {p : Nat} {q : Pass} (held : s.pass p = some q) (tier : Tier)
    (seat : Option (BitVec 16)) (declared : Option ZoneId) : (s.amend p q tier seat declared).ZoneLaw := by
  set x : Pass := { q with tier := tier, seat := seat, declared := declared, cached := s.cachedZone seat declared } with hx
  set t := (s.setPass p x).rezoneCounts q.state q.cached x.cached with ht
  have m : s.MapBut t p := .rezoned p x _ _ _
  have census : t.CensusTrue := law.census.rezone held rfl
  have stations : t.stations = s.stations := State.rezoneCounts_stations ..
  have pass : t.pass p = some x := by
    rw [ht, State.pass, State.rezoneCounts_passes]; exact Table.get_put_self _ _ _
  have rezone : t.rezone = s.rezone :=
    (State.rezone_of_mapView (State.mapView_rezoneCounts (s.setPass p x) q.state q.cached x.cached)).trans rfl
  have cached : t.CachedAt p := by
    intro y at_ _
    rw [pass] at at_; cases at_
    rw [State.cachedZone_congr m.zones]
  have old : ∀ j y, t.station j = some y → ∃ st, s.station j = some st ∧ st.Of y := fun j y e =>
    ⟨y, by rw [← e, State.station, State.station, stations], .refl y⟩
  have after : ∀ u, t.Keeps u → (∀ j st, s.station j = some st → st.pass = some p → u.ChansAt j) → u.ZoneLaw := by
    intro u k own
    refine law.but binding.passesHeld (m.trans (.of_mapView k.mapView)) (census.of_passView (State.passView_of_aside k.aside))
      (((State.rezoneInv_iff.1 law.rezone).1.congr rezone).congr (State.rezone_of_mapView k.mapView)) ?_ ?_ own
    · intro y at_ _
      have same : u.pass p = t.pass p := by rw [State.pass, State.passes_of_aside k.aside]; rfl
      rw [same, pass] at at_; cases at_
      rw [State.cachedZone_congr (State.zoneMap_of_mapView k.mapView), State.cachedZone_congr m.zones]
    · intro j y e
      obtain ⟨z, hz, oz⟩ := k.old j y e
      obtain ⟨st, hst, ost⟩ := old j z hz
      exact ⟨st, hst, ost.trans oz⟩
  have holder : ∀ j st, s.station j = some st → st.pass = some p → q.state = .seated ∧ q.station = some j := by
    intro j st at_ b
    obtain ⟨q', held', own⟩ := binding.2.1 j st p at_ b
    rw [held] at held'; cases held'
    exact ⟨(binding.2.2 p q held).1 (by rw [own]; rfl), own⟩
  have amended : s.amend p q tier seat declared = (match q.state, q.station with
      | .seated, some i => if q.tier = tier ∧ q.cached = x.cached then t.settle i else t.bringIntoLine i
      | _, _ => t) := rfl
  rw [amended]
  split
  · next i seated own =>
    split
    · next same =>
      obtain ⟨sameTier, sameZone⟩ := same
      refine after _ ((State.Keeps.refl t).settle i) fun j st at_ b => ?_
      refine State.ChansAt.keeps (fun y at' visited => ?_) ((State.Keeps.refl t).settle i)
      have eq : y = st := by
        rw [State.station, stations] at at'
        exact Option.some.inj (at'.symm.trans at_)
      subst eq
      have permitted : t.permitted y = s.permitted y := by
        rw [State.permitted_of_bound b pass, State.permitted_of_bound b held, m.pub,
          State.bonus_congr m.zones m.tiers sameZone.symm sameTier.symm]
      rw [permitted]
      exact law.chans j y at_ fun k bk => (State.visited_congr rezone k).1 (visited k bk)
    · refine after _ (State.bringIntoLine_keeps i) fun j st at_ b => ?_
      have same : j = i := Option.some.inj ((holder j st at_ b).2.symm.trans own)
      rw [same]; exact State.bringIntoLine_chansAt i
  · next none_ =>
    refine after t (State.Keeps.refl t) fun j st at_ b => ?_
    obtain ⟨seated, own⟩ := holder j st at_ b
    exact absurd own (none_ j seated)

end

end Sys2Proof.Machine

/-!
PROOF LAYER. Every command keeps the census true, the re-zone pass in order and the channel sets permitted (R35, R113, R115, R118).
-/
namespace Sys2Proof.Machine

section
variable {s : State}

/-! ## A dropped pass -/

theorem State.ZoneLaw.dropPass (law : s.ZoneLaw) (bound : s.PassesHeld) {p : Nat}
    (void : ∀ q, s.pass p = some q → passInside q.state = false) (free : ∀ j st, s.station j = some st → st.pass ≠ some p) :
    ({ s with passes := Table.drop s.passes p } : State).ZoneLaw := by
  have pass : ∀ k, ({ s with passes := Table.drop s.passes p } : State).pass k = if k = p then none else s.pass k :=
    fun k => Table.get_drop _ _ _
  refine law.but (p := p) bound ⟨fun k n => ?_, rfl, rfl, rfl, fun _ _ _ v => v⟩ (law.census.remove void)
    ((State.rezoneInv_iff.1 law.rezone).1.congr rfl) ?_ (fun j x e => ⟨x, e, .refl x⟩) fun j st at_ b => absurd b (free j st at_)
  · simp only [State.passFacts, pass, if_neg n]
  · intro q e _
    rw [pass, if_pos rfl] at e; cases e

/-- PASS-DROP: the binding is undone and the record vacated (R103). -/
theorem State.ZoneLaw.drop (law : s.ZoneLaw) (binding : s.BindingInv) (p : Nat) :
    ({ s.unbind p .void with passes := Table.drop (s.unbind p .void).passes p } : State).ZoneLaw := by
  have unbound := State.unbind_rebinds (s := s) p .void
  have map := unbound.map
  have facts : ∀ k, ((s.unbind p .void).pass k).isSome = (s.pass k).isSome := fun k => by
    have := congrArg Option.isSome (congrFun (State.passFacts_of_mapView map) k)
    simpa [State.passFacts] using this
  have passes : (s.unbind p .void).passes = (s.unbindPass p .void).passes := by
    unfold State.unbind
    split
    · rfl
    · exact State.passes_of_aside ((State.Keeps.refl _).unbindStation _).aside
  have stations : ∀ j x, (s.unbind p .void).station j = some x → ∃ st, (s.unbindPass p .void).station j = some st ∧ st.Of x := by
    intro j x e
    unfold State.unbind at e
    split at e
    · exact ⟨x, e, .refl x⟩
    · exact ((State.Keeps.refl _).unbindStation _).old j x e
  cases held : s.pass p with
  | none =>
    have none_ : (s.unbind p .void).pass p = none := by simpa [held] using facts p
    have same : s.unbindPass p .void = s := by unfold State.unbindPass; rw [held]
    refine (law.unbind p .void).dropPass (fun j x k e b => ?_) (fun q e => by rw [none_] at e; cases e) fun j x e b => ?_
    · obtain ⟨st, at_, o⟩ := stations j x e
      rw [same] at at_
      rw [facts]; exact binding.passesHeld j st k at_ (o.2.1.symm.trans b)
    · obtain ⟨st, at_, o⟩ := stations j x e
      rw [same] at at_
      have := binding.passesHeld j st p at_ (o.2.1.symm.trans b)
      rw [held] at this; cases this
  | some q =>
    have old : ∀ j x k, (s.unbind p .void).station j = some x → x.pass = some k → k ≠ p ∧ (s.pass k).isSome := by
      intro j x k e b
      obtain ⟨y, hy, oy⟩ := stations j x e
      rw [State.unbindPass_station held] at hy
      split at hy
      · obtain ⟨st, -, rfl⟩ := Option.map_eq_some_iff.1 hy
        rw [oy.2.1] at b; cases b
      · next other =>
        have bound : y.pass = some k := oy.2.1.symm.trans b
        obtain ⟨q', held', own⟩ := binding.2.1 j y k hy bound
        refine ⟨?_, by rw [held']; rfl⟩
        rintro rfl
        rw [held] at held'; cases held'
        exact other own
    refine (law.unbind p .void).dropPass (fun j x k e b => by rw [facts]; exact (old j x k e b).2) (fun x e => ?_)
      fun j x e b => (old j x p e b).1 rfl
    rw [State.pass, passes] at e
    have at_ := State.unbindPass_pass held .void p
    rw [if_pos rfl] at at_
    rw [show x = _ from Option.some.inj (e.symm.trans at_)]
    rfl

/-! ## A visit of the re-zone pass -/

theorem State.visitZone_mapBut (p : Nat) (q : Pass) : s.MapBut (s.visitZone p q) p := by
  unfold State.visitZone
  dsimp only
  split
  · exact .of_mapView rfl
  · have counted := State.MapBut.rezoned (s := s) p { q with cached := s.cachedZone q.seat q.declared } q.state q.cached
      (s.cachedZone q.seat q.declared)
    have same : ∀ (t : State), s.MapBut t p → s.MapBut { t with rezone := { t.rezone with changed := t.rezone.changed + 1 } } p :=
      fun t m => m.trans ⟨fun _ _ => rfl, rfl, rfl, rfl, fun _ _ _ v => v⟩
    refine same _ ?_
    split
    · refine counted.trans (.of_mapView ?_)
      rw [State.mapView_markStale, State.mapView_markStale]
    · exact counted

theorem State.markStale_census (c : s.CensusTrue) (z : Option ZoneId) : (s.markStale z).CensusTrue := by
  refine c.congr rfl fun k => ?_
  rw [State.markStale, State.zone_count]
  split <;> exact ⟨rfl, rfl⟩

theorem State.visitZone_census (c : s.CensusTrue) {p : Nat} {q : Pass} (held : s.pass p = some q) :
    (s.visitZone p q).CensusTrue := by
  unfold State.visitZone
  dsimp only
  split
  · exact c
  · have counted := c.rezone (x := { q with cached := s.cachedZone q.seat q.declared }) held rfl
    have same : ∀ (t : State), t.CensusTrue → State.CensusTrue { t with rezone := { t.rezone with changed := t.rezone.changed + 1 } } :=
      fun t w => w.congr rfl fun _ => ⟨rfl, rfl⟩
    refine same _ ?_
    split
    · exact State.markStale_census (State.markStale_census counted _) _
    · exact counted

theorem State.visitZone_stations (p : Nat) (q : Pass) : (s.visitZone p q).stations = s.stations := by
  unfold State.visitZone
  dsimp only
  split
  · rfl
  · split
    · exact State.rezoneCounts_stations ..
    · exact State.rezoneCounts_stations ..

/-- The visited record as the visit leaves it: its cached zone is what the map gives. -/
theorem State.visitZone_pass {p : Nat} {q : Pass} (held : s.pass p = some q) :
    (s.visitZone p q).pass p = some { q with cached := s.cachedZone q.seat q.declared } := by
  unfold State.visitZone
  dsimp only
  split
  · next same => rw [← same]; exact held
  · have written : ((s.setPass p { q with cached := s.cachedZone q.seat q.declared }).rezoneCounts q.state q.cached
        (s.cachedZone q.seat q.declared)).pass p = some { q with cached := s.cachedZone q.seat q.declared } := by
      rw [State.pass, State.rezoneCounts_passes]; exact Table.get_put_self _ _ _
    split
    · exact written
    · exact written

/-- The tallies and the cursor after the first half of a visit. -/
theorem State.visitZone_rezone (p : Nat) (q : Pass) : (s.visitZone p q).rezone
    = { s.rezone with changed := s.rezone.changed + if q.cached = s.cachedZone q.seat q.declared then 0 else 1 } := by
  unfold State.visitZone
  dsimp only
  split
  · rfl
  · have counted : ((s.setPass p { q with cached := s.cachedZone q.seat q.declared }).rezoneCounts q.state q.cached
        (s.cachedZone q.seat q.declared)).rezone = s.rezone := by
      unfold State.rezoneCounts; split <;> rfl
    split
    · exact congrArg (fun r : Rezone => { r with changed := r.changed + 1 }) counted
    · exact congrArg (fun r : Rezone => { r with changed := r.changed + 1 }) counted

/-- The second half of a visit: at most one more channel set trimmed. -/
theorem State.visitStation_cases (q : Pass) : (s.visitStation q = s ∧ ∀ i, q.state = .seated → q.station = some i → s.overSubscribed i = false)
    ∨ ∃ i, q.state = .seated ∧ q.station = some i ∧ s.overSubscribed i = true ∧ s.visitStation q =
      { (s.trim i).recomputeBoth i with
        rezone := { ((s.trim i).recomputeBoth i).rezone with trimmed := ((s.trim i).recomputeBoth i).rezone.trimmed + 1 } } := by
  unfold State.visitStation
  split
  · next i seated own =>
    split
    · next crowded => exact .inr ⟨i, seated, own, crowded, rfl⟩
    · next fits =>
      refine .inl ⟨rfl, fun j _ e => ?_⟩
      rw [own] at e; cases e; simpa using fits
  · next none_ => exact .inl ⟨rfl, fun i e own => absurd own (none_ i e)⟩

/-- What a visit to a record leaves: the record, and the station bound to it, are up to date. -/
structure State.VisitedAt (s u : State) (p : Nat) : Prop where
  map     : s.MapBut u p
  census  : s.CensusTrue → u.CensusTrue
  old     : ∀ j x, u.station j = some x → ∃ st, s.station j = some st ∧ st.Of x
  tallied : ∃ a b, a ≤ 1 ∧ b ≤ 1 ∧
    u.rezone = { s.rezone with changed := s.rezone.changed + a, trimmed := s.rezone.trimmed + b }
  cached  : ∀ q, u.pass p = some q → q.cached = u.cachedZone q.seat q.declared
  own     : ∀ j st, s.station j = some st → st.pass = some p → u.ChansFit j

theorem State.visitPass_visitedAt (binding : s.BindingInv) (p : Nat) : s.VisitedAt (s.visitPass p) p := by
  unfold State.visitPass
  split
  · next none_ =>
    refine ⟨.of_mapView rfl, id, fun j x e => ⟨x, e, .refl x⟩, ⟨0, 0, Nat.zero_le _, Nat.zero_le _, rfl⟩, fun q e => ?_,
      fun j st at_ b => ?_⟩
    · rw [none_] at e; cases e
    · have := binding.passesHeld j st p at_ b
      rw [none_] at this; cases this
  · next q held =>
    set t := s.visitZone p q with ht
    have m : s.MapBut t p := s.visitZone_mapBut p q
    have stations : t.stations = s.stations := s.visitZone_stations p q
    have rezone := s.visitZone_rezone p q
    have small : (if q.cached = s.cachedZone q.seat q.declared then 0 else 1) ≤ 1 := by split <;> omega
    have pass := State.visitZone_pass held
    have cached : ∀ x, t.pass p = some x → x.cached = t.cachedZone x.seat x.declared := fun x e => by
      rw [pass] at e; cases e
      rw [State.cachedZone_congr m.zones]
    have old : ∀ j x, t.station j = some x → ∃ st, s.station j = some st ∧ st.Of x := fun j x e =>
      ⟨x, by rw [← e, State.station, State.station, stations], .refl x⟩
    have holder : ∀ j st, s.station j = some st → st.pass = some p → q.state = .seated ∧ q.station = some j := by
      intro j st at_ b
      obtain ⟨q', held', own⟩ := binding.2.1 j st p at_ b
      rw [held] at held'; cases held'
      exact ⟨(binding.2.2 p q held).1 (by rw [own]; rfl), own⟩
    obtain ⟨same, fits⟩ | ⟨i, seated, own, -, trimmed⟩ := t.visitStation_cases q
    · rw [same]
      refine ⟨m, fun c => State.visitZone_census c held, old, ⟨_, 0, small, Nat.zero_le _, rezone⟩, cached,
        fun j st at_ b => ?_⟩
      obtain ⟨seated, own⟩ := holder j st at_ b
      exact State.chansFit_of_not_overSubscribed (fits j seated own)
    · rw [trimmed]
      have k : t.Keeps ((t.trim i).recomputeBoth i) := ((State.Keeps.refl t).trim i).recomputeBoth i
      generalize hu : (t.trim i).recomputeBoth i = u at k
      have passes : u.passes = t.passes := State.passes_of_aside k.aside
      have tally : u.rezone = t.rezone := State.rezone_of_mapView k.mapView
      refine ⟨(m.trans (.of_mapView k.mapView)).trans ⟨fun _ _ => rfl, rfl, rfl, rfl, fun _ _ _ v => v⟩,
        fun c => ((State.visitZone_census c held).of_passView (State.passView_of_aside k.aside)).congr rfl fun _ => ⟨rfl, rfl⟩,
        fun j x e => ?_, ⟨_, 1, small, le_rfl, ?_⟩, fun x e => ?_, fun j st at_ b => ?_⟩
      · obtain ⟨y, hy, oy⟩ := k.old j x e
        obtain ⟨st, hst, ost⟩ := old j y hy
        exact ⟨st, hst, ost.trans oy⟩
      · rw [tally, ht, rezone]
      · have e' : t.pass p = some x := by rw [State.pass, ← passes]; exact e
        rw [cached x e']
        exact (State.cachedZone_congr (State.zoneMap_of_mapView k.mapView) _ _).symm
      · have same : j = i := Option.some.inj ((holder j st at_ b).2.symm.trans own)
        subst same
        have fit : u.ChansFit j := hu ▸ (State.trim_chansFit t j).keeps ((State.Keeps.refl _).recomputeBoth j)
        exact fun x e => fit x e

theorem State.advanceCursor_bowl : s.advanceCursor.stationView = s.stationView ∧ s.advanceCursor.passes = s.passes
    ∧ s.advanceCursor.zones = s.zones ∧ s.advanceCursor.hostSet = s.hostSet := by
  unfold State.advanceCursor
  dsimp only
  split
  · exact ⟨rfl, rfl, rfl, rfl⟩
  · split <;> exact ⟨rfl, rfl, rfl, rfl⟩

/-- The cursor moves on; past the last index the pass runs no more. -/
theorem State.advanceCursor_rezone : s.advanceCursor.rezone =
    { s.rezone with
      cursor := s.rezone.cursor + 1
      running := if s.rezone.cursor + 1 < 8192 then s.rezone.running else false } := by
  unfold State.advanceCursor
  dsimp only
  split
  · rfl
  · split <;> rfl

/-- A visit keeps the census, the re-zone pass and the channel sets in order (R114, R115). -/
theorem State.ZoneLaw.visit (law : s.ZoneLaw) (binding : s.BindingInv) (small : ∀ k q, s.pass k = some q → k < 8192)
    (running : s.rezone.running = true) : ((s.visitPass s.rezone.cursor).advanceCursor).ZoneLaw := by
  obtain ⟨map, census, old, ⟨a, b, ha, hb, tallied⟩, cached, own⟩ := State.visitPass_visitedAt binding s.rezone.cursor
  generalize hu : s.visitPass s.rezone.cursor = u at *
  obtain ⟨stationView, passes, zones, host⟩ := u.advanceCursor_bowl
  have rezone := u.advanceCursor_rezone
  generalize u.advanceCursor = t at *
  simp only [State.hostSet, Prod.mk.injEq] at host
  have stations : t.stations = u.stations := congrArg Prod.fst stationView
  have pass : ∀ k, t.pass k = u.pass k := fun k => by rw [State.pass, State.pass, passes]
  have zoneMap : t.zoneMap = u.zoneMap := by funext z; simp only [State.zoneMap, State.zone, zones]
  obtain ⟨bounds, -, changed, trimmed⟩ := (State.rezoneInv_iff.1 law.rezone).1
  obtain ⟨below, subject⟩ := bounds running
  have m : s.MapBut t s.rezone.cursor := by
    refine map.trans ⟨fun k _ => by simp only [State.passFacts, pass], zoneMap, host.1, by rw [host.2.2], fun k ne held v => ?_⟩
    intro _
    have within : k < 8192 := by
      have facts := map.passes k ne
      obtain ⟨q, at_⟩ := Option.isSome_iff_exists.1 held
      simp only [State.passFacts, at_, Option.map_some] at facts
      obtain ⟨q', held', -⟩ := Option.map_eq_some_iff.1 facts.symm
      exact small k q' held'
    simp only [State.Visited, rezone, tallied] at v ⊢
    by_cases last : s.rezone.cursor + 1 < 8192
    · have := v (by rw [if_pos last]; exact running)
      omega
    · omega
  refine law.but binding.passesHeld m ((census law.census).congr passes fun z => by
    rw [State.zone, State.zone, zones]; exact ⟨rfl, rfl⟩) ?_ ?_ (fun j x e => old j x (by rw [State.station, ← stations]; exact e))
    fun j st at_ bound => ?_
  · simp only [State.RezoneTally, rezone, tallied]
    refine ⟨fun on => ?_, by omega, by omega, by omega⟩
    split at on
    · next last => exact ⟨last, subject⟩
    · cases on
  · intro q at_ _
    rw [pass] at at_
    rw [cached q at_, State.cachedZone_congr zoneMap]
  · intro x e _
    have e' : u.station j = some x := by rw [State.station, ← stations]; exact e
    have same : t.permitted x = u.permitted x := State.permitted_congr (by rw [host.2.2]) rfl fun k _ => by
      rw [pass]
      congr 1
      funext q
      exact State.bonus_congr zoneMap host.1 rfl rfl
    rw [same]
    exact own j st at_ bound x e'

end

end Sys2Proof.Machine

/-!
PROOF LAYER. Every command keeps the census true, the re-zone pass in order and the channel sets permitted (R35, R113, R115, R118).
-/
namespace Sys2Proof.Machine

/-! ## Laws of whole commands -/

theorem State.ZoneLaw.tended {s t : State} (law : s.ZoneLaw) (k : s.Tended t) : t.ZoneLaw := by
  have map := State.mapView_of_passView k.passes k.host
  exact ⟨law.census.of_passView k.passes, law.rezone.congr map, fun i => (law.chans i).of map (k.old i)⟩

theorem State.zoneLaw_bowlLaw : BowlLaw State.ZoneLaw where
  sound h := h.zoneLaw
  quiet {s t} law q := by
    simp only [State.Quiet, State.bowlView, State.stationView, Prod.mk.injEq] at q
    obtain ⟨⟨stations, -⟩, passes, tiers, unbound, roam, -⟩ := q
    have map : t.mapView = s.mapView := State.mapView_of_passView passes (by simp only [State.hostSet, tiers, unbound, roam])
    exact ⟨law.census.of_passView passes, law.rezone.congr map,
      fun i => (law.chans i).same map (by rw [State.station, stations]; rfl)⟩

theorem State.zoneLaw_of_tended {s : State} (h : s.Sound) {r : Result} (k : Leads State.Tended s r) : Gives State.ZoneLaw r :=
  fun t e => h.zoneLaw.tended (k t e)

theorem State.foldl_trim_chansFit (s : State) (l : List Nat) {i : Nat} (mem : i ∈ l) : (l.foldl State.trim s).ChansFit i := by
  induction l generalizing s with
  | nil => cases mem
  | cons j l ih =>
    rw [List.foldl_cons]
    by_cases later : i ∈ l
    · exact ih _ later
    · have same : i = j := by simpa [later] using mem
      subst same
      exact (s.trim_chansFit i).keeps ((State.Keeps.refl _).foldl (fun _ _ k => k.trim _) l)

/-- A zone written: the re-zone pass starts with every record unvisited (R109, R113). -/
theorem State.ZoneLaw.writeZone {u : State} (law : u.ZoneLaw) (z : ZoneId) (fields : Option ZoneRecord) : (u.writeZone z fields).ZoneLaw := by
  refine ⟨law.census.congr rfl fun k => ?_, ⟨fun _ => ⟨Nat.zero_lt_succ _, rfl⟩, Nat.zero_le _, le_rfl, le_rfl, fun p q _ visited => ?_⟩,
    fun i st at_ visited => ?_⟩
  · have same : (u.writeZone z fields).zone k = if k = z then { (u.zone z).markStale with fields := fields } else u.zone k := by
      simp only [State.writeZone, State.setZone, State.zone, Fin.getElem_fin, Vector.getElem_set, Fin.ext_iff, eq_comm]
    rw [same]
    split
    · next e => rw [e]; exact ⟨rfl, rfl⟩
    · exact ⟨rfl, rfl⟩
  · exact absurd (visited rfl) (Nat.not_lt_zero _)
  · cases e : st.pass with
    | some p => exact absurd (visited p e rfl) (Nat.not_lt_zero _)
    | none =>
      rw [State.permitted_of_unbound e]
      exact law.pub at_ e

/-- Latches written over zones whose counts and fields stay. -/
theorem State.ZoneLaw.latches {u t : State} (law : u.ZoneLaw) (passes : t.passes = u.passes) (stations : t.stations = u.stations)
    (rezone : t.rezone = u.rezone) (tiers : t.tiers = u.tiers) (unbound : t.unbound = u.unbound) (roam : t.roam = u.roam)
    (zones : ∀ z, (t.zone z).fields = (u.zone z).fields ∧ (t.zone z).admitted = (u.zone z).admitted
      ∧ (t.zone z).seated = (u.zone z).seated) : t.ZoneLaw := by
  have map : t.mapView = u.mapView := by
    have zoneMap : t.zoneMap = u.zoneMap := funext fun z => (zones z).1
    have facts : t.passFacts = u.passFacts := by funext p; simp only [State.passFacts, State.pass, passes]
    simp only [State.mapView, facts, zoneMap, rezone, tiers, unbound, roam]
  exact ⟨law.census.congr passes fun z => (zones z).2, law.rezone.congr map,
    fun i => (law.chans i).same map (by rw [State.station, stations]; rfl)⟩

/-- RESTART: the seated passes are ADMITTED, and a running re-zone pass starts afresh (R105, R107, R117). -/
theorem State.ZoneLaw.restarted {u : State} (law : u.ZoneLaw) : u.restarted.ZoneLaw := by
  have changed : u.restarted.passes = Table.change u.passes fun _ q => q.restarted := rfl
  have pass : ∀ p, u.restarted.pass p = (u.pass p).map Pass.restarted := fun p => by
    rw [State.pass, changed, Table.get_change]; rfl
  have zone : ∀ z, u.restarted.zone z = (u.zone z).restarted := fun z => by simp [State.zone, State.restarted]
  have zoneMap : u.restarted.zoneMap = u.zoneMap := funext fun z => by rw [State.zoneMap, zone]; rfl
  have total : ∀ g : Pass → Bool, u.restarted.passCount g = u.passCount fun q => g q.restarted := fun g => by
    simp only [State.passCount, changed, Table.change, List.countP_map]; rfl
  have inside : ∀ q : Pass, passInside q.restarted.state = passInside q.state := fun q => by
    cases e : q.state <;> simp [Pass.restarted, e, passInside]
  have seated : ∀ q : Pass, passSeated q.restarted.state = false := fun q => by
    cases e : q.state <;> simp [Pass.restarted, e, passSeated]
  obtain ⟨running, cursor, tallyC, tallyT, cached⟩ := law.rezone
  refine ⟨⟨by rw [changed]; exact Table.wf_change law.census.1 _, fun z => ?_⟩, State.rezoneInv_iff.2 ⟨?_, fun p x e visited => ?_⟩,
    fun i st e => by cases e⟩
  · rw [zone, total, total]
    simp only [inside, seated, Bool.and_false]
    exact ⟨(law.census.2 z).1, by simp [State.passCount, Zone.restarted]⟩
  · have same : u.restarted.rezone = u.rezone.restarted := rfl
    simp only [State.RezoneTally, same, Rezone.restarted]
    split
    · next on => exact ⟨fun _ => ⟨Nat.zero_lt_succ _, (running on).2⟩, Nat.zero_le _, le_rfl, le_rfl⟩
    · exact ⟨running, cursor, tallyC, tallyT⟩
  · rw [pass] at e
    obtain ⟨q, held, rfl⟩ := Option.map_eq_some_iff.1 e
    rw [State.cachedZone_congr zoneMap]
    refine cached p q held fun on => ?_
    have same : u.restarted.rezone = u.rezone.restarted := rfl
    have := visited
    simp only [State.Visited, same, Rezone.restarted, on, if_true] at this
    exact absurd (this trivial) (Nat.not_lt_zero _)

/-! ## Stations -/

section
variable {s : State} (h : s.Sound)
include h

theorem execAssocReq_zoneLaw (g : HeadId) (addr : StationAddress) (rssi : Int) : Gives State.ZoneLaw (execAssocReq g addr rssi s) := by
  have law := h.zoneLaw
  have k := State.Keeps.refl s
  have declined : ∀ c : Code, (s.declineAssoc g addr c).ZoneLaw := fun c => law.keeps (k.send g _)
  refine State.zoneLaw_bowlLaw.done ?_
  split
  · unfold State.assocRequest
    split
    · exact declined _
    · split
      · split
        · unfold State.associate
          split
          · exact declined _
          · next i free =>
            split
            · exact declined _
            · split
              · have made : s.Rebinds (s.setStation i (newStation g addr rssi s.unbound s.nowMs)) (· = i) :=
                  ((State.Keeps.refl s).rebinds (touched := (· = i))).setStation rfl _
                have written : (s.setStation i (newStation g addr rssi s.unbound s.nowMs)).ZoneLaw := by
                  refine made.law law ?_
                  rintro j rfl x e -
                  rw [State.station_setStation, if_pos rfl] at e
                  cases e
                  simp [newStation]
                exact written.keeps (((State.Keeps.refl _).recompute g).send g _)
              · exact declined _
        · exact declined _
      · split
        · exact law
        · next e =>
          split
          · exact declined _
          · split
            · exact law.keeps (k.send g _)
            · split
              · split
                · exact law.keeps (k.returnStation e g rssi)
                · exact law.keeps (k.directMove e _ g rssi)
              · exact declined _
  · exact State.zoneLaw_bowlLaw.quiet law rfl

theorem execDisassoc_zoneLaw (g : HeadId) (addr : StationAddress) : Gives State.ZoneLaw (execDisassoc g addr s) := by
  have law := h.zoneLaw
  refine State.zoneLaw_bowlLaw.handOn h g ?_
  repeat' split
  · exact law
  · exact law
  · exact law.vacate h.binding _ _ _
  · exact law.vacate h.binding _ _ _
  · exact law

/-- A channel joined is a permitted one (R36). -/
theorem execJoinReq_zoneLaw (g : HeadId) (addr : StationAddress) (chan : Nat) : Gives State.ZoneLaw (execJoinReq g addr chan s) := by
  have law := h.zoneLaw
  refine State.zoneLaw_bowlLaw.forMember (work := fun s => s.join g chan) h g addr fun i st at_ _ => ?_
  have answered : ∀ {t : State} (f : LinkFrame), t.ZoneLaw → (t.send g f).ZoneLaw := fun f w =>
    w.keeps ((State.Keeps.refl _).send g f)
  unfold State.join
  dsimp only
  split
  · next small =>
    split
    · exact answered _ law
    · next allowed =>
      split
      · exact answered _ law
      · split
        · exact answered _ law
        · have joined : s.Rebinds (s.setStation i { st with chans := st.chans ||| oneChan ⟨chan, small⟩ }) (· = i) :=
            ((State.Keeps.refl s).rebinds (touched := (· = i))).setStation rfl _
          refine answered _ (State.ZoneLaw.keeps (joined.law law ?_) ((State.Keeps.refl _).recompute g))
          rintro j rfl x e visited
          rw [State.station_setStation, if_pos rfl] at e
          cases e
          rw [State.permitted_of_mapView (st := st) (x := { st with chans := st.chans ||| oneChan ⟨chan, small⟩ }) joined.map rfl]
          have old := chans_within_iff.1 (law.chans j st at_ visited)
          refine chans_within_iff.2 fun c has => ?_
          have either : hasChan st.chans c = true ∨ c = ⟨chan, small⟩ := by
            simp only [hasChan, oneChan, BitVec.getLsbD_or, Bool.or_eq_true] at has ⊢
            refine has.imp id fun one => ?_
            simp at one
            apply Fin.ext
            simp
            omega
          obtain m | rfl := either
          · exact old c m
          · simpa using allowed
  · exact answered _ law

theorem execLapseTimerExpiry_zoneLaw (i : Nat) : Gives State.ZoneLaw (execLapseTimerExpiry i s) := by
  refine State.zoneLaw_bowlLaw.done ?_
  split
  · exact h.zoneLaw
  · next due _ =>
    have law : (s.expireAt due).ZoneLaw := State.zoneLaw_bowlLaw.quiet h.zoneLaw rfl
    exact law.vacate h.binding i _ _

variable (f : Req)

theorem execStationEvict_zoneLaw (i : Nat) : Gives State.ZoneLaw (execStationEvict f i s) := by
  refine State.zoneLaw_bowlLaw.serve h f _ _ _ fun u v => ?_
  repeat' split
  · exact v.zoneLaw
  · exact v.zoneLaw.vacate v.binding i _ _
  · exact v.zoneLaw

/-- The public set replaced: every station over its permitted set is trimmed (R38, R60). -/
theorem execRoamSet_zoneLaw (a b c : Nat) (pub : ChanSet) : Gives State.ZoneLaw (execRoamSet f a b c pub s) := by
  refine State.zoneLaw_bowlLaw.serve h f _ _ _ fun u v => ?_
  split
  · dsimp only
    set t : State := { u with roam := ⟨a, b, c, pub⟩ } with ht
    have census : t.CensusTrue := v.zoneLaw.census.of_passView rfl
    have rezone : t.RezoneInv := v.zoneLaw.rezone
    split
    · next more =>
      refine ⟨census, rezone, fun i st at_ visited => ?_⟩
      have fits := chans_within_iff.1 (v.zoneLaw.chans i st at_ visited)
      have wider := chans_within_iff.1 more
      refine chans_within_iff.2 fun k m => ?_
      have := fits k m
      simp only [State.permitted, hasChan, BitVec.getLsbD_or, Bool.or_eq_true] at this ⊢
      exact this.imp (wider k) id
    · have k : t.Keeps t.trimAll :=
        ((State.Keeps.refl t).foldl (fun _ _ k => k.trim _) _).recomputeList _
      refine ⟨census.of_passView (State.passView_of_aside k.aside), rezone.congr k.mapView, fun i => ?_⟩
      refine State.ChansFit.chansAt (State.ChansFit.keeps ?_ ((State.Keeps.refl _).recomputeList _))
      by_cases crowded : i ∈ (t.stations.map Prod.fst).filter t.overSubscribed
      · exact State.foldl_trim_chansFit t _ crowded
      · refine State.ChansFit.keeps (s := t) ?_ ((State.Keeps.refl t).foldl (fun _ _ k => k.trim _) _)
        intro st at_
        have fits : t.overSubscribed i = false := by
          by_contra e
          exact crowded (List.mem_filter.2 ⟨List.mem_map_of_mem (Table.get_eq_some_mem at_), by simpa using e⟩)
        exact State.chansFit_of_not_overSubscribed fits st at_
  · exact v.zoneLaw

/-! ## Passes -/

omit f in
theorem execBindReq_zoneLaw (g : HeadId) (addr : StationAddress) (m : PassNumber) : Gives State.ZoneLaw (execBindReq g addr m s) :=
  State.zoneLaw_bowlLaw.forMember (work := fun s => s.bindRequest g m) h g addr fun _ _ at_ _ =>
    h.zoneLaw.bindRequest h.binding at_ g m

omit f in
theorem execUnbindReq_zoneLaw (g : HeadId) (addr : StationAddress) : Gives State.ZoneLaw (execUnbindReq g addr s) :=
  State.zoneLaw_bowlLaw.forMember (work := fun s => s.unbindRequest g) h g addr fun i st _ _ => h.zoneLaw.unbindRequest g i st

theorem execPassLoad_zoneLaw (es : List PassEntry) : Gives State.ZoneLaw (execPassLoad f es s) := by
  refine State.zoneLaw_bowlLaw.serve h f _ _ _ fun u v => ?_
  split
  · exact v.zoneLaw.loadEntries v.binding.passesHeld es
  · exact v.zoneLaw

theorem execPassAmend_zoneLaw (m : PassNumber) (tier : Option Nat) (seat : Change (BitVec 16)) (declared : Change Nat) :
    Gives State.ZoneLaw (execPassAmend f m tier seat declared s) := by
  refine State.zoneLaw_bowlLaw.serve h f _ _ _ fun u v => ?_
  split
  · split
    · exact v.zoneLaw
    · split
      · exact v.zoneLaw
      · next held =>
        split
        · exact v.zoneLaw
        · exact v.zoneLaw.amend v.binding held ..
  · exact v.zoneLaw

theorem execPassVoid_zoneLaw (m : PassNumber) : Gives State.ZoneLaw (execPassVoid f m s) := by
  refine State.zoneLaw_bowlLaw.serve h f _ _ _ fun u v => ?_
  split
  · exact v.zoneLaw
  · exact v.zoneLaw.unbind ..

theorem execPassDrop_zoneLaw (m : PassNumber) : Gives State.ZoneLaw (execPassDrop f m s) := by
  refine State.zoneLaw_bowlLaw.serve h f _ _ _ fun u v => ?_
  split
  · exact v.zoneLaw
  · exact v.zoneLaw.drop v.binding _

theorem execGateScan_zoneLaw (m : PassNumber) (gate : Nat) (dir : Option ScanDirection) :
    Gives State.ZoneLaw (execGateScan f m gate dir s) := by
  refine State.zoneLaw_bowlLaw.serve h f _ _ _ fun u v => ?_
  split
  · exact v.zoneLaw
  · split
    · exact v.zoneLaw
    · split
      · exact v.zoneLaw
      · split
        · exact v.zoneLaw
        · next held => exact v.zoneLaw.scan held gate _

/-! ## Zones -/

theorem execZoneSet_zoneLaw (z : Nat) (d : Option ZoneSpec) : Gives State.ZoneLaw (execZoneSet f z d s) := by
  refine State.zoneLaw_bowlLaw.serve h f _ _ _ fun u v => ?_
  split
  · exact v.zoneLaw
  · split
    · exact v.zoneLaw
    · split
      · exact v.zoneLaw.writeZone _ _
      · split
        · exact v.zoneLaw
        · exact v.zoneLaw.writeZone _ _

theorem execCensusLatch_zoneLaw (zs : ZoneSet) : Gives State.ZoneLaw (execCensusLatch f zs s) := by
  refine State.zoneLaw_bowlLaw.serve h f _ _ _ fun u v => ?_
  refine v.zoneLaw.latches rfl rfl rfl rfl rfl rfl fun z => ?_
  simp only [State.zone, Fin.getElem_fin, Vector.getElem_ofFn, Fin.eta]
  split <;> exact ⟨rfl, rfl, rfl⟩

theorem execCensusRead_zoneLaw (z : Nat) : Gives State.ZoneLaw (execCensusRead f z s) := by
  refine State.zoneLaw_bowlLaw.serve h f _ _ _ fun u v => ?_
  split
  · exact v.zoneLaw
  · next z _ =>
    split
    · refine v.zoneLaw.latches rfl rfl rfl rfl rfl rfl fun k => ?_
      have same : (u.setZone z { u.zone z with latch := none }).zone k
          = if k = z then { u.zone z with latch := none } else u.zone k := by
        simp only [State.setZone, State.zone, Fin.getElem_fin, Vector.getElem_set, Fin.ext_iff, eq_comm]
      dsimp only
      rw [same]
      split
      · next e => rw [e]; exact ⟨rfl, rfl, rfl⟩
      · exact ⟨rfl, rfl, rfl⟩
    · exact v.zoneLaw

omit f in
theorem execRezoneVisit_zoneLaw : Gives State.ZoneLaw (execRezoneVisit s) := by
  refine State.zoneLaw_bowlLaw.done ?_
  split
  · next running =>
    exact h.zoneLaw.visit h.binding
      (fun k q e => ((State.passesInv_iff.1 h.store.2.1).2.1 k q e).1) running
  · exact h.zoneLaw

/-! ## The part -/

theorem execTierSet_zoneLaw (row : TierRow) : Gives State.ZoneLaw (execTierSet f row s) := by
  refine State.zoneLaw_bowlLaw.serve h f _ _ _ fun u v => ?_
  have law := v.zoneLaw
  have empty : ¬u.part = .run → u.stations = [] := fun p => by
    have config : u.part = .config := by cases e : u.part with | config => rfl | run => exact absurd e p
    exact (v.config config).2.1
  have vacant : ∀ (t : State), u.stations = [] → t.stations = u.stations → ∀ i, t.ChansAt i := by
    intro t none_ same i st at_
    rw [State.station, same, none_] at at_; cases at_
  split
  · split
    · split
      · exact law
      · next config =>
        split
        · exact ⟨law.census.of_passView rfl, law.rezone, vacant _ (empty config) rfl⟩
        · exact law
    · exact law
  · split
    · exact law
    · next config =>
      split
      · exact ⟨law.census.of_passView rfl, law.rezone, vacant _ (empty config) rfl⟩
      · exact law

theorem execRestart_zoneLaw : Gives State.ZoneLaw (execRestart f s) :=
  State.zoneLaw_bowlLaw.serve h f _ _ _ fun _ v => v.zoneLaw.restarted

end

theorem State.reset_zoneLaw : State.reset.ZoneLaw := by
  have zone : ∀ z, State.reset.zone z = ⟨none, 0, 0, none⟩ := fun z => by simp [State.zone, State.reset]
  refine ⟨⟨Table.wf_nil, fun z => ?_⟩, ⟨by decide, by decide, by decide, by decide, fun p q e => by cases e⟩,
    fun i st e => by cases e⟩
  rw [zone]
  exact ⟨rfl, rfl⟩

/-! ## The whole of a step -/

/-- Every command keeps the census true, the re-zone pass in order and the channel sets permitted. -/
theorem exec_zoneLaw {s : State} (h : s.Sound) (i : Instr) : Gives State.ZoneLaw (exec i s) := by
  cases i with
  | powerOn => rintro t ⟨⟩; exact State.zoneLaw_bowlLaw.quiet State.reset_zoneLaw rfl
  | announce g => exact State.zoneLaw_of_tended h (execAnnounce_tended s g)
  | heartbeat g => exact State.zoneLaw_bowlLaw.of_quiet h (execHeartbeat_quiet s g)
  | supervisionTimerExpiry g => exact State.zoneLaw_of_tended h (execSupervisionTimerExpiry_tended s g)
  | setupDone g => exact State.zoneLaw_of_tended h (execSetupDone_tended s g)
  | startTimerExpiry g => exact State.zoneLaw_of_tended h (execStartTimerExpiry_tended s g)
  | seatLinkFrameDiscarded l => exact State.zoneLaw_bowlLaw.of_quiet h (execSeatLinkFrameDiscarded_quiet s l)
  | assocReq g a r => exact execAssocReq_zoneLaw h g a r
  | disassoc g a => exact execDisassoc_zoneLaw h g a
  | lost g a => exact State.zoneLaw_of_tended h (execLost_tended s g a)
  | stationReport g a r cs => exact State.zoneLaw_of_tended h (execStationReport_tended s g a r cs)
  | joinReq g a c => exact execJoinReq_zoneLaw h g a c
  | leaveReq g a c => exact State.zoneLaw_of_tended h (execLeaveReq_tended s g a c)
  | bindReq g a n => exact execBindReq_zoneLaw h g a n
  | unbindReq g a => exact execUnbindReq_zoneLaw h g a
  | ready g a n => exact State.zoneLaw_of_tended h (execReady_tended s g a n)
  | decline g a n => exact State.zoneLaw_of_tended h (execDecline_tended s g a n)
  | lapseTimerExpiry n => exact execLapseTimerExpiry_zoneLaw h n
  | handoverTimerExpiry n => exact State.zoneLaw_of_tended h (execHandoverTimerExpiry_tended s n)
  | windowTimerExpiry g => exact State.zoneLaw_of_tended h (execWindowTimerExpiry_tended s g)
  | segmentFrame p bs => exact State.zoneLaw_bowlLaw.of_quiet h (execSegmentFrame_quiet s p bs)
  | holdTimerExpiry k => exact State.zoneLaw_bowlLaw.of_quiet h (execHoldTimerExpiry_quiet s k)
  | paceTimerExpiry c => exact State.zoneLaw_bowlLaw.of_quiet h (execPaceTimerExpiry_quiet s c)
  | readCompletion => exact State.zoneLaw_bowlLaw.of_quiet h (execReadCompletion_quiet s)
  | rezoneVisit => exact execRezoneVisit_zoneLaw h
  | transactionBegin => exact State.zoneLaw_bowlLaw.of_quiet h (execTransactionBegin_quiet s)
  | transactionEnd bs => exact State.zoneLaw_bowlLaw.of_quiet h (execTransactionEnd_quiet s bs)
  | badFrame => exact State.zoneLaw_bowlLaw.of_quiet h (execBadFrame_quiet s)
  | unknownRequestType => exact State.zoneLaw_bowlLaw.of_quiet h (execUnknownRequestType_quiet s)
  | hello f => exact State.zoneLaw_bowlLaw.of_quiet h (execHello_quiet s f)
  | start f => exact State.zoneLaw_bowlLaw.of_quiet h (execStart_quiet s f)
  | restart f => exact execRestart_zoneLaw h f
  | noticeEnable f a b => exact State.zoneLaw_bowlLaw.of_quiet h (execNoticeEnable_quiet s f a b)
  | tierSet f r => exact execTierSet_zoneLaw h f r
  | roamSet f a b c p => exact execRoamSet_zoneLaw h f a b c p
  | headSetupPart1 f g r x => exact State.zoneLaw_bowlLaw.of_quiet h (execHeadSetupPart1_quiet s f g r x)
  | headSetupPart2 f g c x => exact State.zoneLaw_bowlLaw.of_quiet h (execHeadSetupPart2_quiet s f g c x)
  | headSetupPart3 f g ns => exact State.zoneLaw_bowlLaw.of_quiet h (execHeadSetupPart3_quiet s f g ns)
  | headControlStart f g k => exact State.zoneLaw_bowlLaw.of_quiet h (execHeadControlStart_quiet s f g k)
  | headControlDrain f g k => exact State.zoneLaw_of_tended h (execHeadControlDrain_tended s f g k)
  | headControlStop f g k => exact State.zoneLaw_of_tended h (execHeadControlStop_tended s f g k)
  | headLimits f g c x => exact State.zoneLaw_bowlLaw.of_quiet h (execHeadLimits_quiet s f g c x)
  | headQuery f g => exact State.zoneLaw_bowlLaw.of_quiet h (execHeadQuery_quiet s f g)
  | headStats f g => exact State.zoneLaw_bowlLaw.of_quiet h (execHeadStats_quiet s f g)
  | stationQuery f r => exact State.zoneLaw_bowlLaw.of_quiet h (execStationQuery_quiet s f r)
  | stationMove f n g => exact State.zoneLaw_of_tended h (execStationMove_tended s f n g)
  | stationEvict f n => exact execStationEvict_zoneLaw h f n
  | passLoad f es => exact execPassLoad_zoneLaw h f es
  | passAmend f n t x d => exact execPassAmend_zoneLaw h f n t x d
  | passVoid f n => exact execPassVoid_zoneLaw h f n
  | passDrop f n => exact execPassDrop_zoneLaw h f n
  | passQuery f r => exact State.zoneLaw_bowlLaw.of_quiet h (execPassQuery_quiet s f r)
  | gateScan f n g d => exact execGateScan_zoneLaw h f n g d
  | zoneSet f z d => exact execZoneSet_zoneLaw h f z d
  | zoneQuery f z => exact State.zoneLaw_bowlLaw.of_quiet h (execZoneQuery_quiet s f z)
  | censusLatch f zs => exact execCensusLatch_zoneLaw h f zs
  | censusRead f z => exact execCensusRead_zoneLaw h f z
  | ingestMode f m b => exact State.zoneLaw_bowlLaw.of_quiet h (execIngestMode_quiet s f m b)
  | programSet f p l a b => exact State.zoneLaw_bowlLaw.of_quiet h (execProgramSet_quiet s f p l a b)
  | channelSetup f c p r m => exact State.zoneLaw_bowlLaw.of_quiet h (execChannelSetup_quiet s f c p r m)
  | channelEnable f a b => exact State.zoneLaw_bowlLaw.of_quiet h (execChannelEnable_quiet s f a b)
  | play f c i l n m b => exact State.zoneLaw_bowlLaw.of_quiet h (execPlay_quiet s f c i l n m b)
  | stop f c ls => exact State.zoneLaw_bowlLaw.of_quiet h (execStop_quiet s f c ls)
  | channelStatus f c => exact State.zoneLaw_bowlLaw.of_quiet h (execChannelStatus_quiet s f c)
  | clipQuery f r => exact State.zoneLaw_bowlLaw.of_quiet h (execClipQuery_quiet s f r)
  | clipPin f i b => exact State.zoneLaw_bowlLaw.of_quiet h (execClipPin_quiet s f i b)
  | clipRetire f i => exact State.zoneLaw_bowlLaw.of_quiet h (execClipRetire_quiet s f i)

/-- Settles O9: a record written has its counts moved with it, and a station whose pass or permitted set changes is trimmed. -/
theorem everyStepKeepsCensusTrue : Obligations.EveryStepKeepsCensusTrue := by
  intro s t h e
  have law : t.ZoneLaw := by
    unfold step at e
    split at e
    · cases e; exact State.zoneLaw_bowlLaw.quiet h.zoneLaw rfl
    · next c rest _ => exact exec_zoneLaw (h.withPending rest) c t e
  exact ⟨law.census.2, law.rezone, law.chans⟩

end Sys2Proof.Machine

/-!
PROOF LAYER. Work whose only effect on the heads is on the accounts of some of them, and whose only notices are of class AIRTIME
(R46, R51, R52); and the statements about single station frames.
-/
namespace Sys2Proof.Machine

/-! ## Work on accounts -/

/-- Work that changes stations, holds and the accounts of some heads alone, sends no frame, and tells of AIRTIME alone. -/
structure State.AirtimeWork (s t : State) (touched : HeadId → Prop) : Prop where
  aside   : t.aside = s.aside
  view    : t.headsView = s.headsView
  heads   : ∀ g, ¬ touched g → t.head g = s.head g
  linkOut : t.linkOut = s.linkOut
  told    : ∃ ns, s.Produced t ns ∧ ∀ n ∈ ns, noticeClass n = .airtime

section
variable {s t u : State} {touched : HeadId → Prop}

/-- Work on the records of stations and holds alone. -/
theorem State.AirtimeWork.records (aside : t.aside = s.aside) (heads : t.heads = s.heads) (linkOut : t.linkOut = s.linkOut)
    (held : t.held = s.held) : s.AirtimeWork t touched :=
  ⟨aside, State.headsView_congr heads, fun _ _ => State.head_congr heads _, linkOut, [], .nil held, by simp⟩

theorem State.AirtimeWork.refl (s : State) : s.AirtimeWork s touched := .records rfl rfl rfl rfl

theorem State.AirtimeWork.trans (h : s.AirtimeWork t touched) (k : t.AirtimeWork u touched) : s.AirtimeWork u touched where
  aside := k.aside.trans h.aside
  view := k.view.trans h.view
  heads g n := (k.heads g n).trans (h.heads g n)
  linkOut := k.linkOut.trans h.linkOut
  told := by
    obtain ⟨ns, p, hp⟩ := h.told
    obtain ⟨ms, q, hq⟩ := k.told
    refine ⟨ns ++ ms, p.trans q (State.enables_of_aside h.aside), fun n mem => ?_⟩
    exact (List.mem_append.1 mem).elim (hp n) (hq n)

theorem State.recompute_airtimeWork (s : State) {h : HeadId} (m : touched h) : s.AirtimeWork (s.recompute h) touched :=
  ⟨s.recompute_aside h, s.recompute_headsView h, fun _ n => s.recompute_head_of_ne (fun e => n (e ▸ m)), s.recompute_linkOut h,
    s.recompute_produced h⟩

theorem State.AirtimeWork.recompute (k : s.AirtimeWork t touched) {h : HeadId} (m : touched h) :
    s.AirtimeWork (t.recompute h) touched := k.trans (t.recompute_airtimeWork m)

theorem State.setReservation_airtimeWork (s : State) (i : Nat) : s.AirtimeWork (s.setReservation i) touched := by
  unfold State.setReservation
  repeat' split
  all_goals exact .records rfl rfl rfl rfl

theorem State.AirtimeWork.recomputeOf (k : s.AirtimeWork t touched) {i : Nat} (m : ∀ h, t.headOf i = some h → touched h) :
    s.AirtimeWork (t.recomputeOf i) touched := by
  unfold State.recomputeOf
  split
  · exact k
  · next h e => exact k.recompute (m h e)

theorem State.AirtimeWork.recomputeTarget (k : s.AirtimeWork t touched) {i : Nat}
    (m : ∀ h, (t.station i).bind Station.target = some h → touched h) : s.AirtimeWork (t.recomputeTarget i) touched := by
  unfold State.recomputeTarget
  split
  · exact k
  · next h e => exact k.recompute (m h e)

theorem State.headOf_setReservation (s : State) (i j : Nat) : (s.setReservation i).headOf j = s.headOf j := by
  unfold State.setReservation
  split
  · rfl
  · next st e =>
    split
    · rfl
    · next h cur =>
      simp only [State.headOf, State.station_setStation]
      split
      · next same =>
        have kept : (s.towards h st (s.tierValue st)).current = st.current := by
          unfold State.towards; repeat' split
          all_goals rfl
        rw [same, e, Option.bind_some, Option.bind_some, kept]
      · rfl

theorem State.settle_airtimeWork (s : State) {i : Nat} (m : ∀ h, s.headOf i = some h → touched h) :
    s.AirtimeWork (s.settle i) touched := by
  unfold State.settle
  dsimp only
  have reserved := s.setReservation_airtimeWork (touched := touched) i
  split
  · exact reserved
  · exact reserved.recomputeOf fun h e => m h (s.headOf_setReservation i i ▸ e)

theorem State.AirtimeWork.settle (k : s.AirtimeWork t touched) {i : Nat} (m : ∀ h, t.headOf i = some h → touched h) :
    s.AirtimeWork (t.settle i) touched := k.trans (t.settle_airtimeWork m)

/-- The heads outside those touched are kept; the others but for their accounts. -/
theorem State.AirtimeWork.headsKept (k : s.AirtimeWork t touched) {hs : List HeadId} (sub : ∀ h, touched h → h ∈ hs) :
    s.HeadsKept t hs := fun g =>
  ⟨fun _ => State.sameButAccount_of_headsView k.view g, fun n => k.heads g fun m => n (sub g m)⟩

/-- What a command in progress holds, a command that held nothing before has produced. -/
theorem State.Produced.held (quiet : s.held = []) (p : ∃ ns, s.Produced t ns) : s.Produced t t.held := by
  obtain ⟨ns, p⟩ := p
  simp only [State.Produced, quiet, List.nil_append] at p ⊢
  rw [p, List.filter_filter]
  simp

/-- A command that keeps all beside stations, holds and heads offers the notices it holds. -/
theorem State.inBowl_held (quiet : s.held = []) (aside : t.aside = s.aside) (p : ∃ ns, s.Produced t ns) :
    s.InBowl t.flush t.held :=
  .of_flush quiet (State.besideBowl_of_aside aside) (State.discards_of_aside aside) (.held quiet p)

theorem State.AirtimeWork.produced (k : s.AirtimeWork t touched) : ∃ ns, s.Produced t ns := by
  obtain ⟨ns, p, -⟩ := k.told
  exact ⟨ns, p⟩

end

/-! ## Frames sent in answer -/

theorem Head.reachable_of {x : Head} (present : x.state ≠ .absent) (sane : x.state ≠ .fault) : x.reachable = true := by
  simp [Head.reachable, present, sane]

theorem State.Hears.reachable {s : State} {h : HeadId} (c : s.Hears h) : (s.head h).reachable = true :=
  Head.reachable_of c.2.1 c.2.2.1

/-- A command whose only effect is a frame sent to a head that hears. -/
theorem State.send_done {s : State} {h : HeadId} (quiet : s.held = []) (r : (s.head h).reachable = true) (f : LinkFrame) :
    (s.send h f).done = .next { s with linkOut := s.linkOut ++ [(h, f)] } := by
  rw [State.done_of_held_nil (s := s.send h f) quiet, State.send_of_reachable r]

theorem State.reachable_of_view {s t : State} (e : t.headsView = s.headsView) (h : HeadId) :
    (t.head h).reachable = (s.head h).reachable := by
  simp only [Head.reachable, SameButAccount.state (State.sameButAccount_of_headsView e h)]

/-! ## ASSOC-REQ -/

theorem execAssocReq_of_reachable {s : State} {h : HeadId} (r : (s.head h).reachable = true) (addr : StationAddress) (rssi : Int) :
    execAssocReq h addr rssi s = (s.assocRequest h addr rssi).done := by
  unfold execAssocReq; rw [if_pos r]

/-- An ASSOC-REQ of an unknown address at a head that is ON (R23, R24). -/
theorem State.assocRequest_of_unknown {s : State} {h : HeadId} {addr : StationAddress} (run : s.part = .run)
    (unknown : s.lookupStation addr = none) (on : (s.head h).state = .on) (rssi : Int) :
    s.assocRequest h addr rssi = s.associate h addr rssi := by
  simp only [State.assocRequest, run, unknown, on]; rfl

/-- An ASSOC-REQ of a known address, in R23's order. -/
theorem State.assocRequest_of_known {s : State} {h : HeadId} {addr : StationAddress} {i : Nat} {st : Station} (run : s.part = .run)
    (known : s.lookupStation addr = some i) (e : s.station i = some st) (rssi : Int) :
    s.assocRequest h addr rssi =
      if st.state = .moving then s.declineAssoc h addr .busy
      else if st.current = some h then s.send h (.accept addr i)
      else if (s.head h).state = .on then
        match st.current with
        | none => s.returnStation h i st rssi
        | some g => s.directMove g h i st rssi
      else s.declineAssoc h addr .state := by
  simp only [State.assocRequest, run, known, e]; rfl

/-- A new association that is admitted (R24). -/
theorem State.associate_of_room {s : State} {h : HeadId} {i : Nat} (free : Table.lowestFree s.stations 4096 = some i)
    (room : s.crowd h < 64) (fits : resSum (s.parties h) + s.unbound ≤ (s.head h).cap) (addr : StationAddress) (rssi : Int) :
    s.associate h addr rssi =
      ((s.setStation i (newStation h addr rssi s.unbound s.nowMs)).recompute h).send h (.accept addr i) := by
  simp only [State.associate, free, if_neg (Nat.not_le.2 room), State.admitsMember, decide_eq_true fits, if_true]

/-- Settles O32: each check that fails declines; the rest join the head at the lowest vacant record. -/
theorem assocReqTakesANewRecord : Obligations.AssocReqTakesANewRecord := by
  intro s h addr rssi quiet inv present sane answer
  have r := Head.reachable_of present sane
  have wf := (State.stationsInv_iff.1 inv).1
  have answered : ∀ f : LinkFrame, s.assocRequest h addr rssi = s.send h f → answer f := fun f e =>
    (execAssocReq_of_reachable r addr rssi).trans ((congrArg State.done e).trans (State.send_done quiet r f))
  refine ⟨fun config => answered _ (by simp only [State.assocRequest, config, if_true]; rfl), fun run => ⟨fun i st known e => ?_,
    fun unknown off => answered _ ?_, fun unknown on => ?_⟩⟩
  · have shape := State.assocRequest_of_known (h := h) run known e rssi
    refine ⟨fun moving => answered _ ?_, fun idle here => answered _ ?_, fun still away off => answered _ ?_⟩
    · rw [shape, if_pos moving]; rfl
    · have still : st.state ≠ .moving := by rcases idle with e | e <;> rw [e] <;> decide
      rw [shape, if_neg still, if_pos here]
    · rw [shape, if_neg still, if_neg away, if_neg off]; rfl
  · simp only [State.assocRequest, run, unknown, if_neg off]; rfl
  · have shape := State.assocRequest_of_unknown (h := h) run unknown on rssi
    refine ⟨fun full => answered _ ?_, fun i small vacant below => ?_⟩
    · have none_ : Table.lowestFree s.stations 4096 = none :=
        (Table.lowestFree_eq_none wf).2 fun j hj => Option.isSome_iff_ne_none.1 (full j hj)
      rw [shape]; simp only [State.associate, none_]; rfl
    · have free : Table.lowestFree s.stations 4096 = some i :=
        (Table.lowestFree_eq_some wf).2 ⟨small, vacant, fun j hj => Option.isSome_iff_ne_none.1 (below j hj)⟩
      refine ⟨fun crowded => answered _ ?_, fun room poor => answered _ ?_, fun room fits => ?_⟩
      · have crowded : 64 ≤ s.crowd h := crowded
        rw [shape]; simp only [State.associate, free, if_pos crowded]; rfl
      · have refused : s.admitsMember h s.unbound = false := decide_eq_false (Nat.not_le.2 poor)
        have room : ¬ 64 ≤ s.crowd h := Nat.not_le.2 room
        rw [shape]
        simp only [State.associate, free, if_neg room, refused, Bool.false_eq_true, if_false]; rfl
      · intro v
        have joined := State.associate_of_room free room fits addr rssi
        have work : s.AirtimeWork (v.recompute h) (· = h) :=
          (State.AirtimeWork.records (s := s) (t := v) rfl rfl rfl rfl).recompute rfl
        refine ⟨((v.recompute h).send h (.accept addr i)).flush, ?_, ?_, ?_, ?_, ?_, ?_, ?_⟩
        · show execAssocReq h addr rssi s = _
          rw [execAssocReq_of_reachable r, shape, joined]; rfl
        · simp
        · simp; rfl
        · simp; exact State.passView_of_aside work.aside
        · simp
        · rw [State.flush_linkOut, State.send_of_reachable ((State.reachable_of_view work.view h).trans r), work.linkOut]
        · exact State.inBowl_held (t := (v.recompute h).send h (.accept addr i)) quiet work.aside work.produced

end Sys2Proof.Machine

/-!
PROOF LAYER. STATION-REPORT: the candidates stored, the signal taken, and a report with no candidate to weigh (R33, R34, R66).
-/
namespace Sys2Proof.Machine

/-! ## The candidates stored -/

/-- One candidate of a report: kept if its head exists and none of that head is kept yet (R34). -/
def keepCandidate (kept : List (HeadId × Int)) (c : Nat × Int) : List (HeadId × Int) :=
  match headId? c.1 with
  | none => kept
  | some k => if kept.any fun x => x.1 == k then kept else kept ++ [(k, clampRssi c.2)]

theorem reportCandidates_eq (cands : List (Nat × Int)) : reportCandidates cands = cands.foldl keepCandidate [] := rfl

theorem keepCandidate_nodup {kept : List (HeadId × Int)} (nodup : (kept.map Prod.fst).Nodup) (c : Nat × Int) :
    ((keepCandidate kept c).map Prod.fst).Nodup := by
  unfold keepCandidate
  split
  · exact nodup
  · next k _ =>
    split
    · exact nodup
    · next new =>
      rw [List.map_append, List.map_singleton]
      refine List.Nodup.append nodup (List.nodup_singleton k) fun x mem one => new ?_
      obtain ⟨y, hy, rfl⟩ := List.mem_map.1 mem
      exact List.any_eq_true.2 ⟨y, hy, by simpa using List.mem_singleton.1 one⟩

/-- What a report keeps: what was kept before, and the first of each other head. -/
theorem mem_foldl_keepCandidate (cands : List (Nat × Int)) (kept : List (HeadId × Int)) (c : HeadId × Int) :
    c ∈ cands.foldl keepCandidate kept ↔ c ∈ kept ∨ (∀ x ∈ kept, x.1 ≠ c.1)
      ∧ (cands.find? fun x => x.1 == c.1.val).map (fun x => clampRssi x.2) = some c.2 := by
  induction cands generalizing kept with
  | nil => simp
  | cons a cands ih =>
    rw [List.foldl_cons, ih, List.find?_cons]
    unfold keepCandidate
    cases e : headId? a.1 with
    | none =>
      have off : (a.1 == c.1.val) = false := by
        rw [beq_eq_false_iff_ne]
        rintro same
        rw [same, headId?_val] at e; cases e
      simp only [off]
    | some k =>
      have named : a.1 = k.val := headId?_eq_some e
      by_cases own : k = c.1
      · subst own
        simp only [named, beq_self_eq_true]
        split
        · next had =>
          obtain ⟨x, mem, same⟩ := List.any_eq_true.1 had
          have here : ¬ ∀ x ∈ kept, x.1 ≠ c.1 := fun n => n x mem (by simpa using same)
          simp only [here, false_and]
        · next new =>
          have none_ : ∀ x ∈ kept, x.1 ≠ c.1 := fun x mem same => new (List.any_eq_true.2 ⟨x, mem, by simpa using same⟩)
          have filled : ¬ ∀ x ∈ kept ++ [(c.1, clampRssi a.2)], x.1 ≠ c.1 := fun n => n (c.1, clampRssi a.2) (by simp) rfl
          constructor
          · rintro (mem | ⟨none', -⟩)
            · rcases List.mem_append.1 mem with m | m
              · exact .inl m
              · exact .inr ⟨none_, congrArg (fun x : HeadId × Int => some x.2) (List.mem_singleton.1 m).symm⟩
            · exact absurd none' filled
          · rintro (m | ⟨-, same⟩)
            · exact .inl (List.mem_append_left _ m)
            · exact .inl (List.mem_append_right _ (List.mem_singleton.2 (Prod.ext rfl (Option.some.inj same).symm)))
      · have other : (a.1 == c.1.val) = false := by
          rw [beq_eq_false_iff_ne, named]
          exact fun same => own (Fin.ext same)
        simp only [other]
        split
        · exact Iff.rfl
        · have away : c ≠ (k, clampRssi a.2) := fun same => own (congrArg Prod.fst same).symm
          simp only [List.mem_append, List.mem_singleton, away, or_false]
          refine or_congr_right (and_congr_left fun _ => ⟨fun n x mem => n x (.inl mem), fun n x mem => ?_⟩)
          rcases mem with m | rfl
          · exact n x m
          · exact own

theorem reportCandidates_nodup (cands : List (Nat × Int)) : ((reportCandidates cands).map Prod.fst).Nodup := by
  rw [reportCandidates_eq]
  have each : ∀ kept : List (HeadId × Int), (kept.map Prod.fst).Nodup → ((cands.foldl keepCandidate kept).map Prod.fst).Nodup := by
    induction cands with
    | nil => exact fun _ n => n
    | cons c cs ih => exact fun kept n => ih _ (keepCandidate_nodup n c)
  exact each [] List.nodup_nil

/-! ## The report of a member -/

/-- A member's frame is worked on. -/
theorem State.Member.forMember {s : State} {h : HeadId} {addr : StationAddress} {i : Nat} {st : Station}
    (m : s.Member h addr i st) (work : Nat → Station → State) : s.forMember h addr work = work i st := by
  obtain ⟨known, e, -, here⟩ := m
  simp only [State.forMember, known, e, if_pos here]

theorem State.takeRssi_eq {s : State} (wf : Table.wf s.stations) {i : Nat} {st : Station} (e : s.station i = some st) (h : HeadId)
    (rssi : Int) : s.takeRssi h i st rssi =
      let v := s.setStation i { st with rssi := clampRssi rssi, rate := rateClass rssi }
      if rateClass rssi = st.rate then v else v.recompute h := by
  simp only [State.takeRssi, State.updateStation_eq_setStation wf e]

/-- A station that keeps no candidate is left alone by its weighing (R67). -/
theorem State.weigh_of_no_candidate {s : State} {i : Nat} {st : Station} {here : HeadId} (e : s.station i = some st)
    (cur : st.current = some here) (none_ : ∀ c, ¬ s.Kept st here c) : s.weigh i = s := by
  have empty : s.keptCandidates st here = [] :=
    List.eq_nil_iff_forall_not_mem.2 fun c mem => none_ c (State.mem_keptCandidates.1 mem)
  have best : s.bestCandidate st here = none := by simp only [State.bestCandidate, empty]
  cases state : st.state <;> simp only [State.weigh, e, state, cur, best]

/-- Settles O35: the record is written with the signal, the head recomputed for a new class, and a weighing finds no candidate. -/
theorem stationReportStoresTheSignal : Obligations.StationReportStoresTheSignal := by
  refine ⟨fun cands => ⟨reportCandidates_nodup cands, fun c => ?_⟩, ?_⟩
  · rw [reportCandidates_eq, mem_foldl_keepCandidate]; simp
  intro s h rssi cands i st sound hears member short r v w stored
  have wf : Table.wf s.stations := sound.store.1.1
  obtain ⟨-, e, -, here⟩ := id member
  have served : ∀ u : State, s.report h rssi cands i st = u → exec (.stationReport h st.addr rssi cands) s = u.done := by
    intro u shape
    show execStationReport h st.addr rssi cands s = _
    rw [execStationReport, if_neg (by omega), hears.handOn, member.forMember, shape]
  have taken : s.takeRssi h i st rssi = w := State.takeRssi_eq wf e h rssi
  have written : s.AirtimeWork v (· = h) := .records rfl rfl rfl rfl
  have work : s.AirtimeWork w (· = h) := by
    simp only [w]; split
    · exact written
    · exact written.recompute rfl
  have stations : w.stations = v.stations := by
    simp only [w]; split
    · rfl
    · exact State.recompute_stations v h
  have holds : w.holds = s.holds := by
    simp only [w]; split
    · rfl
    · exact State.recompute_holds v h
  have station : ∀ j, w.station j = if j = i then some r else s.station j := fun j => by
    rw [State.station, stations]; exact State.station_setStation s i j r
  have finish : ∀ (x : Station) (u : State), s.report h rssi cands i st = u → u.aside = w.aside → u.heads = w.heads →
      u.holds = w.holds → u.linkOut = w.linkOut → u.held = w.held →
      (∀ j, u.station j = if j = i then some x else s.station j) → stored x := by
    intro x u shape aside heads holds' linkOut held at_
    have worked : s.AirtimeWork u (· = h) := work.trans (.records aside heads linkOut held)
    have told := State.inBowl_held hears.2.2.2 worked.aside worked.produced
    rw [held] at told
    have flushed : ∀ j, u.flush.station j = u.station j := fun j => by rw [State.station, State.flush_stations]; rfl
    refine ⟨u.flush, served u shape, ?_, fun j ne => ?_, ?_, ?_, ?_, ?_, ?_, told⟩
    · rw [flushed, at_, if_pos rfl]
    · rw [flushed, at_, if_neg ne]
    · rw [State.flush_heads, heads]
    · have kept := worked.headsKept (hs := [h]) fun g m => by simp [m]
      intro g
      rw [State.head_congr u.flush_heads]
      exact kept g
    · rw [State.flush_holds, holds', holds]
    · rw [State.flush_passView]; exact State.passView_of_aside worked.aside
    · rw [State.flush_linkOut, linkOut, work.linkOut]
  refine ⟨fun moving => finish r w ?_ rfl rfl rfl rfl rfl station, fun idle none_ => ?_⟩
  · simp only [State.report, taken, moving]; rfl
  · set u := w.updateStation i fun x => { x with candidates := reportCandidates cands } with hu
    have at_ : ∀ j, u.station j = if j = i then some { r with candidates := reportCandidates cands } else s.station j := by
      intro j
      rw [hu, State.station_updateStation, station]
      by_cases e : j = i
      · simp only [if_pos e]; rfl
      · simp only [if_neg e]
    refine finish _ u ?_ rfl rfl rfl rfl rfl at_
    have own : u.station i = some { r with candidates := reportCandidates cands } := by rw [at_, if_pos rfl]
    simp only [State.report, taken, if_pos idle, ← hu]
    refine State.weigh_of_no_candidate (here := h) own here fun c kept => ?_
    obtain ⟨mem, -, near, on⟩ := kept
    have same : ∀ g, SameButAccount (s.head g) (u.head g) := fun g => State.sameButAccount_of_headsView work.view g
    rcases none_ c mem with far | off
    · exact far (by rw [congrArg Head.neighbours (same h)]; exact near)
    · exact off ((SameButAccount.state (same c.1)).trans on)

end Sys2Proof.Machine

/-!
PROOF LAYER. A station's channel set kept to some channels, its heads recomputed: their accounts are true (R36, R37, R38).
-/
namespace Sys2Proof.Machine

/-! ## Accounts true at a head -/

/-- A head's account, if it is open, is true (R43, R45). -/
def State.AccountsTrueAt (s : State) (g : HeadId) : Prop := ∀ a, (s.head g).account = some a → s.AccountTrue g a

/-- No open account holds a SHED channel of the venue level (R47). -/
def State.VenueClean (s : State) : Prop := ∀ g a, (s.head g).account = some a → s.NoVenueShed a

theorem State.NoVenueShed.congr {s t : State} {a : Account} (v : s.NoVenueShed a) (channels : t.channels = s.channels) :
    t.NoVenueShed a := by
  have venue : ∀ c, t.atVenue c = s.atVenue c := fun c => by simp only [State.atVenue, State.channel, channels]
  intro c at_
  exact v c (by rw [← venue]; exact at_)

theorem State.Sound.venueClean {s : State} (h : s.Sound) : s.VenueClean := fun g a e => (h.airtime g a e).1.noVenueShed

section
variable {s t : State}

theorem State.VenueClean.congr (clean : s.VenueClean) (channels : t.channels = s.channels) (heads : t.heads = s.heads) :
    t.VenueClean := fun g a e => (clean g a (by rw [← State.head_congr heads g]; exact e)).congr channels

theorem State.recompute_channels (s : State) (h : HeadId) : (s.recompute h).channels = s.channels :=
  State.channels_of_aside (s.recompute_aside h)

theorem State.recompute_parties (s : State) (h g : HeadId) : (s.recompute h).parties g = s.parties g := by
  simp only [State.parties, State.holdsAt, State.recompute_stations, State.recompute_holds]

/-- A recompute leaves the account of its head true (R46). -/
theorem State.VenueClean.recompute_self (clean : s.VenueClean) (g : HeadId) : (s.recompute g).AccountsTrueAt g := by
  intro a e
  cases acc : (s.head g).account with
  | none => rw [State.recompute_of_closed acc, acc] at e; cases e
  | some b =>
    have own := State.recompute_head_self acc
    rw [own] at e
    cases e
    exact (s.recomputed_true g (clean g b acc)).congr (s.recompute_channels g) (s.recompute_parties g g) (by rw [own])

theorem State.AccountsTrueAt.recompute {g : HeadId} (true_ : s.AccountsTrueAt g) (clean : s.VenueClean) (h : HeadId) :
    (s.recompute h).AccountsTrueAt g := by
  by_cases e : g = h
  · subst e; exact clean.recompute_self g
  · have same := s.recompute_head_of_ne e
    intro a acc
    rw [same] at acc
    exact (true_ a acc).congr (s.recompute_channels h) (s.recompute_parties h g) (by rw [same])

theorem State.VenueClean.recompute (clean : s.VenueClean) (h : HeadId) : (s.recompute h).VenueClean := by
  intro g a e
  by_cases same : g = h
  · subst same; exact (clean.recompute_self g a e).noVenueShed
  · rw [s.recompute_head_of_ne same] at e
    exact (clean g a e).congr (s.recompute_channels h)

/-- A recompute of a station's head and target leaves both accounts true. -/
theorem State.VenueClean.recomputeBoth (clean : s.VenueClean) {i : Nat} {st : Station} (e : s.station i = some st) {g : HeadId}
    (m : st.current = some g ∨ st.target = some g) : (s.recomputeBoth i).AccountsTrueAt g := by
  have kept : (s.recomputeOf i).station i = some st := by
    unfold State.recomputeOf
    split
    · exact e
    · rw [State.station, State.recompute_stations]; exact e
  have first : (s.recomputeOf i).VenueClean ∧ (st.current = some g → (s.recomputeOf i).AccountsTrueAt g) := by
    have head : s.headOf i = st.current := by simp only [State.headOf, e, Option.bind_some]
    unfold State.recomputeOf
    rw [head]
    cases st.current with
    | none => exact ⟨clean, fun n => by cases n⟩
    | some h => exact ⟨clean.recompute h, fun n => by cases n; exact clean.recompute_self g⟩
  unfold State.recomputeBoth State.recomputeTarget
  rw [kept, Option.bind_some]
  cases target : st.target with
  | none => exact first.2 (m.resolve_right (by simp [target]))
  | some h =>
    rcases m with cur | tgt
    · exact (first.2 cur).recompute first.1 h
    · rw [target] at tgt; cases tgt
      exact first.1.recompute_self g

end

/-! ## Channel sets kept to some channels -/

section
variable {s : State}

theorem State.keepChans_airtimeWork (s : State) (i : Nat) (keep : ChanSet) {touched : HeadId → Prop} :
    s.AirtimeWork (s.keepChans i keep) touched := .records rfl rfl rfl rfl

theorem State.keepChans_station (s : State) (i : Nat) (keep : ChanSet) (j : Nat) : (s.keepChans i keep).station j
    = if j = i then (s.station j).map fun st => { st with chans := st.chans &&& keep } else s.station j :=
  s.station_updateStation i j fun st => { st with chans := st.chans &&& keep }

theorem State.keepChans_holds (s : State) (i : Nat) (keep : ChanSet) : (s.keepChans i keep).holds
    = s.holds.map fun x => if x.station = i then { x with chans := x.chans &&& keep } else x := rfl

theorem State.recomputeBoth_stations (s : State) (i : Nat) : (s.recomputeBoth i).stations = s.stations := by
  have one : ∀ t : State, (t.recomputeTarget i).stations = t.stations := fun t => by
    unfold State.recomputeTarget; split
    · rfl
    · exact t.recompute_stations _
  unfold State.recomputeBoth
  rw [one]
  unfold State.recomputeOf; split
  · rfl
  · exact s.recompute_stations _

theorem State.recomputeBoth_holds (s : State) (i : Nat) : (s.recomputeBoth i).holds = s.holds := by
  have one : ∀ t : State, (t.recomputeTarget i).holds = t.holds := fun t => by
    unfold State.recomputeTarget; split
    · rfl
    · exact t.recompute_holds _
  unfold State.recomputeBoth
  rw [one]
  unfold State.recomputeOf; split
  · rfl
  · exact s.recompute_holds _

/-- A recompute of a station's head and target is work on those two accounts. -/
theorem State.recomputeBoth_airtimeWork {i : Nat} {st : Station} (e : s.station i = some st) {touched : HeadId → Prop}
    (m : ∀ g, st.current = some g ∨ st.target = some g → touched g) : s.AirtimeWork (s.recomputeBoth i) touched := by
  refine ((State.AirtimeWork.refl s).recomputeOf fun h at_ => m h (.inl ?_)).recomputeTarget fun h at_ => m h (.inr ?_)
  · simpa only [State.headOf, e, Option.bind_some] using at_
  · have kept : (s.recomputeOf i).station i = some st := by
      unfold State.recomputeOf
      split
      · exact e
      · rw [State.station, State.recompute_stations]; exact e
    simpa only [kept, Option.bind_some] using at_

/-- The hold of a station has the station's channel set (R61). -/
def State.HoldFollows (s : State) (i : Nat) (st : Station) : Prop := ∀ x ∈ s.holds, x.station = i → x.chans = st.chans

theorem State.Sound.holdFollows (h : s.Sound) {i : Nat} {st : Station} (e : s.station i = some st) : s.HoldFollows i st := by
  rintro x mem rfl
  obtain ⟨-, -, st', at_, -, -, -, same⟩ := h.moves.2.1 x mem
  rw [e] at at_; cases at_
  exact same

/-- A station's channel set kept to some channels, and its heads recomputed, is all that changes. -/
theorem State.keepChans_stationBecomes (clean : s.VenueClean) {i : Nat} {st : Station} (e : s.station i = some st)
    (follows : s.HoldFollows i st) (keep : ChanSet) :
    s.StationBecomes ((s.keepChans i keep).recomputeBoth i) i st { st with chans := st.chans &&& keep } := by
  have own : (s.keepChans i keep).station i = some { st with chans := st.chans &&& keep } := by
    rw [State.keepChans_station, if_pos rfl, e]; rfl
  have work : s.AirtimeWork ((s.keepChans i keep).recomputeBoth i) fun g => st.current = some g ∨ st.target = some g :=
    (s.keepChans_airtimeWork i keep).trans (State.recomputeBoth_airtimeWork own fun _ m => m)
  refine ⟨?_, fun j ne => ?_, ?_, work.headsKept fun g m => ?_, fun g a m acc => ?_⟩
  · rw [State.station, State.recomputeBoth_stations]; exact own
  · rw [State.station, State.recomputeBoth_stations]
    exact (s.keepChans_station i keep j).trans (if_neg ne)
  · rw [State.recomputeBoth_holds, State.keepChans_holds]
    refine List.map_congr_left fun x mem => ?_
    split
    · next at_ => rw [follows x mem at_]
    · rfl
  · simpa [Option.mem_toList] using m
  · have kept : (s.keepChans i keep).VenueClean := clean.congr rfl rfl
    exact kept.recomputeBoth own m a acc

end

/-! ## JOIN-REQ and LEAVE-REQ -/

section
variable {s : State} {h : HeadId} {i : Nat} {st : Station} (hears : s.Hears h) (member : s.Member h st.addr i st)
include hears member

theorem execJoinReq_of_member (n : Nat) : exec (.joinReq h st.addr n) s = (s.join h n i st).done := by
  show execJoinReq h st.addr n s = _
  rw [execJoinReq, hears.handOn, member.forMember]

theorem execLeaveReq_of_member (n : Nat) : exec (.leaveReq h st.addr n) s = (s.leave h n i st).done := by
  show execLeaveReq h st.addr n s = _
  rw [execLeaveReq, hears.handOn, member.forMember]

end

theorem State.join_of_chan (s : State) (h : HeadId) (c : Chan) (i : Nat) (st : Station) : s.join h c i st =
    if !hasChan (s.permitted st) c then s.send h (.joinAnswer st.addr c .denied)
    else if st.state = .moving then s.send h (.joinAnswer st.addr c .busy)
    else if hasChan st.chans c then s.send h (.joinAnswer st.addr c .ok)
    else ((s.setStation i { st with chans := st.chans ||| oneChan c }).recompute h).send h (.joinAnswer st.addr c .ok) := by
  simp only [State.join, c.isLt, dif_pos]

theorem State.leave_of_chan (s : State) (h : HeadId) (c : Chan) (i : Nat) (st : Station) : s.leave h c i st =
    (if hasChan st.chans c then (s.keepChans i (~~~ oneChan c)).recomputeBoth i else s).send h (.leaveAnswer st.addr c .ok) := by
  simp only [State.leave, c.isLt, dif_pos]

/-- Settles O38: a channel joins or leaves the set, and the heads that count it are recomputed. -/
theorem joinAndLeaveChangeTheChannelSet : Obligations.JoinAndLeaveChangeTheChannelSet := by
  intro s h i st sound hears member answered only
  obtain ⟨-, e, -, here⟩ := id member
  have quiet := hears.2.2.2
  have r := hears.reachable
  have sent : ∀ f : LinkFrame, (s.send h f).done = only f := fun f => State.send_done quiet r f
  have joins := execJoinReq_of_member hears member
  have leaves := execLeaveReq_of_member hears member
  refine ⟨fun n big => ?_, fun c => ⟨fun off => ?_, fun on moving => ?_, fun on still has => ?_, fun on still new => ?_,
    fun off => ?_, fun has => ?_⟩⟩
  · have off : ¬ n < 8 := Nat.not_lt.2 big
    rw [joins, leaves, State.join, State.leave, dif_neg off, dif_neg off]
    exact ⟨sent _, sent _⟩
  · rw [joins, State.join_of_chan, off]; exact sent _
  · rw [joins, State.join_of_chan, on, if_pos moving]; exact sent _
  · rw [joins, State.join_of_chan, on, if_neg still, if_pos has]; exact sent _
  · intro w
    have work : s.AirtimeWork w (· = h) :=
      (State.AirtimeWork.records (s := s) (t := s.setStation i { st with chans := st.chans ||| oneChan c }) rfl rfl rfl rfl).recompute
        rfl
    refine ⟨(w.send h (.joinAnswer st.addr c .ok)).flush, ?_, ?_, ?_, ?_, ?_, ?_,
      State.inBowl_held (t := w.send h (.joinAnswer st.addr c .ok)) quiet work.aside work.produced⟩
    · rw [joins, State.join_of_chan, on, if_neg still, new]; rfl
    · rw [State.flush_stations]; rfl
    · rw [State.flush_holds]; exact State.recompute_holds _ h
    · rw [State.flush_heads]; rfl
    · rw [State.flush_passView]; exact State.passView_of_aside work.aside
    · show State.linkOut _ = _
      rw [State.flush_linkOut, State.send_of_reachable ((State.reachable_of_view work.view h).trans r), work.linkOut]
  · rw [leaves, State.leave_of_chan, off]; exact sent _
  · obtain ⟨own, others, holds, heads, accounts⟩ :=
      State.keepChans_stationBecomes sound.venueClean e (sound.holdFollows e) (~~~ oneChan c)
    have kept : (s.keepChans i (~~~ oneChan c)).station i = some { st with chans := st.chans &&& ~~~ oneChan c } := by
      rw [State.keepChans_station, if_pos rfl, e]; rfl
    have work : s.AirtimeWork ((s.keepChans i (~~~ oneChan c)).recomputeBoth i) fun _ => True :=
      (s.keepChans_airtimeWork i _).trans (State.recomputeBoth_airtimeWork kept fun _ _ => trivial)
    generalize hw : (s.keepChans i (~~~ oneChan c)).recomputeBoth i = w at *
    obtain ⟨ns, produced, airtime⟩ := work.told
    set t := (w.send h (.leaveAnswer st.addr c .ok)).flush with ht
    have station : ∀ j, t.station j = w.station j := fun j => by rw [State.station, ht, State.flush_stations]; rfl
    have head : ∀ g, t.head g = w.head g := fun g => State.head_congr (by rw [ht, State.flush_heads]; rfl) g
    have parties : ∀ g, t.parties g = w.parties g := fun g => by
      simp only [State.parties, State.holdsAt, ht, State.flush_stations, State.flush_holds]; rfl
    have channels : t.channels = w.channels := by
      rw [ht, State.flush_eq]; rfl
    refine ⟨t, ns, ?_, (station i).trans own, fun j ne => (station j).trans (others j ne), ?_, fun g => ?_, fun g a m acc => ?_,
      ?_, ?_, airtime, .of_flush quiet (State.besideBowl_of_aside work.aside) (State.discards_of_aside work.aside) produced⟩
    · rw [leaves, State.leave_of_chan, if_pos has, hw]; rfl
    · rw [ht, State.flush_holds]; exact holds
    · rw [head]
      have := heads g
      simpa only [here, Option.toList_some, List.singleton_append] using this
    · have acc' : (w.head g).account = some a := head g ▸ acc
      have touched : st.current = some g ∨ st.target = some g := m.imp (fun same => by rw [same, here]) id
      exact (accounts g a touched acc').congr channels (parties g) (by rw [head])
    · rw [ht, State.flush_passView]; exact State.passView_of_aside work.aside
    · show State.linkOut _ = _
      rw [State.flush_linkOut, State.send_of_reachable ((State.reachable_of_view work.view h).trans r), work.linkOut]

end Sys2Proof.Machine

/-!
PROOF LAYER. ROAM-SET: the trims of every crowded station, and the recomputes that follow them (R38, R60).
-/
namespace Sys2Proof.Machine

/-! ## Trims -/

/-- A station's record with its channel set kept to its permitted set (R38). -/
def State.trimmed (s : State) (st : Station) : Station := { st with chans := st.chans &&& s.permitted st }

theorem State.trimmed_twice {s t : State} (e : t.mapView = s.mapView) (st : Station) : t.trimmed (s.trimmed st) = s.trimmed st := by
  have same : t.permitted (s.trimmed st) = s.permitted st := State.permitted_of_mapView e rfl
  simp only [State.trimmed] at same ⊢
  rw [same, BitVec.and_assoc, BitVec.and_self]

theorem State.trimmed_congr {s t : State} (e : t.mapView = s.mapView) (st : Station) : t.trimmed st = s.trimmed st := by
  simp only [State.trimmed, State.permitted_of_mapView e (x := st) (st := st) rfl]

theorem State.trim_station (s : State) (i j : Nat) :
    (s.trim i).station j = (s.station j).map fun st => if j = i then s.trimmed st else st := by
  unfold State.trim
  cases e : s.station i with
  | none =>
    by_cases same : j = i
    · rw [same, e]; rfl
    · simp only [if_neg same, Option.map_id']
  | some st =>
    dsimp only
    rw [State.keepChans_station]
    by_cases same : j = i
    · subst same; rw [e, if_pos rfl, Option.map_some, Option.map_some, if_pos rfl]; rfl
    · simp only [if_neg same, Option.map_id']

/-- A channel set kept to what a station is permitted, as its hold's is (R38). -/
def State.heldChans (s : State) (i : Nat) (c : ChanSet) : ChanSet := ((s.station i).map fun st => c &&& s.permitted st).getD c

/-- A hold with its channel set kept to what its station is permitted (R38). -/
def State.trimmedHold (s : State) (x : Hold) : Hold := { x with chans := s.heldChans x.station x.chans }

theorem State.heldChans_trim (s : State) (k i : Nat) (c : ChanSet) : (s.trim k).heldChans i c = s.heldChans i c := by
  have map : (s.trim k).mapView = s.mapView := ((State.Keeps.refl s).trim k).mapView
  have permitted : ∀ st, (s.trim k).permitted (if i = k then s.trimmed st else st) = s.permitted st := fun st => by
    refine State.permitted_of_mapView map ?_
    split <;> rfl
  simp only [State.heldChans, State.trim_station, Option.map_map, Function.comp_def, permitted]

theorem State.heldChans_twice (s : State) (i : Nat) (c : ChanSet) : s.heldChans i (s.heldChans i c) = s.heldChans i c := by
  cases e : s.station i with
  | none => simp only [State.heldChans, e, Option.map_none, Option.getD_none]
  | some st => simp only [State.heldChans, e, Option.map_some, Option.getD_some, BitVec.and_assoc, BitVec.and_self]

theorem State.trim_holds (s : State) (i : Nat) :
    (s.trim i).holds = s.holds.map fun x => if x.station = i then s.trimmedHold x else x := by
  unfold State.trim
  cases e : s.station i with
  | none =>
    dsimp only
    refine (List.map_id'' (fun x => ?_) _).symm
    split
    · next at_ => subst at_; simp only [State.trimmedHold, State.heldChans, e, Option.map_none, Option.getD_none]
    · rfl
  | some st =>
    dsimp only
    rw [State.keepChans_holds]
    refine List.map_congr_left fun x _ => ?_
    split
    · next at_ => subst at_; simp only [State.trimmedHold, State.heldChans, e, Option.map_some, Option.getD_some]
    · rfl

theorem State.trim_airtimeWork (s : State) (i : Nat) {touched : HeadId → Prop} : s.AirtimeWork (s.trim i) touched := by
  unfold State.trim
  split
  · exact .refl s
  · exact s.keepChans_airtimeWork i _

section
variable (s : State) (l : List Nat)

theorem State.foldl_trim_airtimeWork {touched : HeadId → Prop} : s.AirtimeWork (l.foldl State.trim s) touched := by
  induction l generalizing s with
  | nil => exact .refl s
  | cons i l ih => exact (s.trim_airtimeWork i).trans (ih _)

theorem State.foldl_trim_station (j : Nat) :
    (l.foldl State.trim s).station j = (s.station j).map fun st => if j ∈ l then s.trimmed st else st := by
  induction l generalizing s with
  | nil => simp
  | cons i l ih =>
    have map : (s.trim i).mapView = s.mapView := ((State.Keeps.refl s).trim i).mapView
    rw [List.foldl_cons, ih, State.trim_station, Option.map_map]
    congr 1
    funext st
    simp only [Function.comp_apply, List.mem_cons]
    by_cases own : j = i
    · by_cases more : j ∈ l
      · simp only [own, if_true, true_or, own ▸ more]; exact State.trimmed_twice map st
      · simp only [own, if_true, true_or, own ▸ more, if_false]
    · simp only [own, false_or, if_false, State.trimmed_congr map]

theorem State.foldl_trim_holds :
    (l.foldl State.trim s).holds = s.holds.map fun x => if x.station ∈ l then s.trimmedHold x else x := by
  induction l generalizing s with
  | nil => simp
  | cons i l ih =>
    rw [List.foldl_cons, ih, State.trim_holds, List.map_map]
    refine List.map_congr_left fun x _ => ?_
    have station : (s.trimmedHold x).station = x.station := rfl
    have twice : (s.trim i).trimmedHold (s.trimmedHold x) = s.trimmedHold x := by
      simp only [State.trimmedHold, State.heldChans_trim, State.heldChans_twice]
    have same : (s.trim i).trimmedHold x = s.trimmedHold x := by simp only [State.trimmedHold, State.heldChans_trim]
    simp only [Function.comp_apply, List.mem_cons]
    by_cases own : x.station = i
    · by_cases more : i ∈ l
      · simp only [own, if_true, true_or, station, more, twice]
      · simp only [own, if_true, true_or, station, more, if_false]
    · simp only [own, false_or, if_false, same]

end

theorem State.recomputeList_airtimeWork (s : State) (hs : List HeadId) : s.AirtimeWork (s.recomputeList hs) (· ∈ hs) := by
  have each : ∀ (l : List HeadId) (t : State), s.AirtimeWork t (· ∈ hs) → (∀ h ∈ l, h ∈ hs) →
      s.AirtimeWork (t.recomputeList l) (· ∈ hs) := by
    intro l
    induction l with
    | nil => exact fun _ k _ => k
    | cons h l ih =>
      exact fun t k sub => ih _ (k.recompute (sub h (List.mem_cons_self ..))) fun g m => sub g (List.mem_cons_of_mem _ m)
  exact each hs s (.refl s) fun _ m => m

theorem State.recomputeList_stations (s : State) (hs : List HeadId) : (s.recomputeList hs).stations = s.stations := by
  unfold State.recomputeList
  induction hs generalizing s with
  | nil => rfl
  | cons h hs ih => rw [List.foldl_cons, ih, State.recompute_stations]

theorem State.recomputeList_holds (s : State) (hs : List HeadId) : (s.recomputeList hs).holds = s.holds := by
  unfold State.recomputeList
  induction hs generalizing s with
  | nil => rfl
  | cons h hs ih => rw [List.foldl_cons, ih, State.recompute_holds]

/-! ## Every crowded station trimmed -/

/-- A head that a station over its permitted set is a member of, or on its way to (R38). -/
def State.Crowded (s : State) (g : HeadId) : Prop :=
  ∃ i st, s.station i = some st ∧ (st.current = some g ∨ st.target = some g) ∧ s.overSubscribed i = true

section
variable (s : State)

theorem State.trimmed_of_not_overSubscribed {s : State} {i : Nat} {st : Station} (e : s.station i = some st)
    (fits : s.overSubscribed i = false) : s.trimmed st = st := by
  have within := State.chansFit_of_not_overSubscribed fits st e
  simp only [State.trimmed, chans_and_eq_self within]

theorem State.mem_crowded {i : Nat} {st : Station} (e : s.station i = some st) :
    i ∈ (s.stations.map Prod.fst).filter s.overSubscribed ↔ s.overSubscribed i = true := by
  rw [List.mem_filter]
  exact and_iff_right (List.mem_map_of_mem (Table.get_eq_some_mem e))

theorem State.trimAll_station (i : Nat) : s.trimAll.station i = (s.station i).map s.trimmed := by
  unfold State.trimAll
  rw [State.station, State.recomputeList_stations]
  refine (State.foldl_trim_station s _ i).trans ?_
  cases e : s.station i with
  | none => rfl
  | some st =>
    simp only [Option.map_some, s.mem_crowded e]
    split
    · rfl
    · next fits => rw [State.trimmed_of_not_overSubscribed e (by simpa using fits)]

theorem State.trimAll_holds : s.trimAll.holds = s.holds.map fun x => if s.overSubscribed x.station then s.trimmedHold x else x := by
  unfold State.trimAll
  rw [State.recomputeList_holds, State.foldl_trim_holds]
  refine List.map_congr_left fun x _ => ?_
  cases e : s.station x.station with
  | none =>
    have out : s.overSubscribed x.station = false := by simp only [State.overSubscribed, e]
    have same : s.trimmedHold x = x := by simp only [State.trimmedHold, State.heldChans, e, Option.map_none, Option.getD_none]
    simp only [same, ite_self]
  | some st => simp only [s.mem_crowded e]

/-- Only the heads of crowded stations are recomputed. -/
theorem State.trimAll_airtimeWork : s.AirtimeWork s.trimAll s.Crowded := by
  unfold State.trimAll
  dsimp only
  refine (s.foldl_trim_airtimeWork ((s.stations.map Prod.fst).filter s.overSubscribed)).trans ?_
  have listed := State.recomputeList_airtimeWork (((s.stations.map Prod.fst).filter s.overSubscribed).foldl State.trim s)
    ((List.finRange 96).filter fun h => h ∈ ((s.stations.map Prod.fst).filter s.overSubscribed).flatMap
      fun i => ((s.station i).map Station.concerned).getD [])
  refine ⟨listed.aside, listed.view, fun g n => listed.heads g fun m => n ?_, listed.linkOut, listed.told⟩
  obtain ⟨i, over_, mem⟩ := List.mem_flatMap.1 (of_decide_eq_true (List.mem_filter.1 m).2)
  cases e : s.station i with
  | none => rw [e] at mem; simp at mem
  | some st =>
    rw [e] at mem
    refine ⟨i, st, e, ?_, (s.mem_crowded e).1 over_⟩
    simpa [Station.concerned] using mem

end

/-! ## ROAM-SET -/

theorem roamOk_iff {a b c : Nat} : roamOk a b c = true ↔ a ≤ 20 ∧ b ≤ 10000 ∧ 5 ≤ c ∧ c ≤ 120 := by
  simp only [roamOk, Bool.and_eq_true, decide_eq_true_eq, and_assoc]

/-- Settles O41: the settings are written, and with a smaller public set every station is trimmed to what it may hold. -/
theorem roamSetReplacesTheSettings : Obligations.RoamSetReplacesTheSettings := by
  intro s u f a b c pub sound taken
  obtain ⟨rest, rfl⟩ := taken.eq
  refine ⟨fun bad => ?_, fun ha hb hc hc' => ?_⟩
  · have refused : roamOk a b c = false := by
      rw [← Bool.not_eq_true, roamOk_iff]; omega
    exact congrArg _ (taken.refused (by simp only [refused]; rfl))
  · intro v
    have ok : roamOk a b c = true := roamOk_iff.2 ⟨ha, hb, hc, hc'⟩
    have served : exec (.roamSet f a b c pub) s
        = .next ((if s.roam.pub &&& ~~~ pub = 0 then v else v.trimAll).reply 0x06 f.tag .ok .none).flush := by
      refine congrArg _ ((State.serve_of_taken taken.1 taken.2.1).trans ?_)
      simp only [ok, if_true, v]
    have quiet : v.held = [] := taken.held
    have same : s.roam.pub &&& ~~~ pub = 0 →
        exec (.roamSet f a b c pub) s = .next (v.reply 0x06 f.tag .ok .none) := fun wider => by
      rw [served, if_pos wider, State.flush_of_held_nil (s := v.reply 0x06 f.tag .ok .none) quiet]
    refine ⟨same, ?_⟩
    by_cases wider : s.roam.pub &&& ~~~ pub = 0
    · refine ⟨_, [], same wider, rfl, fun n => absurd wider n, rfl, rfl, by simp, .of_silent rfl rfl rfl⟩
    · have work := v.trimAll_airtimeWork
      obtain ⟨ns, produced, airtime⟩ := work.told
      rw [if_neg wider] at served
      set t := (v.trimAll.reply 0x06 f.tag .ok .none).flush with ht
      have station : ∀ i, t.station i = v.trimAll.station i := fun i => by rw [State.station, ht, State.flush_stations]; rfl
      have head : ∀ g, t.head g = v.trimAll.head g := fun g => State.head_congr (by rw [ht, State.flush_heads]; rfl) g
      have vs : ∀ i, v.station i = s.station i := fun _ => rfl
      have vh : ∀ g, v.head g = s.head g := fun _ => rfl
      have holds : v.holds = s.holds := rfl
      refine ⟨t, ns, served, ?_, fun _ => ⟨fun i => ?_, ?_, fun g => ⟨?_, fun fits => ?_⟩⟩, ?_, ?_, airtime,
        .of_reply quiet (State.besideBowl_of_aside work.aside) (State.discards_of_aside work.aside) produced⟩
      · have host := State.hostSet_of_aside work.aside
        simp only [State.hostSet, Prod.mk.injEq] at host
        have flushed : t.roam = v.trimAll.roam := by rw [ht, State.flush_eq]; rfl
        rw [flushed, host.2.2]
      · rw [station, State.trimAll_station, vs]; rfl
      · rw [ht, State.flush_holds]
        refine (State.trimAll_holds v).trans ?_
        rw [holds]
        refine List.map_congr_left fun x mem => ?_
        obtain ⟨-, -, st, at_, -, -, -, follows⟩ := sound.moves.2.1 x mem
        have at' : v.station x.station = some st := (vs _).trans at_
        split
        · simp only [State.trimmedHold, State.heldChans, at', at_, Option.map_some, Option.getD_some, follows]
        · next fits =>
          have kept := State.chansFit_of_not_overSubscribed (by simpa using fits) st at'
          rw [← follows] at kept
          simp only [at_, Option.map_some, Option.getD_some, ← follows, chans_and_eq_self kept]
      · rw [head, ← vh]; exact State.sameButAccount_of_headsView work.view g
      · rw [head, ← vh]
        refine work.heads g ?_
        rintro ⟨i, st, e, m, crowded⟩
        have := fits i st ((vs i).symm.trans e) m
        simp only [State.overSubscribed, e, this] at crowded
        simp at crowded
      · rw [ht, State.flush_passView]
        have same : v.trimAll.passView = v.passView := State.passView_of_aside work.aside
        exact same
      · rw [ht, State.flush_linkOut]
        exact work.linkOut

end Sys2Proof.Machine

/-!
PROOF LAYER. A visit of the re-zone pass: the counts and latches of both zones, the bound station, the cursor and the notice (R113,
R114, R115, R121).
-/
namespace Sys2Proof.Machine

/-! ## A station's record becomes another -/

section
variable {s t u : State} {i : Nat} {st x : Station}

/-- What a station's record has become is read from stations, holds, heads and channels alone. -/
theorem State.StationBecomes.congr (b : s.StationBecomes t i st x) {s' t' : State} (stations : s'.stations = s.stations)
    (holds : s'.holds = s.holds) (heads : s'.heads = s.heads) (stations' : t'.stations = t.stations) (holds' : t'.holds = t.holds)
    (heads' : t'.heads = t.heads) (channels' : t'.channels = t.channels) : s'.StationBecomes t' i st x := by
  obtain ⟨own, others, kept, touched, accounts⟩ := b
  have station : ∀ j, s'.station j = s.station j := fun j => by rw [State.station, stations]; rfl
  have station' : ∀ j, t'.station j = t.station j := fun j => by rw [State.station, stations']; rfl
  have head' : ∀ g, t'.head g = t.head g := fun g => State.head_congr heads' g
  refine ⟨(station' i).trans own, fun j ne => (station' j).trans ((others j ne).trans (station j).symm), ?_, fun g => ?_,
    fun g a m acc => ?_⟩
  · rw [holds', kept, holds]
  · rw [head', State.head_congr heads g]; exact touched g
  · have parties : t'.parties g = t.parties g := by simp only [State.parties, State.holdsAt, stations', holds']
    exact (accounts g a m (head' g ▸ acc)).congr channels' parties (by rw [head'])

/-- A station that keeps its record, in a state that keeps stations, holds and heads. -/
theorem State.StationBecomes.of_same (e : s.station i = some st) (follows : s.HoldFollows i st) (same : x = st)
    (accounts : ∀ g, s.AccountsTrueAt g) : s.StationBecomes s i st x := by
  subst same
  have holds : s.holds.map (fun y => if y.station = i then { y with chans := x.chans } else y) = s.holds := by
    refine (List.map_congr_left fun y mem => ?_).trans (List.map_id s.holds)
    split
    · next own => rw [← follows y mem own]; rfl
    · rfl
  exact ⟨e, fun _ _ => rfl, holds.symm, fun g => ⟨fun _ => rfl, fun _ => rfl⟩, fun g a _ acc => accounts g a acc⟩

end

/-! ## The first half of a visit -/

section
variable (s : State) (p : Nat) (q : Pass)

/-- The first half of a visit works on the pass records, the zones and the tallies alone. -/
theorem State.visitZone_eq : s.visitZone p q =
    { s with passes := (s.visitZone p q).passes, zones := (s.visitZone p q).zones, rezone := (s.visitZone p q).rezone } := by
  have counted : ∀ (t : State) st a b, t.rezoneCounts st a b = { t with zones := (t.rezoneCounts st a b).zones } := by
    intro t st a b
    unfold State.rezoneCounts
    split <;> rfl
  unfold State.visitZone
  dsimp only
  split
  · rfl
  · rw [counted]
    split <;> rfl

theorem State.visitZone_passes : (s.visitZone p q).passes =
    if q.cached = s.cachedZone q.seat q.declared then s.passes
    else Table.put s.passes p { q with cached := s.cachedZone q.seat q.declared } := by
  unfold State.visitZone
  dsimp only
  split
  · rfl
  · split
    · exact State.rezoneCounts_passes ..
    · exact State.rezoneCounts_passes ..

theorem State.markStale_zone (z : Option ZoneId) (k : ZoneId) :
    (s.markStale z).zone k = if z = some k then (s.zone k).markStale else s.zone k := s.zone_count z _ k

/-- Whether a pass counts for a zone, as a number. -/
def countsAs (yes : Bool) (k : ZoneId) (z : Option ZoneId) : Nat := if yes = true ∧ z = some k then 1 else 0

theorem moveCount_down (b : Bool) (n : Nat) : moveCount b false n = n - b.toNat := by cases b <;> rfl

theorem moveCount_up (b : Bool) (n : Nat) : moveCount false b n = n + b.toNat := by cases b <;> rfl

theorem countsAs_self (yes : Bool) (k : ZoneId) : countsAs yes k (some k) = yes.toNat := by cases yes <;> simp [countsAs]

theorem countsAs_other (yes : Bool) {k : ZoneId} {z : Option ZoneId} (ne : z ≠ some k) : countsAs yes k z = 0 := by
  simp [countsAs, ne]

/-- A zone whose counts a pass leaves (R88). -/
theorem Zone.moved_out (st : PassState) (z : Zone) : z.moved (some st) none =
    { z with admitted := z.admitted - (passInside st).toNat, seated := z.seated - (passSeated st).toNat } := by
  simp only [Zone.moved, Option.map_some, Option.getD_some, Option.map_none, Option.getD_none, moveCount_down]

/-- A zone whose counts a pass enters (R88). -/
theorem Zone.moved_in (st : PassState) (z : Zone) : z.moved none (some st) =
    { z with admitted := z.admitted + (passInside st).toNat, seated := z.seated + (passSeated st).toNat } := by
  simp only [Zone.moved, Option.map_some, Option.getD_some, Option.map_none, Option.getD_none, moveCount_up]

/-- A zone after a visit: the visited pass counts in its new zone and no more in its old one, and the latches of both zones of a
pass inside the bowl are stale (R114, R121). -/
theorem State.visitZone_zone (c : s.CensusTrue) (held : s.pass p = some q) (k : ZoneId) :
    (s.visitZone p q).zone k = { s.zone k with
      admitted := (s.zone k).admitted - countsAs (passInside q.state) k q.cached
        + countsAs (passInside q.state) k (s.cachedZone q.seat q.declared)
      seated := (s.zone k).seated - countsAs (passSeated q.state) k q.cached
        + countsAs (passSeated q.state) k (s.cachedZone q.seat q.declared)
      latch := if decide (q.cached ≠ s.cachedZone q.seat q.declared) && passInside q.state
            && (decide (q.cached = some k) || decide (s.cachedZone q.seat q.declared = some k)) then
          (s.zone k).latch.map fun l => { l with stale := true }
        else (s.zone k).latch } := by
  have counted : countsAs (passInside q.state) k q.cached ≤ (s.zone k).admitted
      ∧ countsAs (passSeated q.state) k q.cached ≤ (s.zone k).seated := by
    have small := c.counted held k
    by_cases own : q.cached = some k
    · simpa only [Pass.countsIn, own, beq_self_eq_true, Bool.true_and, countsAs_self] using small
    · simp only [countsAs_other _ own, Nat.zero_le, and_self]
  unfold State.visitZone
  dsimp only
  generalize s.cachedZone q.seat q.declared = z
  by_cases same : q.cached = z
  · subst same
    rw [if_pos rfl, Nat.sub_add_cancel counted.1, Nat.sub_add_cancel counted.2]
    simp
  · rw [if_neg same]
    have moved : ((s.setPass p { q with cached := z }).rezoneCounts q.state q.cached z).zone k = { s.zone k with
        admitted := (s.zone k).admitted - countsAs (passInside q.state) k q.cached + countsAs (passInside q.state) k z
        seated := (s.zone k).seated - countsAs (passSeated q.state) k q.cached + countsAs (passSeated q.state) k z } := by
      have base : (s.setPass p { q with cached := z }).zone k = s.zone k := rfl
      unfold State.rezoneCounts
      rw [if_neg same, State.zone_censusMove, State.zone_censusMove, base]
      by_cases out : q.cached = some k
      · have stay : z ≠ some k := fun e => same (out.trans e.symm)
        rw [if_neg stay, if_pos out, Zone.moved_out, out, countsAs_self, countsAs_self, countsAs_other _ stay, countsAs_other _ stay]
        rfl
      · by_cases enters : z = some k
        · rw [if_pos enters, if_neg out, Zone.moved_in, enters, countsAs_self, countsAs_self, countsAs_other _ out,
            countsAs_other _ out]
          rfl
        · rw [if_neg enters, if_neg out, countsAs_other _ out, countsAs_other _ out, countsAs_other _ enters,
            countsAs_other _ enters]
          rfl
    generalize (s.setPass p { q with cached := z }).rezoneCounts q.state q.cached z = t at moved
    have differs : decide (q.cached ≠ z) = true := decide_eq_true same
    rw [differs, Bool.true_and]
    cases inside : passInside q.state with
    | false =>
      simp only [inside, Bool.false_eq_true, if_false, Bool.false_and] at moved ⊢
      exact moved
    | true =>
      have staled : ((t.markStale q.cached).markStale z).zone k
          = if q.cached = some k ∨ z = some k then (t.zone k).markStale else t.zone k := by
        rw [State.markStale_zone, State.markStale_zone]
        by_cases enters : z = some k
        · have out : q.cached ≠ some k := fun e => same (e.trans enters.symm)
          simp only [enters, out, if_true, if_false, or_true]
        · simp only [enters, if_false, or_false]
      simp only [inside, if_true, Bool.true_and] at moved ⊢
      refine staled.trans ?_
      rw [moved]
      by_cases touched : q.cached = some k ∨ z = some k
      · have listed : (decide (q.cached = some k) || decide (z = some k)) = true := by simpa using touched
        rw [if_pos touched, listed, if_pos rfl]
        rfl
      · have apart : (decide (q.cached = some k) || decide (z = some k)) = false := by simpa using touched
        rw [if_neg touched, apart, if_neg (by simp)]

end

/-! ## The second half, and the cursor -/

/-- All that the re-zone pass leaves alone: everything but the stations, holds, heads, passes, zones, its own record and the notices
produced. -/
def State.besideVisit (s : State) :=
  (s.linkView, s.configView, s.replayView, s.playView, s.now, s.outbound, s.lost, s.discards, s.linkOut)

theorem State.besideVisit_of_aside {s t : State} (aside : t.aside = s.aside) (linkOut : t.linkOut = s.linkOut) :
    t.besideVisit = s.besideVisit := by
  rw [State.eq_of_aside aside]
  simp only [State.besideVisit, linkOut]
  rfl

/-- The cursor moves on, and a pass that ends tells of it (R113, R115). -/
theorem State.advanceCursor_told (u : State) {z : ZoneId} (subject : u.rezone.subject = some z) :
    u.advanceCursor.besideVisit = u.besideVisit ∧ u.advanceCursor.heads = u.heads
      ∧ u.Produced u.advanceCursor (if u.rezone.cursor + 1 < 8192 then [] else [.rezoneDone z u.rezone.changed u.rezone.trimmed]) := by
  unfold State.advanceCursor
  dsimp only
  split
  · exact ⟨rfl, rfl, .nil rfl⟩
  · rw [subject]
    exact ⟨rfl, rfl, State.note_produced { u with rezone := _ } _⟩

/-- What the work of a visit leaves alone, and what it tells of. -/
structure State.VisitWork (s u : State) (p : Nat) : Prop where
  beside : u.besideVisit = s.besideVisit
  told   : ∃ ns, s.Produced u ns ∧ (∀ n ∈ ns, noticeClass n = .airtime) ∧ (s.pass p = none → ns = [])

theorem State.visitPass_visitWork (s : State) (p : Nat) : s.VisitWork (s.visitPass p) p := by
  unfold State.visitPass
  split
  · exact ⟨rfl, [], .nil rfl, by simp, fun _ => rfl⟩
  · next q held =>
    have stands : s.pass p ≠ none := by rw [held]; simp
    have shape := s.visitZone_eq p q
    have beside : (s.visitZone p q).besideVisit = s.besideVisit := by rw [shape]; rfl
    have quiet : (s.visitZone p q).held = s.held := by rw [shape]
    have enables : (s.visitZone p q).enables = s.enables := by rw [shape]
    obtain ⟨same, -⟩ | ⟨i, -, -, -, trimmed⟩ := (s.visitZone p q).visitStation_cases q
    · rw [same]; exact ⟨beside, [], .nil quiet, by simp, fun _ => rfl⟩
    · rw [trimmed]
      have work : (s.visitZone p q).AirtimeWork (((s.visitZone p q).trim i).recomputeBoth i) fun _ => True := by
        refine (State.trim_airtimeWork _ i).trans ?_
        cases e : ((s.visitZone p q).trim i).station i with
        | none =>
          have still : ((s.visitZone p q).trim i).recomputeBoth i = (s.visitZone p q).trim i := by
            simp only [State.recomputeBoth, State.recomputeOf, State.headOf, State.recomputeTarget, e, Option.bind_none]
          rw [still]; exact .refl _
        | some st => exact State.recomputeBoth_airtimeWork e fun _ _ => trivial
      obtain ⟨ns, produced, airtime⟩ := work.told
      refine ⟨(State.besideVisit_of_aside work.aside work.linkOut).trans beside, ns, ?_, airtime, fun n => absurd n stands⟩
      have all : s.Produced (((s.visitZone p q).trim i).recomputeBoth i) ([] ++ ns) :=
        State.Produced.trans (.nil quiet) produced enables
      exact all

/-- A visit to a record tells of AIRTIME alone, and at the end of the pass of that; the rest is as it was. -/
theorem State.visit_inBowl {s : State} (quiet : s.held = []) {z : ZoneId} (subject : s.rezone.subject = some z) {p : Nat}
    (visited : s.VisitedAt (s.visitPass p) p) :
    ∃ ns, (∀ n ∈ ns, noticeClass n = .airtime) ∧ (s.pass p = none → ns = []) ∧ (s.visitPass p).advanceCursor.flush.linkOut = s.linkOut
      ∧ s.InBowl { (s.visitPass p).advanceCursor.flush with rezone := s.rezone }
        (ns ++ if s.rezone.cursor + 1 < 8192 then []
          else [.rezoneDone z (s.visitPass p).rezone.changed (s.visitPass p).rezone.trimmed]) := by
  obtain ⟨beside, ns, produced, airtime, silent⟩ := s.visitPass_visitWork p
  obtain ⟨a, b, -, -, tally⟩ := visited.tallied
  have subject' : (s.visitPass p).rezone.subject = some z := by rw [tally]; exact subject
  obtain ⟨beside', -, produced'⟩ := State.advanceCursor_told _ subject'
  have cursor : (s.visitPass p).rezone.cursor = s.rezone.cursor := by rw [tally]
  rw [cursor] at produced'
  generalize (s.visitPass p).advanceCursor = v at beside' produced'
  generalize hu : s.visitPass p = u at *
  have all := beside'.trans beside
  have enables : u.enables = s.enables := by
    simp only [State.besideVisit, State.linkView, Prod.mk.injEq] at beside
    exact beside.1.2.2.2.2.2.1
  have whole : s.Produced v (ns ++ if s.rezone.cursor + 1 < 8192 then []
      else [.rezoneDone z u.rezone.changed u.rezone.trimmed]) := produced.trans produced' enables
  refine ⟨ns, airtime, silent, ?_, ?_⟩
  · rw [State.flush_linkOut]
    simp only [State.besideVisit, Prod.mk.injEq] at all
    exact all.2.2.2.2.2.2.2.2
  · have put : ({ v.flush with rezone := s.rezone } : State) = State.flush { v with rezone := s.rezone } := by
      rw [State.flush_eq v, State.flush_eq { v with rezone := s.rezone }]
      simp only [State.flush_outbound, State.flush_lost]
    rw [put]
    simp only [State.besideVisit, Prod.mk.injEq] at all
    obtain ⟨b1, b2, b3, b4, b5, b6, b7, b8, -⟩ := all
    refine .of_flush quiet ?_ b8 whole
    simp only [State.besideBowl, Prod.mk.injEq]
    exact ⟨b1, b2, b3, b4, trivial, b5, b6, b7⟩

theorem State.visitPass_of_held {s : State} {p : Nat} {q : Pass} (held : s.pass p = some q) :
    s.visitPass p = (s.visitZone p q).visitStation q := by
  simp only [State.visitPass, held]

theorem State.visitPass_of_vacant {s : State} {p : Nat} (vacant : s.pass p = none) : s.visitPass p = s := by
  simp only [State.visitPass, vacant]

/-- The second half of a visit leaves the passes, the zones and the first tally alone. -/
theorem State.visitStation_records (u : State) (q : Pass) : (u.visitStation q).passes = u.passes
    ∧ (u.visitStation q).zones = u.zones ∧ (u.visitStation q).rezone.changed = u.rezone.changed := by
  obtain ⟨same, -⟩ | ⟨i, -, -, -, trimmed⟩ := u.visitStation_cases q
  · rw [same]; exact ⟨rfl, rfl, rfl⟩
  · have passes := State.passView_of_aside (((State.Keeps.refl u).trim i).recomputeBoth i).aside
    simp only [State.passView, Prod.mk.injEq] at passes
    obtain ⟨passes, zones, rezone⟩ := passes
    rw [trimmed]
    exact ⟨passes, zones, (congrArg Rezone.changed rezone : ((u.trim i).recomputeBoth i).rezone.changed = _)⟩

/-- A pass with no station has no station visited. -/
theorem State.visitStation_of_unbound (u : State) {q : Pass} (none_ : q.station = none) : u.visitStation q = u := by
  simp only [State.visitStation, none_]
  split <;> simp_all

/-- What the visited pass permits its station (R35). -/
theorem State.visitZone_permitted {s : State} {p : Nat} {q : Pass} (held : s.pass p = some q) {st : Station}
    (bound : st.pass = some p) : (s.visitZone p q).permitted st = s.roam.pub ||| match s.cachedZone q.seat q.declared with
      | none => 0
      | some k => s.zoneChans k &&& s.tiers[q.tier].chans := by
  have m := s.visitZone_mapBut p q
  rw [State.permitted_of_bound bound (State.visitZone_pass held), m.pub, State.bonus_congr m.zones m.tiers rfl rfl]
  rfl

/-- The station of a visited pass keeps the channels it is permitted (R38, R114). -/
theorem State.visitPass_station {s : State} (sound : s.Sound) {p : Nat} {q : Pass} (held : s.pass p = some q) {i : Nat} {st : Station}
    (own : q.station = some i) (e : s.station i = some st) :
    s.StationBecomes (s.visitPass p) i st { st with chans := st.chans &&& (s.visitZone p q).permitted st }
      ∧ (s.visitPass p).rezone.trimmed = s.rezone.trimmed
        + (if st.chans &&& ~~~ (s.visitZone p q).permitted st = 0 then 0 else 1)
      ∧ (st.chans &&& ~~~ (s.visitZone p q).permitted st = 0 → (s.visitPass p).heads = s.heads) := by
  have shape := s.visitZone_eq p q
  have stations : (s.visitZone p q).stations = s.stations := by rw [shape]
  have holds : (s.visitZone p q).holds = s.holds := by rw [shape]
  have heads : (s.visitZone p q).heads = s.heads := by rw [shape]
  have channels : (s.visitZone p q).channels = s.channels := by rw [shape]
  have at_ : (s.visitZone p q).station i = some st := by rw [State.station, stations]; exact e
  have seated : q.state = .seated := (sound.binding.2.2 p q held).1 (by rw [own]; rfl)
  have follows : (s.visitZone p q).HoldFollows i st := fun x mem => sound.holdFollows e x (holds ▸ mem)
  rw [State.visitPass_of_held held]
  obtain ⟨same, fits⟩ | ⟨j, -, own', crowded, trimmed⟩ := (s.visitZone p q).visitStation_cases q
  · rw [same]
    have within := State.chansFit_of_not_overSubscribed (fits i seated own) st at_
    refine ⟨State.StationBecomes.congr (State.StationBecomes.of_same e (sound.holdFollows e) ?_ fun g a acc => ?_) rfl rfl rfl
      stations holds heads channels, ?_, fun _ => heads⟩
    · rw [chans_and_eq_self within]
    · exact (sound.airtime g a acc).1
    · rw [if_pos within, State.visitZone_rezone]; rfl
  · rw [own] at own'; cases own'
    rw [trimmed]
    have clean : (s.visitZone p q).VenueClean := sound.venueClean.congr channels heads
    have becomes := State.keepChans_stationBecomes clean at_ follows ((s.visitZone p q).permitted st)
    have trim : (s.visitZone p q).trim i = (s.visitZone p q).keepChans i ((s.visitZone p q).permitted st) := by
      simp only [State.trim, at_]
    rw [← trim] at becomes
    have extra : ¬ st.chans &&& ~~~ (s.visitZone p q).permitted st = 0 := by
      simpa [State.overSubscribed, at_] using crowded
    have tally : (((s.visitZone p q).trim i).recomputeBoth i).rezone = (s.visitZone p q).rezone :=
      State.rezone_of_mapView (((State.Keeps.refl _).trim i).recomputeBoth i).mapView
    refine ⟨becomes.congr stations.symm holds.symm heads.symm rfl rfl rfl rfl, ?_, fun fits => absurd fits extra⟩
    rw [if_neg extra, tally, State.visitZone_rezone]

/-- Settles O50: the visit brings the record, its zones and its station up to date, and moves the cursor on. -/
theorem rezoneVisitBringsARecordUpToDate : Obligations.RezoneVisitBringsARecordUpToDate := by
  refine ⟨fun s quiet off => ?_, fun s subject sound running below named => ?_⟩
  · show execRezoneVisit s = _
    unfold execRezoneVisit
    rw [off]
    exact State.done_of_held_nil quiet
  have visited := State.visitPass_visitedAt sound.binding s.rezone.cursor
  obtain ⟨ns, airtime, silent, linkOut, told⟩ := State.visit_inBowl sound.link.2.2 named visited
  obtain ⟨a, b, -, -, tally⟩ := visited.tallied
  obtain ⟨stationView, passes, zones, -⟩ := (s.visitPass s.rezone.cursor).advanceCursor_bowl
  have subject' : (s.visitPass s.rezone.cursor).rezone.subject = some subject := by rw [tally]; exact named
  obtain ⟨beside, heads, -⟩ := State.advanceCursor_told _ subject'
  have rezone := (s.visitPass s.rezone.cursor).advanceCursor_rezone
  simp only [State.stationView, Prod.mk.injEq] at stationView
  obtain ⟨stations, holds⟩ := stationView
  have channels : (s.visitPass s.rezone.cursor).advanceCursor.channels = (s.visitPass s.rezone.cursor).channels := by
    simp only [State.besideVisit, State.playView, Prod.mk.injEq] at beside
    exact beside.2.2.2.1.1
  have served : exec .rezoneVisit s = .next (s.visitPass s.rezone.cursor).advanceCursor.flush := by
    show execRezoneVisit s = _
    unfold execRezoneVisit
    rw [if_pos running]; rfl
  generalize hw : (s.visitPass s.rezone.cursor).advanceCursor = w at *
  set u := s.visitPass s.rezone.cursor with hu
  set t := w.flush with ht
  have t_rezone : t.rezone = w.rezone := by rw [ht, State.flush_rezone]
  have t_changed : t.rezone.changed = u.rezone.changed := by rw [t_rezone, rezone]
  have t_trimmed : t.rezone.trimmed = u.rezone.trimmed := by rw [t_rezone, rezone]
  have t_passes : t.passes = u.passes := by rw [ht, State.flush_passes, passes]
  have t_zones : t.zones = u.zones := by rw [ht, State.flush_zones, zones]
  have t_stations : t.stations = u.stations := by rw [ht, State.flush_stations, stations]
  have t_holds : t.holds = u.holds := by rw [ht, State.flush_holds, holds]
  have t_heads : t.heads = u.heads := by rw [ht, State.flush_heads, heads]
  have t_channels : t.channels = u.channels := by
    rw [← channels, ht, State.flush_eq]
  refine ⟨t, ns, served, ?_, ?_, airtime, linkOut, fun vacant => ?_, fun q held => ?_⟩
  · rw [t_changed, t_trimmed, t_rezone, rezone, tally]
    by_cases last : s.rezone.cursor + 1 < 8192
    · simp only [last, if_true, decide_true, running]
    · simp only [last, if_false, decide_false]
  · rw [t_changed, t_trimmed]; exact told
  · have same : u = s := State.visitPass_of_vacant vacant
    rw [t_passes, t_zones, t_heads, t_changed, t_trimmed, State.stationView, t_stations, t_holds, same]
    exact ⟨rfl, rfl, rfl, rfl, silent vacant, rfl, rfl⟩
  · intro z differs weight
    have shape : u = (s.visitZone s.rezone.cursor q).visitStation q := State.visitPass_of_held held
    obtain ⟨passes', zones', changed'⟩ := (s.visitZone s.rezone.cursor q).visitStation_records q
    rw [← shape] at passes' zones' changed'
    have pass : ∀ k, t.pass k = (s.visitZone s.rezone.cursor q).pass k := fun k => by
      rw [State.pass, t_passes, passes']; rfl
    refine ⟨(pass _).trans (State.visitZone_pass held), fun k ne => (pass k).trans ?_, ?_, fun k => ?_, fun unbound => ?_,
      fun i st own e => ?_⟩
    · rw [State.pass, State.visitZone_passes]
      split
      · rfl
      · exact Table.get_put_other _ _ ne
    · rw [t_changed, changed', State.visitZone_rezone]
      by_cases same : q.cached = z
      · simp only [differs, same, z]; simp
      · have off : decide (q.cached ≠ z) = true := decide_eq_true same
        simp only [differs, off, if_true]
        rw [if_neg same]
    · have zone : t.zone k = (s.visitZone s.rezone.cursor q).zone k := by
        rw [State.zone, t_zones, zones']; rfl
      rw [zone]
      exact s.visitZone_zone s.rezone.cursor q sound.zoneLaw.census held k
    · have same : u = s.visitZone s.rezone.cursor q := shape.trans (State.visitStation_of_unbound _ unbound)
      have trimmed : (s.visitZone s.rezone.cursor q).rezone.trimmed = s.rezone.trimmed := by rw [State.visitZone_rezone]
      rw [t_heads, t_trimmed, State.stationView, t_stations, t_holds, same, trimmed, State.visitZone_eq]
      exact ⟨rfl, rfl, rfl⟩
    · have bound : st.pass = some s.rezone.cursor := by
        obtain ⟨st', at_, b⟩ := sound.binding.1 _ q i held own
        rw [e] at at_; cases at_; exact b
      intro allowed
      obtain ⟨becomes, tallied, still⟩ := State.visitPass_station sound held own e
      rw [State.visitZone_permitted held bound] at becomes tallied still
      exact ⟨becomes.congr rfl rfl rfl t_stations t_holds t_heads t_channels, t_trimmed.trans tallied,
        fun fits => t_heads.trans (still fits)⟩

end Sys2Proof.Machine

/-!
PROOF LAYER. A station that joins a head: what its reservation adds to the head's, and its reservation set toward its tier value; the
return and the direct move of ASSOC-REQ (R25, R26, R51, R52).
-/
namespace Sys2Proof.Machine

/-! ## The reservations at a head -/

/-- A record written moves a sum by what it adds and what the record there before added. -/
theorem Table.sum_put {α : Type} {t : Table α} (w : Table.wf t) (i : Nat) (x : α) (f : α → Nat) :
    ((Table.put t i x).map fun p => f p.2).sum + ((Table.get t i).map f).getD 0 = (t.map fun p => f p.2).sum + f x := by
  induction t with
  | nil => simp [Table.put, Table.get]
  | cons a rest ih =>
    obtain ⟨j, y⟩ := a
    have tail : Table.wf rest := (List.pairwise_cons.1 w).2
    have below := (List.pairwise_cons.1 w).1
    simp only [Table.put, Table.get]
    split
    · next lt =>
      have vacant : Table.get rest i = none := by
        cases e : Table.get rest i with
        | none => rfl
        | some z =>
          have := below i (List.mem_map_of_mem (Table.get_eq_some_mem e))
          omega
      rw [if_neg (by omega), vacant]
      simp only [List.map_cons, List.sum_cons, Option.map_none, Option.getD_none]
      omega
    · split
      · next eq =>
        rw [if_pos eq.symm]
        simp only [List.map_cons, List.sum_cons, Option.map_some, Option.getD_some]
        omega
      · next ne =>
        rw [if_neg (fun e => ne e.symm)]
        have := ih tail
        simp only [List.map_cons, List.sum_cons]
        omega

/-- What a station's reservation adds at a head (R45). -/
def Station.resAt (h : HeadId) (st : Station) : Nat := if st.current = some h then st.res else 0

theorem State.resSum_parties (s : State) (h : HeadId) : resSum (s.parties h) =
    (s.stations.map fun p => p.2.resAt h).sum + ((s.holdsAt h).map Hold.res).sum := by
  have members : ∀ l : Table Station, (((l.filter fun p => p.2.current == some h).map
      fun p => (⟨p.2.res, p.2.chans, p.2.rate⟩ : Party)).map Party.res).sum = (l.map fun p => p.2.resAt h).sum := by
    intro l
    induction l with
    | nil => rfl
    | cons p l ih =>
      by_cases own : p.2.current = some h
      · simp only [List.filter_cons, own, beq_self_eq_true, if_true, List.map_cons, List.sum_cons, ih, Station.resAt]
      · simp only [List.filter_cons, beq_eq_false_iff_ne.2 own, Bool.false_eq_true, if_false, List.map_cons, List.sum_cons, ih,
          Station.resAt, own, Nat.zero_add]
  simp only [resSum, State.parties, List.map_append, List.sum_append]
  rw [members, List.map_map]
  rfl

/-- The reservations at a head after a station's record is written. -/
theorem State.resSum_setStation {s : State} (w : Table.wf s.stations) {i : Nat} {st : Station} (e : s.station i = some st) (x : Station)
    (h : HeadId) : resSum ((s.setStation i x).parties h) + st.resAt h = resSum (s.parties h) + x.resAt h := by
  have total := Table.sum_put w i x (Station.resAt h)
  have old : ((Table.get s.stations i).map (Station.resAt h)).getD 0 = st.resAt h := by
    rw [show Table.get s.stations i = some st from e]; rfl
  rw [State.resSum_parties, State.resSum_parties]
  have holds : (s.setStation i x).holdsAt h = s.holdsAt h := rfl
  have stations : (s.setStation i x).stations = Table.put s.stations i x := rfl
  rw [holds, stations]
  omega

/-! ## A reservation set toward its goal -/

/-- A member's reservation set toward its tier value leaves every other record alone. -/
theorem State.setReservation_station {s : State} {i : Nat} {st : Station} {h : HeadId} (e : s.station i = some st)
    (cur : st.current = some h) (j : Nat) : (s.setReservation i).station j =
      if j = i then some (s.towards h st (s.tierValue st)) else s.station j := by
  simp only [State.setReservation, e, cur]
  exact s.station_setStation i j _

theorem State.settle_stations (s : State) (i : Nat) : (s.settle i).stations = (s.setReservation i).stations := by
  unfold State.settle
  dsimp only
  split
  · rfl
  · unfold State.recomputeOf
    split
    · rfl
    · exact State.recompute_stations _ _

theorem State.setReservation_holds (s : State) (i : Nat) : (s.setReservation i).holds = s.holds := by
  unfold State.setReservation
  repeat' split
  all_goals rfl

theorem State.settle_holds (s : State) (i : Nat) : (s.settle i).holds = s.holds := by
  unfold State.settle
  dsimp only
  split
  · exact s.setReservation_holds i
  · refine Eq.trans ?_ (s.setReservation_holds i)
    unfold State.recomputeOf
    split
    · rfl
    · exact State.recompute_holds _ _

/-! ## The return of a LAPSED station -/

/-- A LAPSED record's return at the unbound reservation (R25). -/
def Station.back (st : Station) (h : HeadId) (rssi : Int) (unbound now : Nat) : Station :=
  { st.arrive h rssi now with state := st.standing, res := unbound, lapse := none }

/-- The state a return leaves but for its answer: the head joined, then, with a bound pass, the reservation set toward its tier value
(R25). -/
def State.returned (s : State) (h : HeadId) (i : Nat) (st : Station) (rssi : Int) : State :=
  let v := (s.setStation i (st.back h rssi s.unbound s.nowMs)).recompute h
  if st.pass.isSome then v.settle i else v

theorem State.returnStation_of_room {s : State} {h : HeadId} {i : Nat} {st : Station} (room : s.crowd h < 64)
    (fits : resSum (s.parties h) + s.unbound ≤ (s.head h).cap) (rssi : Int) :
    s.returnStation h i st rssi = (s.returned h i st rssi).send h (.accept st.addr i) := by
  simp only [State.returnStation, if_neg (Nat.not_le.2 room), State.admitsMember, decide_eq_true fits, if_true]
  rfl

theorem State.returnStation_of_poor {s : State} {h : HeadId} (room : s.crowd h < 64)
    (poor : (s.head h).cap < resSum (s.parties h) + s.unbound) (i : Nat) (st : Station) (rssi : Int) :
    s.returnStation h i st rssi = s.declineAssoc h st.addr .airtime := by
  simp only [State.returnStation, if_neg (Nat.not_le.2 room), State.admitsMember, decide_eq_false (Nat.not_le.2 poor),
    Bool.false_eq_true, if_false]

theorem State.towards_eq (s : State) (h : HeadId) (st : Station) (goal : Nat) : s.towards h st goal =
    if goal ≤ st.res then { st with res := goal, capped := false }
    else if resSum (s.parties h) - st.res + goal ≤ (s.head h).cap then { st with res := goal, capped := false }
    else { st with capped := true } := by
  unfold State.towards
  by_cases le : goal ≤ st.res
  · rw [if_neg (Nat.not_lt.2 le), if_pos le]
  · rw [if_pos (Nat.lt_of_not_le le), if_neg le]

/-- The returned station's reservation set toward its tier value, its own reservation counted at the head already (R51, R52). -/
theorem State.towards_of_back {s : State} (w : Table.wf s.stations) {h : HeadId} {i : Nat} {st : Station} (e : s.station i = some st)
    (away : st.current ≠ some h) (rssi : Int) :
    let back := st.back h rssi s.unbound s.nowMs
    let v := (s.setStation i back).recompute h
    let goal := s.tierValue st
    v.towards h back (v.tierValue back) = if goal ≤ s.unbound then { back with res := goal, capped := false }
      else if resSum (s.parties h) + goal ≤ (s.head h).cap then { back with res := goal, capped := false }
      else { back with capped := true } := by
  intro back v goal
  have total := State.resSum_setStation w e back h
  have here : back.resAt h = s.unbound := by simp only [Station.resAt, back, Station.back, Station.arrive, if_true]
  have there : st.resAt h = 0 := by simp only [Station.resAt, away, if_false]
  have parties : v.parties h = (s.setStation i back).parties h := State.recompute_parties _ h h
  have cap : (v.head h).cap = (s.head h).cap :=
    (congrArg Head.cap (State.sameButAccount_of_headsView (State.recompute_headsView (s.setStation i back) h) h)).symm
  have value : v.tierValue back = goal :=
    State.tierValue_of_mapView (((State.Keeps.refl (s.setStation i back)).recompute h).mapView) (st := st) rfl
  have res : back.res = s.unbound := rfl
  rw [State.towards_eq, parties, cap, value, res]
  have sum : resSum ((s.setStation i back).parties h) - s.unbound + goal = resSum (s.parties h) + goal := by omega
  rw [sum]

section
variable {s : State} {h : HeadId} {i : Nat} {st : Station} (rssi : Int)

theorem State.station_joined (j : Nat) : ((s.setStation i (st.back h rssi s.unbound s.nowMs)).recompute h).station j =
    if j = i then some (st.back h rssi s.unbound s.nowMs) else s.station j := by
  rw [State.station, State.recompute_stations]; exact s.station_setStation i j _

theorem State.returned_work : s.AirtimeWork (s.returned h i st rssi) (· = h) := by
  have joined : s.AirtimeWork ((s.setStation i (st.back h rssi s.unbound s.nowMs)).recompute h) (· = h) :=
    (State.AirtimeWork.records (s := s) (t := s.setStation i _) rfl rfl rfl rfl).recompute rfl
  unfold State.returned
  dsimp only
  split
  · refine joined.settle fun k at_ => ?_
    rw [State.headOf, State.station_joined, if_pos rfl] at at_
    exact (Option.some.inj at_).symm
  · exact joined

theorem State.returned_holds : (s.returned h i st rssi).holds = s.holds := by
  have joined : ((s.setStation i (st.back h rssi s.unbound s.nowMs)).recompute h).holds = s.holds := State.recompute_holds _ _
  unfold State.returned
  dsimp only
  split
  · exact (State.settle_holds _ i).trans joined
  · exact joined

theorem State.returned_station_of_ne {j : Nat} (ne : j ≠ i) : (s.returned h i st rssi).station j = s.station j := by
  unfold State.returned
  dsimp only
  split
  · rw [State.station, State.settle_stations]
    refine (State.setReservation_station ((State.station_joined rssi i).trans (if_pos rfl)) rfl j).trans ?_
    rw [if_neg ne, State.station_joined, if_neg ne]
  · rw [State.station_joined, if_neg ne]

theorem State.returned_station_self (w : Table.wf s.stations) (e : s.station i = some st) (away : st.current ≠ some h) :
    let back := st.back h rssi s.unbound s.nowMs
    let goal := s.tierValue st
    (s.returned h i st rssi).station i = some (if st.pass = none then back
      else if goal ≤ s.unbound then { back with res := goal, capped := false }
      else if resSum (s.parties h) + goal ≤ (s.head h).cap then { back with res := goal, capped := false }
      else { back with capped := true }) := by
  intro back goal
  have joined := (State.station_joined (s := s) (h := h) (i := i) (st := st) rssi i).trans (if_pos rfl)
  unfold State.returned
  dsimp only
  by_cases bound : st.pass = none
  · rw [if_pos bound, if_neg (by rw [bound]; exact Bool.false_ne_true)]
    exact joined
  · rw [if_neg bound, if_pos (Option.isSome_iff_ne_none.2 bound), State.station, State.settle_stations]
    refine (State.setReservation_station joined rfl i).trans ?_
    rw [if_pos rfl, State.towards_of_back w e away]

end

/-! ## A direct move -/

/-- The state with other frames sent. -/
def State.sent (s : State) (l : List (HeadId × LinkFrame)) : State := { s with linkOut := l }

theorem State.send_eq_sent {s : State} {h : HeadId} (r : (s.head h).reachable = true) (f : LinkFrame) :
    s.send h f = s.sent (s.linkOut ++ [(h, f)]) := State.send_of_reachable r f

theorem State.recompute_sent (s : State) (l : List (HeadId × LinkFrame)) (h : HeadId) :
    (s.sent l).recompute h = (s.recompute h).sent l := by
  unfold State.recompute
  show (match (s.head h).account with | none => _ | some a => _) = _
  cases (s.head h).account <;> rfl

theorem State.drainCheck_sent (s : State) (l : List (HeadId × LinkFrame)) (h : HeadId) :
    (s.sent l).drainCheck h = (s.drainCheck h).sent l := by
  unfold State.drainCheck
  show (if (s.head h).state = .draining ∧ s.crowd h = 0 then _ else _) = _
  split <;> rfl

/-- The work of a direct move, its two frames put first (R26). -/
theorem State.directMove_of_room {s : State} {g h : HeadId} {st : Station} (room : s.crowd h < 64)
    (fits : resSum (s.parties h) + st.res ≤ (s.head h).cap) (rg : (s.head g).reachable = true) (rh : (s.head h).reachable = true)
    (i : Nat) (rssi : Int) :
    s.directMove g h i st rssi = ((((s.setStation i (st.arrive h rssi s.nowMs)).recompute g).recompute h).drainCheck g).sent
      (s.linkOut ++ [(g, .disassoc st.addr), (h, .accept st.addr i)]) := by
  have first : (s.setStation i (st.arrive h rssi s.nowMs)).send g (.disassoc st.addr)
    = (s.setStation i (st.arrive h rssi s.nowMs)).sent (s.linkOut ++ [(g, .disassoc st.addr)]) :=
    State.send_eq_sent (s := s.setStation i (st.arrive h rssi s.nowMs)) rg _
  have second : ((s.setStation i (st.arrive h rssi s.nowMs)).sent (s.linkOut ++ [(g, .disassoc st.addr)])).send h (.accept st.addr i)
    = (s.setStation i (st.arrive h rssi s.nowMs)).sent ((s.linkOut ++ [(g, .disassoc st.addr)]) ++ [(h, .accept st.addr i)]) :=
    State.send_eq_sent (s := (s.setStation i (st.arrive h rssi s.nowMs)).sent (s.linkOut ++ [(g, .disassoc st.addr)])) rh _
  simp only [State.directMove, if_neg (Nat.not_le.2 room), State.admitsMember, decide_eq_true fits, if_true]
  rw [first, second, State.recompute_sent, State.recompute_sent, State.drainCheck_sent, List.append_assoc]
  rfl

theorem State.directMove_of_poor {s : State} {h : HeadId} {st : Station} (room : s.crowd h < 64)
    (poor : (s.head h).cap < resSum (s.parties h) + st.res) (g : HeadId) (i : Nat) (rssi : Int) :
    s.directMove g h i st rssi = s.declineAssoc h st.addr .airtime := by
  simp only [State.directMove, if_neg (Nat.not_le.2 room), State.admitsMember, decide_eq_false (Nat.not_le.2 poor),
    Bool.false_eq_true, if_false]

/-- A drain check of a head that is not DRAINING does nothing. -/
theorem State.drainCheck_of_state {s : State} {h : HeadId} (n : (s.head h).state ≠ .draining) : s.drainCheck h = s :=
  if_neg fun c => n c.1

/-- A station that moves away leaves the other members of its head. -/
theorem State.members_setStation_away {s : State} (w : Table.wf s.stations) {g : HeadId} {i : Nat} {x : Station}
    (away : x.current ≠ some g) {j : Nat} : j ∈ (s.setStation i x).members g ↔ j ∈ s.members g ∧ j ≠ i := by
  rw [State.mem_members (Table.wf_put w i x), State.mem_members w]
  constructor
  · rintro ⟨st, e, cur⟩
    rw [State.station_setStation] at e
    split at e
    · exact absurd (Option.some.inj e ▸ cur) away
    · next ne => exact ⟨⟨st, e, cur⟩, ne⟩
  · rintro ⟨⟨st, e, cur⟩, ne⟩
    exact ⟨st, by rw [State.station_setStation, if_neg ne]; exact e, cur⟩

theorem State.flush_station (s : State) (j : Nat) : s.flush.station j = s.station j := by rw [State.station, State.flush_stations]; rfl

theorem State.flush_head (s : State) (g : HeadId) : s.flush.head g = s.head g := State.head_congr s.flush_heads g

/-- The work of a direct move on the records and heads: `u` before the old head's drain check, `w` after it (R26). -/
structure State.MovedOver (s w : State) (g h : HeadId) (i : Nat) (x : Station) : Prop where
  stations : w.stations = Table.put s.stations i x
  holds    : w.holds = s.holds
  aside    : w.aside = s.aside
  heads    : ∀ k, k ≠ g → k ≠ h → w.head k = s.head k
  new      : SameButAccount (s.head h) (w.head h)
  stays    : (s.head g).state = .on → SameButAccount (s.head g) (w.head g)
  drains   : (s.head g).state = .draining → s.members g = [i] → s.holdsAt g = [] →
    w.head g = { s.head g with state := .dark, account := none }
  produced : ∃ ns, s.Produced w ns

theorem State.movedOver {s : State} (wf : Table.wf s.stations) {g h : HeadId} (ne : g ≠ h) (i : Nat) {x : Station}
    (here : x.current = some h) :
    s.MovedOver ((((s.setStation i x).recompute g).recompute h).drainCheck g) g h i x := by
  generalize eq : ((s.setStation i x).recompute g).recompute h = u
  have start : s.AirtimeWork (s.setStation i x) (fun k => k = g ∨ k = h) := .records rfl rfl rfl rfl
  have work : s.AirtimeWork u (fun k => k = g ∨ k = h) := eq ▸ (start.recompute (.inl rfl)).recompute (.inr rfl)
  have stations : u.stations = Table.put s.stations i x := by
    rw [← eq, State.recompute_stations, State.recompute_stations]; rfl
  have holds : u.holds = s.holds := by rw [← eq, State.recompute_holds, State.recompute_holds]; rfl
  have same := fun k => State.sameButAccount_of_headsView work.view k
  refine ⟨(State.drainCheck_stations u g).trans stations, (State.drainCheck_holds u g).trans holds,
    (State.drainCheck_aside u g).trans work.aside, fun k n m => ?_, ?_, fun on => ?_, fun draining alone free => ?_, ?_⟩
  · rw [State.drainCheck_head_of_ne _ n]
    exact work.heads k fun c => c.elim n m
  · rw [State.drainCheck_head_of_ne _ ne.symm]; exact same h
  · rw [State.drainCheck_of_state]
    · exact same g
    · rw [(same g).state.symm, on]; decide
  · have empty : u.crowd g = 0 := by
      refine State.crowd_eq_zero.2 ⟨List.eq_nil_iff_forall_not_mem.2 fun j mem => ?_, ?_⟩
      · have away : x.current ≠ some g := by rw [here]; exact fun c => ne (Option.some.inj c).symm
        have mem : j ∈ (s.setStation i x).members g := by
          rw [State.members, ← show u.stations = (s.setStation i x).stations from stations]; exact mem
        obtain ⟨old, other⟩ := (State.members_setStation_away wf away).1 mem
        rw [alone] at old
        exact other (List.mem_singleton.1 old)
      · rw [State.holdsAt, holds]; exact free
    rw [State.drainCheck_of_empty ((same g).state.symm.trans draining) empty, State.head_note, State.head_setHead_self]
    exact congrArg (fun y : Head => { y with state := .dark }) (same g).symm
  · obtain ⟨ns, told⟩ := work.produced
    exact ⟨_, told.trans (u.drainCheck_produced g) (State.enables_of_aside work.aside)⟩

/-- Settles O33: each test that fails declines; the rest join the head, at the unbound reservation and then toward the tier value, or
at the reservation in force. -/
theorem assocReqReturnsOrMovesAStation : Obligations.AssocReqReturnsOrMovesAStation := by
  intro s h addr rssi i st sound run on known e own declined crowd heard
  subst own
  obtain ⟨lapsed, -, -, serving, -⟩ := sound.moves.1 i st e
  have quiet : s.held = [] := sound.link.2.2
  have wf := sound.store.1.1
  have r : (s.head h).reachable = true := Head.reachable_of (by rw [on]; decide) (by rw [on]; decide)
  have shape := State.assocRequest_of_known (h := h) run known e rssi
  have executed : ∀ {t}, s.assocRequest h st.addr rssi = t → exec (.assocReq h st.addr rssi) s = t.done := fun eq =>
    (execAssocReq_of_reachable r st.addr rssi).trans (congrArg State.done eq)
  have answered : ∀ c, s.assocRequest h st.addr rssi = s.declineAssoc h st.addr c → declined c := fun c eq =>
    (executed eq).trans (State.send_done quiet r _)
  refine ⟨fun gone => ?_, fun g cur ne idle => ?_⟩
  · have away := lapsed.2 gone
    have returns : s.assocRequest h st.addr rssi = s.returnStation h i st rssi := by
      rw [shape, if_neg (by rw [gone]; decide), if_neg (by rw [away]; exact (Option.some_ne_none h).symm), if_pos on, away]
    refine ⟨fun full => answered _ ?_, fun room poor => answered _ ?_, fun room fits => ?_⟩
    · rw [returns]; exact if_pos full
    · rw [returns]; exact State.returnStation_of_poor room poor i st rssi
    · intro back v w goal
      have whole : s.assocRequest h st.addr rssi = w.send h (.accept st.addr i) :=
        returns.trans (State.returnStation_of_room room fits rssi)
      have work : s.AirtimeWork w (· = h) := State.returned_work rssi
      have away : st.current ≠ some h := by rw [away]; exact (Option.some_ne_none h).symm
      refine ⟨(w.send h (.accept st.addr i)).flush, executed whole, (State.flush_station _ i).trans (State.returned_station_self rssi wf e away),
        fun j n => (State.flush_station _ j).trans (State.returned_station_of_ne rssi n),
        (State.flush_holds _).trans (State.returned_holds rssi),
        (State.flush_passView _).trans (State.passView_of_aside work.aside), State.flush_heads _, fun k => ?_, ?_, ?_⟩
      · rw [State.flush_head]
        exact work.headsKept (hs := [h]) (fun k m => List.mem_singleton.2 m) k
      · rw [State.flush_linkOut, State.send_of_reachable ((State.reachable_of_view work.view h).trans r), work.linkOut]
      · exact State.inBowl_held (t := w.send h (.accept st.addr i)) quiet work.aside work.produced
  · have moves : s.assocRequest h st.addr rssi = s.directMove g h i st rssi := by
      have still : st.state ≠ .moving := by rcases idle with e | e <;> rw [e] <;> decide
      rw [shape, if_neg still, if_neg (by rw [cur]; exact fun c => ne (Option.some.inj c)), if_pos on, cur]
    refine ⟨fun full => answered _ ?_, fun room poor => answered _ ?_, fun room fits => ?_⟩
    · rw [moves]; exact if_pos full
    · rw [moves]; exact State.directMove_of_poor room poor g i rssi
    · intro w
      generalize frames : s.linkOut ++ [(g, LinkFrame.disassoc st.addr), (h, LinkFrame.accept st.addr i)] = l
      have whole : s.assocRequest h st.addr rssi = w.sent l :=
        frames ▸ moves.trans (State.directMove_of_room room fits (Head.reachable_of_serving (serving g cur)) r i rssi)
      have moved : s.MovedOver w g h i heard := State.movedOver wf ne i rfl
      clear_value w
      have station : ∀ j, (w.sent l).flush.station j = if j = i then some heard else s.station j := fun j => by
        rw [State.flush_station, State.station]
        exact (congrArg (Table.get · j) moved.stations).trans (s.station_setStation i j heard)
      have head : ∀ k, (w.sent l).flush.head k = w.head k := fun k => State.flush_head _ k
      refine ⟨(w.sent l).flush, executed whole, (station i).trans (if_pos rfl), fun j n => (station j).trans (if_neg n),
        (State.flush_holds _).trans moved.holds, (State.flush_passView _).trans (State.passView_of_aside moved.aside),
        State.flush_heads _, fun k n m => (head k).trans (moved.heads k n m), ?_, fun on => ?_, fun draining alone free => ?_,
        State.flush_linkOut _, State.inBowl_held (t := w.sent l) quiet moved.aside moved.produced⟩
      · rw [head]; exact moved.new
      · rw [head]; exact moved.stays on
      · rw [head]; exact moved.drains draining alone free

end Sys2Proof.Machine

/-!
PROOF LAYER. A station that leaves its head: what it tells and which heads it touches, its handover's end, and the statement on
DISASSOC, LOST, lapse expiry and STATION-EVICT (R27-R31, R76, R78, R82).
-/
namespace Sys2Proof.Machine

/-! ## What a departure tells -/

/-- What is told of a station's departure: the end of its handover, what the recomputes shed, and the heads that have drained (R15, R47,
R82). -/
def DepartTold (s t : State) (aborted : List Hold) (ns : List Notice) : Prop :=
  (ns.filter fun n => noticeClass n == .roam) = abortNotices aborted
    ∧ (∀ g, Notice.head g .drained .dark ∈ ns ↔ (s.head g).state = .draining ∧ (t.head g).state = .dark)
    ∧ ∀ n ∈ ns, noticeClass n = .roam ∨ noticeClass n = .airtime ∨ ∃ g, n = .head g .drained .dark

/-- Work that changes heads by recomputes and drain checks of some of them alone, and tells of that and of handovers aborted. -/
structure State.Departs (s t : State) (touched : HeadId → Prop) (aborted : List Hold) : Prop where
  heads    : ∀ g, ¬ touched g → t.head g = s.head g
  drains   : ∀ g, (t.head g).state = (s.head g).state ∨ ((s.head g).state = .draining ∧ (t.head g).state = .dark)
  enables  : t.enables = s.enables
  channels : t.channels = s.channels
  told     : ∃ ns, s.Produced t ns ∧ DepartTold s t aborted ns

section
variable {s t u : State} {touched : HeadId → Prop} {xs ys : List Hold}

theorem State.Departs.of_same (heads : t.heads = s.heads) (enables : t.enables = s.enables) (channels : t.channels = s.channels)
    (held : t.held = s.held) : s.Departs t touched [] where
  heads g _ := State.head_congr heads g
  drains g := .inl (by rw [State.head_congr heads])
  enables := enables
  channels := channels
  told := by
    refine ⟨[], .nil held, rfl, fun g => ?_, by simp⟩
    rw [State.head_congr heads]
    exact ⟨fun m => absurd m List.not_mem_nil, fun ⟨a, b⟩ => by rw [a] at b; cases b⟩

theorem State.Departs.mono (d : s.Departs t touched xs) {wider : HeadId → Prop} (sub : ∀ g, touched g → wider g) :
    s.Departs t wider xs := { d with heads := fun g n => d.heads g fun m => n (sub g m) }

/-- A head drains in the first or in the second of two pieces of work. -/
theorem State.Departs.drains_trans (d : s.Departs t touched xs) {wider : HeadId → Prop} (e : t.Departs u wider ys) (g : HeadId) :
    ((u.head g).state = (s.head g).state ∨ ((s.head g).state = .draining ∧ (u.head g).state = .dark))
      ∧ (((s.head g).state = .draining ∧ (u.head g).state = .dark) ↔
        ((s.head g).state = .draining ∧ (t.head g).state = .dark) ∨ ((t.head g).state = .draining ∧ (u.head g).state = .dark)) := by
  rcases d.drains g with a | ⟨a, b⟩
  · rw [← a]
    exact ⟨e.drains g, ⟨.inr, fun c => c.elim (fun ⟨x, y⟩ => by rw [x] at y; cases y) id⟩⟩
  · have stays : (u.head g).state = .dark := by
      rcases e.drains g with c | ⟨c, -⟩
      · exact c.trans b
      · rw [b] at c; cases c
    exact ⟨.inr ⟨a, stays⟩, ⟨fun _ => .inl ⟨a, b⟩, fun _ => ⟨a, stays⟩⟩⟩

theorem State.Departs.trans (d : s.Departs t touched xs) (e : t.Departs u touched ys) : s.Departs u touched (xs ++ ys) where
  heads g n := (e.heads g n).trans (d.heads g n)
  drains g := (d.drains_trans e g).1
  enables := e.enables.trans d.enables
  channels := e.channels.trans d.channels
  told := by
    obtain ⟨ns, p, roam, drained, kinds⟩ := d.told
    obtain ⟨ms, q, roam', drained', kinds'⟩ := e.told
    refine ⟨ns ++ ms, p.trans q d.enables, ?_, fun g => ?_, fun n mem => (List.mem_append.1 mem).elim (kinds n) (kinds' n)⟩
    · rw [List.filter_append, roam, roam', abortNotices_append]
    · rw [List.mem_append, drained, drained', (d.drains_trans e g).2]

/-- Work done after, that tells of no handover. -/
theorem State.Departs.andThen (d : s.Departs t touched xs) (e : t.Departs u touched []) : s.Departs u touched xs := by
  have both := d.trans e
  rwa [List.append_nil] at both

end

/-- A recompute of a head and its drain check. -/
theorem State.recompute_drainCheck_departs (s : State) {g : HeadId} {touched : HeadId → Prop} (m : touched g) :
    s.Departs ((s.recompute g).drainCheck g) touched [] where
  heads k n := by
    have ne : k ≠ g := fun e => n (e ▸ m)
    rw [State.drainCheck_head_of_ne _ ne, State.recompute_head_of_ne _ ne]
  drains k := by
    have same : ((s.recompute g).head k).state = (s.head k).state :=
      (SameButAccount.state (State.sameButAccount_of_headsView (s.recompute_headsView g) k)).symm
    by_cases e : k = g ∧ ((s.recompute g).head g).state = .draining ∧ (s.recompute g).crowd g = 0
    · obtain ⟨rfl, draining, empty⟩ := e
      refine .inr ⟨same.symm.trans draining, ?_⟩
      rw [State.drainCheck_of_empty draining empty, State.head_note, State.head_setHead_self]
    · left
      by_cases at_ : k = g
      · subst at_
        have idle : (s.recompute k).drainCheck k = s.recompute k := if_neg fun c => e ⟨rfl, c⟩
        rw [idle]; exact same
      · rw [State.drainCheck_head_of_ne _ at_]; exact same
  enables := State.enables_of_aside (by simp)
  channels := State.channels_of_aside (by simp)
  told := by
    obtain ⟨ns, airtime, produced⟩ := s.recompute_drainCheck_produced g
    have no_roam : ∀ n ∈ ns ++ drainNotices s ((s.recompute g).drainCheck g) g, noticeClass n ≠ .roam := fun n mem =>
      (List.mem_append.1 mem).elim (fun m => by rw [airtime n m]; exact NoticeClass.noConfusion)
        fun m => by rw [(mem_drainNotices.1 m).1]; exact NoticeClass.noConfusion
    refine ⟨_, produced, List.filter_eq_nil_iff.2 fun n mem => by simpa using no_roam n mem, fun k => ?_, fun n mem => ?_⟩
    · have other : Notice.head k .drained .dark ∉ ns := fun m => by cases airtime _ m
      rw [List.mem_append, or_iff_right other, mem_drainNotices]
      constructor
      · rintro ⟨e, c⟩
        cases e; exact c
      · rintro ⟨draining, dark⟩
        have e : k = g := by
          by_contra ne
          rw [State.drainCheck_head_of_ne _ ne, State.recompute_head_of_ne _ ne, draining] at dark
          cases dark
        subst e
        exact ⟨rfl, draining, dark⟩
    · exact (List.mem_append.1 mem).elim (fun m => .inr (.inl (airtime n m))) fun m => .inr (.inr ⟨g, (mem_drainNotices.1 m).1⟩)

/-- The end of a handover told to the host (R82). -/
theorem State.noteHostEnd_departs (s : State) (x : Hold) {touched : HeadId → Prop} :
    s.Departs (s.noteHostEnd x .aborted) touched [x] where
  heads g _ := State.head_congr (by simp) g
  drains g := .inl (by rw [State.head_congr (s.noteHostEnd_heads x .aborted)])
  enables := State.enables_of_aside (by simp)
  channels := State.channels_of_aside (by simp)
  told := by
    refine ⟨_, s.noteHostEnd_produced x, filter_abortNotices _, fun g => ?_, fun n m => .inl (noticeClass_of_mem_abortNotices m)⟩
    rw [State.head_congr (s.noteHostEnd_heads x .aborted) g]
    exact iff_of_false (fun m => by cases noticeClass_of_mem_abortNotices m) fun ⟨a, b⟩ => by rw [a] at b; cases b

/-! ## A station's hold -/

theorem filter_key_eq_singleton {α β : Type} [DecidableEq β] {f : α → β} {l : List α} (nodup : (l.map f).Nodup) {x : α} (mem : x ∈ l) :
    l.filter (fun y => f y == f x) = [x] := by
  induction l with
  | nil => cases mem
  | cons a l ih =>
    obtain ⟨new, rest⟩ := List.nodup_cons.1 nodup
    rcases List.mem_cons.1 mem with rfl | mem
    · have none_ : l.filter (fun y => f y == f x) = [] :=
        List.filter_eq_nil_iff.2 fun y hy same => new (by rw [← beq_iff_eq.1 same]; exact List.mem_map_of_mem hy)
      rw [List.filter_cons, if_pos (beq_self_eq_true _), none_]
    · have ne : ¬ (f a == f x) = true := fun same => new (by rw [beq_iff_eq.1 same]; exact List.mem_map_of_mem mem)
      rw [List.filter_cons, if_neg ne, ih rest mem]

/-- A station stands with no handover and no hold, or MOVING with one hold, from its head to its target (R61). -/
theorem State.MovesInv.hold_cases {s : State} (inv : s.MovesInv) {i : Nat} {st : Station} (e : s.station i = some st) :
    (st.target = none ∧ s.holdOf i = none ∧ ∀ y ∈ s.holds, y.station ≠ i)
      ∨ ∃ x ∈ s.holds, s.holdOf i = some x ∧ x.station = i ∧ st.target = some x.target ∧ st.current = some x.source
        ∧ x.source ≠ x.target ∧ (s.head x.target).serving = true ∧ s.holds.filter (fun y => y.station == i) = [x] := by
  obtain ⟨stations, holds, nodup, moving, -⟩ := inv
  obtain ⟨-, targeted, -⟩ := stations i st e
  by_cases free : ∀ y ∈ s.holds, y.station ≠ i
  · refine .inl ⟨?_, List.find?_eq_none.2 fun y mem => by simpa using free y mem, free⟩
    refine Option.not_isSome_iff_eq_none.1 fun some_ => ?_
    obtain ⟨x, mem, own⟩ := moving i st e (targeted.1 some_)
    exact free x mem own
  · push Not at free
    obtain ⟨x, mem, rfl⟩ := free
    obtain ⟨ne, serving, st', e', -, cur, target, -⟩ := holds x mem
    cases e.symm.trans e'
    have only : ∀ y ∈ s.holds, y.station = x.station → y = x := fun y hy own => List.inj_on_of_nodup_map nodup hy mem own
    refine .inr ⟨x, mem, ?_, rfl, target, cur, ne, serving, ?_⟩
    · cases found : s.holdOf x.station with
      | none => exact absurd (List.find?_eq_none.1 found x mem) (by simp)
      | some y => rw [only y (List.mem_of_find?_eq_some found) (by simpa using List.find?_some found)]
    · exact filter_key_eq_singleton nodup mem

/-! ## The end of the handover -/

/-- The handover of a station that departs, if it has one, has ended, some frames being sent (R76, R78). -/
structure State.HandoverEnded (s t : State) (i : Nat) (st : Station) (frames : List (HeadId × LinkFrame)) (told : List Hold) : Prop where
  work    : s.Departs t (fun g => st.target = some g) told
  aside   : t.aside = s.aside
  others  : ∀ j, j ≠ i → t.station j = s.station j
  holds   : t.holds = s.holds.filter fun y => y.station != i
  linkOut : t.linkOut = s.linkOut ++ frames
  left    : ∀ g, st.target = some g → s.HeadLeft t g
  clean   : t.VenueClean

/-- What CANCEL tells the target of a station's handover. -/
def Station.cancels (st : Station) (i : Nat) : List (HeadId × LinkFrame) := st.target.toList.map fun g => (g, .cancel st.addr i)

theorem State.VenueClean.drainCheck {s : State} (clean : s.VenueClean) (h : HeadId) : (s.drainCheck h).VenueClean := by
  intro g a e
  have channels : (s.drainCheck h).channels = s.channels := State.channels_of_aside (by simp)
  by_cases fires : (s.head h).state = .draining ∧ s.crowd h = 0
  · rw [State.drainCheck_of_empty fires.1 fires.2, State.head_note] at e
    by_cases at_ : g = h
    · subst at_
      rw [State.head_setHead_self] at e; cases e
    · rw [State.head_setHead_of_ne _ _ at_] at e
      exact (clean g a e).congr channels
  · have idle : s.drainCheck h = s := if_neg fires
    rw [idle] at e ⊢
    exact clean g a e

section
variable {s t : State} {i : Nat} {st : Station} {frames : List (HeadId × LinkFrame)}

/-- A station with no hold has no handover to end. -/
theorem State.HandoverEnded.none (clean : s.VenueClean) (target : st.target = none) (free : ∀ y ∈ s.holds, y.station ≠ i) :
    s.HandoverEnded s i st [] [] where
  work := .of_same rfl rfl rfl rfl
  aside := rfl
  others _ _ := rfl
  holds := (List.filter_eq_self.2 fun y mem => by simpa using free y mem).symm
  linkOut := (List.append_nil _).symm
  left g e := by rw [target] at e; cases e
  clean := clean

/-- The release of a hold, some frames sent before it (R61). -/
theorem State.releaseHold_ended (clean : s.VenueClean) {x : Hold} (target : st.target = some x.target)
    (frames : List (HeadId × LinkFrame)) :
    s.HandoverEnded ((s.sent (s.linkOut ++ frames)).releaseHold x) x.station st frames [] := by
  generalize eq : (s.sent (s.linkOut ++ frames)).dropHold x.station = u
  have shape : (s.sent (s.linkOut ++ frames)).releaseHold x = (u.recompute x.target).drainCheck x.target := by rw [← eq]; rfl
  have heads : u.heads = s.heads := by rw [← eq]; rfl
  have channels : u.channels = s.channels := by rw [← eq]; rfl
  have uclean : u.VenueClean := clean.congr channels heads
  have dropped : s.Departs u (fun g => st.target = some g) [] := .of_same heads (by rw [← eq]; rfl) channels (by rw [← eq]; rfl)
  rw [shape]
  refine ⟨dropped.andThen (u.recompute_drainCheck_departs target), ?_, fun j _ => ?_, ?_, ?_, fun g e => ?_,
    (uclean.recompute _).drainCheck _⟩
  · rw [State.drainCheck_aside, State.recompute_aside, ← eq]; rfl
  · rw [State.station, State.drainCheck_stations, State.recompute_stations, ← eq]; rfl
  · rw [State.drainCheck_holds, State.recompute_holds, ← eq]; rfl
  · rw [State.drainCheck_linkOut, State.recompute_linkOut, ← eq]; rfl
  · cases target.symm.trans e
    exact (State.recompute_drainCheck_headLeft fun a acc => uclean _ a acc).of_same (by rw [State.head_congr heads]; rfl)

/-- The end of the handover is told to the host (R82). -/
theorem State.HandoverEnded.note (h : s.HandoverEnded t i st frames []) (x : Hold) :
    s.HandoverEnded (t.noteHostEnd x .aborted) i st frames [x] where
  work := h.work.trans (t.noteHostEnd_departs x)
  aside := (State.noteHostEnd_aside t x _).trans h.aside
  others j n := by rw [State.station, State.noteHostEnd_stations]; exact h.others j n
  holds := (State.noteHostEnd_holds t x _).trans h.holds
  linkOut := (State.noteHostEnd_linkOut t x _).trans h.linkOut
  left g e := (h.left g e).congr (by simp [State.members]) (by simp [State.holdsAt]) (State.head_congr (by simp) g)
    (by simp [State.parties, State.holdsAt]) (State.channels_of_aside (by simp))
  clean := h.clean.congr (State.channels_of_aside (by simp)) (by simp)

/-- A record written that is no member of the target leaves what the end of the handover has done. -/
theorem State.HandoverEnded.lapse (h : s.HandoverEnded t i st frames []) (wf : Table.wf t.stations) {k : HeadId}
    (kept : t.station i = some st) (cur : st.current = some k) (away : st.target ≠ some k) :
    s.HandoverEnded (t.lapse i) i st frames [] where
  work := h.work.andThen (.of_same rfl rfl rfl rfl)
  aside := h.aside
  others j n := by
    rw [← h.others j n]
    exact (State.station_updateStation t i j _).trans (if_neg n)
  holds := h.holds
  linkOut := h.linkOut
  left g e := by
    have elsewhere : ∀ j x, t.station j = some x → ((if j = i then x.lapsed t.lapseDue else x).current = some g ↔ x.current = some g)
        ∧ (x.current = some g → (if j = i then x.lapsed t.lapseDue else x).res = x.res
          ∧ (if j = i then x.lapsed t.lapseDue else x).chans = x.chans ∧ (if j = i then x.lapsed t.lapseDue else x).rate = x.rate) := by
      intro j x at_
      split
      · next same =>
        subst same
        cases kept.symm.trans at_
        exact Station.lapsed_elsewhere cur (fun same => away (same ▸ e)) _
      · exact ⟨Iff.rfl, fun _ => ⟨rfl, rfl, rfl⟩⟩
    have owed := State.parties_of_change (s := t) (t := t.lapse i) (g := g) wf (t.lapse_stations i) rfl elsewhere
    exact (h.left g e).congr owed.1 rfl rfl owed.2 rfl
  clean := h.clean.congr rfl rfl

end

section
variable {s : State} {i : Nat} {st : Station}

theorem State.cancel_eq_sent {x : Hold} (e : s.station x.station = some st) (r : (s.head x.target).reachable = true) :
    s.cancel x = s.sent (s.linkOut ++ [(x.target, .cancel st.addr x.station)]) := State.cancel_eq e r

theorem filter_holds_nil {l : List Hold} (free : ∀ y ∈ l, y.station ≠ i) : l.filter (fun y => y.station == i) = [] :=
  List.filter_eq_nil_iff.2 fun y mem => by simpa using free y mem

/-- A departure that ends a handover, its target told or not (R78). -/
theorem State.endHandover_ended (inv : s.MovesInv) (clean : s.VenueClean) (e : s.station i = some st) (tell : Bool) :
    s.HandoverEnded (s.endHandover i tell) i st (if tell then st.cancels i else []) (s.holds.filter fun y => y.station == i)
      ∧ (s.endHandover i tell).stations = s.stations := by
  rcases inv.hold_cases e with ⟨target, none_, free⟩ | ⟨x, mem, some_, rfl, target, -, -, serving, only⟩
  · have idle : s.endHandover i tell = s := by unfold State.endHandover; rw [none_]
    have quiet : (if tell then st.cancels i else []) = [] := by unfold Station.cancels; rw [target]; split <;> rfl
    rw [idle, quiet, filter_holds_nil free]
    exact ⟨.none clean target free, rfl⟩
  · have sent : (if tell then s.cancel x else s) = s.sent (s.linkOut ++ if tell then st.cancels x.station else []) := by
      split
      · rw [State.cancel_eq_sent e (Head.reachable_of_serving serving), Station.cancels, target]; rfl
      · rw [List.append_nil]; rfl
    have shape : s.endHandover x.station tell
        = ((s.sent (s.linkOut ++ if tell then st.cancels x.station else [])).releaseHold x).noteHostEnd x .aborted := by
      unfold State.endHandover
      rw [some_, ← sent]; rfl
    rw [shape, only]
    refine ⟨(State.releaseHold_ended clean target _).note x, ?_⟩
    rw [State.noteHostEnd_stations, State.releaseHold, State.drainCheck_stations, State.recompute_stations]; rfl

/-- A member lost: its handover ended by the loss of its source (R28, R76). -/
theorem State.loseMember_ended (inv : s.MovesInv) (wf : Table.wf s.stations) (clean : s.VenueClean) (e : s.station i = some st)
    {h : HeadId} (cur : st.current = some h) :
    s.HandoverEnded (s.loseMember i) i st (st.cancels i) (s.holds.filter fun y => y.station == i)
      ∧ (s.loseMember i).station i = some (st.lapsed s.lapseDue) := by
  have written : ∀ u : State, u.aside = s.aside → u.station i = some st → (u.lapse i).station i = some (st.lapsed s.lapseDue) := by
    intro u aside kept
    rw [State.station, State.lapse_stations, Table.get_change, show Table.get u.stations i = some st from kept, Option.map_some,
      if_pos rfl, State.lapseDue_of_aside aside]
  rcases inv.hold_cases e with ⟨target, none_, free⟩ | ⟨x, mem, some_, rfl, target, source, ne, serving, only⟩
  · have shape : s.loseMember i = s.lapse i := by unfold State.loseMember; rw [none_]
    have quiet : st.cancels i = [] := by unfold Station.cancels; rw [target]; rfl
    rw [shape, quiet, filter_holds_nil free]
    exact ⟨(State.HandoverEnded.none clean target free).lapse wf e cur (by rw [target]; exact (Option.some_ne_none h).symm),
      written s rfl e⟩
  · cases cur.symm.trans source
    have sent := State.cancel_eq_sent e (Head.reachable_of_serving serving)
    have frames : st.cancels x.station = [(x.target, .cancel st.addr x.station)] := by rw [Station.cancels, target]; rfl
    have released := State.releaseHold_ended clean target (st.cancels x.station)
    have shape : s.loseMember x.station
        = (((s.sent (s.linkOut ++ st.cancels x.station)).releaseHold x).lapse x.station).noteHostEnd x .aborted := by
      unfold State.loseMember
      rw [some_, frames, ← sent]; rfl
    have same : ((s.sent (s.linkOut ++ st.cancels x.station)).releaseHold x).stations = s.stations := by
      rw [State.releaseHold, State.drainCheck_stations, State.recompute_stations]; rfl
    have kept : ((s.sent (s.linkOut ++ st.cancels x.station)).releaseHold x).station x.station = some st := by
      rw [State.station, same]; exact e
    rw [shape, only]
    refine ⟨(released.lapse (by rw [same]; exact wf) kept cur ?_).note x, ?_⟩
    · rw [target]; exact fun c => ne (Option.some.inj c).symm
    · rw [State.station, State.noteHostEnd_stations]
      exact written _ released.aside kept

end

/-! ## The departure -/

/-- A station has departed from its head and its target, some frames being sent (R27-R31). -/
structure State.Departed (s t : State) (i : Nat) (st : Station) (frames : List (HeadId × LinkFrame)) : Prop where
  work    : s.Departs t (fun g => st.current = some g ∨ st.target = some g) (s.holds.filter fun y => y.station == i)
  others  : ∀ j, j ≠ i → t.station j = s.station j
  holds   : t.holds = s.holds.filter fun y => y.station != i
  linkOut : t.linkOut = s.linkOut ++ frames
  left    : ∀ g, st.current = some g ∨ st.target = some g → s.HeadLeft t g

/-- After the end of the handover, and work on the station's record, the head it leaves is recomputed and makes its drain check. -/
theorem State.HandoverEnded.leave {s t u : State} {i : Nat} {st : Station} {frames more : List (HeadId × LinkFrame)}
    (ended : s.HandoverEnded t i st frames (s.holds.filter fun y => y.station == i)) {h : HeadId} (cur : st.current = some h)
    (away : st.target ≠ some h) (heads : u.heads = t.heads) (enables : u.enables = t.enables) (channels : u.channels = t.channels)
    (held : u.held = t.held) (holds : u.holds = t.holds) (linkOut : u.linkOut = t.linkOut ++ more)
    (others : ∀ j, j ≠ i → u.station j = t.station j)
    (owed : ∀ g, g ≠ h → u.members g = t.members g ∧ u.parties g = t.parties g) :
    s.Departed ((u.recompute h).drainCheck h) i st (frames ++ more) := by
  have clean : u.VenueClean := ended.clean.congr channels heads
  have touched : s.Departs u (fun g => st.current = some g ∨ st.target = some g) _ :=
    (ended.work.mono fun g e => .inr e).andThen (.of_same heads enables channels held)
  refine ⟨touched.andThen (u.recompute_drainCheck_departs (.inl cur)), fun j n => ?_, ?_, ?_, fun g m => ?_⟩
  · rw [State.station, State.drainCheck_stations, State.recompute_stations]
    exact (others j n).trans (ended.others j n)
  · rw [State.drainCheck_holds, State.recompute_holds, holds, ended.holds]
  · rw [State.drainCheck_linkOut, State.recompute_linkOut, linkOut, ended.linkOut, List.append_assoc]
  · by_cases e : g = h
    · subst e
      have same : u.head g = s.head g := (State.head_congr heads g).trans (ended.work.heads g away)
      exact (State.recompute_drainCheck_headLeft fun a acc => clean g a acc).of_same (by rw [same]; rfl)
    · have target : st.target = some g := m.resolve_left fun c => e (Option.some.inj (cur.symm.trans c)).symm
      refine (ended.left g target).congr ?_ ?_ ?_ ?_ ?_
      · simpa [State.members] using (owed g e).1
      · simp [State.holdsAt, holds]
      · rw [State.drainCheck_head_of_ne _ e, State.recompute_head_of_ne _ e, State.head_congr heads]
      · simpa [State.parties, State.holdsAt] using (owed g e).2
      · exact (State.channels_of_aside (by simp)).trans channels

/-! ## The record vacated -/

/-- A vacated record takes its member from its own head alone. -/
theorem State.owed_of_drop {s t : State} (wf : Table.wf s.stations) {i : Nat} {st : Station} (e : s.station i = some st)
    (stations : t.stations = Table.drop s.stations i) (holds : t.holds = s.holds) {g : HeadId} (away : st.current ≠ some g) :
    t.members g = s.members g ∧ t.parties g = s.parties g := by
  have members : (t.stations.filter fun p => p.2.current == some g) = s.stations.filter fun p => p.2.current == some g := by
    rw [stations, Table.drop, List.filter_filter]
    refine List.filter_congr fun p mem => ?_
    by_cases own : p.1 = i
    · have same : p.2 = st := by
        obtain ⟨j, x⟩ := p
        cases own
        exact Option.some.inj ((Table.get_of_mem wf mem).symm.trans e)
      have not_member : (p.2.current == some g) = false := by rw [same]; simpa using away
      rw [not_member, Bool.false_and]
    · simp [own]
  have holdsAt : t.holdsAt g = s.holdsAt g := by simp only [State.holdsAt, holds]
  exact ⟨congrArg _ members, by rw [State.parties_eq, State.parties_eq, holdsAt, State.memberParties, State.memberParties, members]⟩

theorem Table.drop_update {α : Type} (t : Table α) (i : Nat) (f : α → α) : Table.drop (Table.update t i f) i = Table.drop t i := by
  unfold Table.drop Table.update
  induction t with
  | nil => rfl
  | cons p t ih =>
    by_cases own : p.1 = i
    · simp [own] at ih ⊢; exact ih
    · simp [own] at ih ⊢; exact ih

/-- What the unbinding of a departing station's pass leaves alone. -/
theorem State.freePass_keeps (t : State) (st : Station) :
    (t.freePass st).heads = t.heads ∧ (t.freePass st).enables = t.enables ∧ (t.freePass st).channels = t.channels
      ∧ (t.freePass st).held = t.held ∧ (t.freePass st).holds = t.holds ∧ (t.freePass st).linkOut = t.linkOut
      ∧ (t.freePass st).besideBowl = t.besideBowl ∧ (t.freePass st).discards = t.discards := by
  unfold State.freePass State.unbindPass
  repeat' split
  all_goals exact ⟨rfl, rfl, rfl, rfl, rfl, rfl, rfl, rfl⟩

section
variable {s : State} {i : Nat} {st : Station}

/-- A departing station's pass, if it has one, is SEATED and bound to it. -/
def State.PassOf (s : State) (i : Nat) (st : Station) : Prop :=
  ∀ p, st.pass = some p → ∃ q, s.pass p = some q ∧ q.station = some i ∧ q.state = .seated

theorem State.BindingInv.passOf (inv : s.BindingInv) (e : s.station i = some st) : s.PassOf i st := by
  obtain ⟨-, back, seated⟩ := inv
  intro p bound
  obtain ⟨q, held, own⟩ := back i st p e bound
  exact ⟨q, held, own, (seated p q held).1 (by rw [own]; rfl)⟩

/-- The unbinding writes the record of the station that departs alone. -/
theorem State.freePass_drop (own : s.PassOf i st) : Table.drop (s.freePass st).stations i = Table.drop s.stations i := by
  unfold State.freePass
  split
  · rfl
  · next p bound =>
    obtain ⟨q, held, station, -⟩ := own p bound
    unfold State.unbindPass
    rw [held]
    simp only [station]
    exact Table.drop_update s.stations i fun st => { st with pass := none }

theorem State.freePass_pass (own : s.PassOf i st) (p : Nat) : (s.freePass st).pass p =
    if st.pass = some p then (s.pass p).map fun q => { q with state := .admitted, station := none } else s.pass p := by
  unfold State.freePass
  split
  · next bound => rw [bound, if_neg (Option.some_ne_none p).symm]
  · next k bound =>
    obtain ⟨q, held, -⟩ := own k bound
    rw [State.unbindPass_pass held, bound]
    by_cases same : p = k
    · subst same; rw [if_pos rfl, if_pos rfl, held]; rfl
    · rw [if_neg same, if_neg fun c => same (Option.some.inj c).symm]

theorem State.freePass_counts (own : s.PassOf i st) :
    s.CountsMoved (s.freePass st) ((st.pass.bind s.pass).bind Pass.cached) id (· - 1) := by
  intro k
  unfold State.freePass
  split
  · next bound => rw [bound, Option.bind_none, Option.bind_none, if_neg (Option.some_ne_none k).symm]
  · next p bound =>
    obtain ⟨q, held, station, seated⟩ := own p bound
    have zones : (s.unbindPass p .admitted).zones = (s.censusMove q.cached (some q.state) (some .admitted)).zones := by
      unfold State.unbindPass
      rw [held]
      dsimp only
      rw [station]
      rfl
    have zone : (s.unbindPass p .admitted).zone k = (s.censusMove q.cached (some q.state) (some .admitted)).zone k := by
      simp only [State.zone, zones]
    rw [zone, State.zone_censusMove, bound, Option.bind_some, held, Option.bind_some, seated]
    rfl

/-- What DISASSOC tells the head that a station leaves. -/
def Station.leaves (st : Station) : List (HeadId × LinkFrame) := st.current.toList.map fun g => (g, .disassoc st.addr)

theorem State.vacate_passes (e : s.station i = some st) (a b : Bool) :
    (s.vacate i a b).passes = ((s.endHandover i b).freePass st).passes ∧ (s.vacate i a b).zones = ((s.endHandover i b).freePass st).zones := by
  have aside := (((s.endHandover i b).freePass st).leaveHead_keeps i st a).aside
  rw [State.vacate_eq e]
  exact ⟨State.passes_of_aside aside, congrArg (fun v => v.2.1) (State.passView_of_aside aside)⟩

theorem State.vacate_departed (inv : s.MovesInv) (binding : s.BindingInv) (wf : Table.wf s.stations) (clean : s.VenueClean)
    (e : s.station i = some st) (a b : Bool) :
    s.Departed (s.vacate i a b) i st ((if b then st.cancels i else []) ++ if a then st.leaves else []) := by
  obtain ⟨ended, stations⟩ := State.endHandover_ended inv clean e b
  rw [State.vacate_eq e]
  generalize s.endHandover i b = t at *
  have own : t.PassOf i st := fun p bound => by
    obtain ⟨q, held, rest⟩ := binding.passOf e p bound
    exact ⟨q, by rw [State.pass, State.passes_of_aside ended.aside]; exact held, rest⟩
  have dropped := State.freePass_drop own
  obtain ⟨heads, enables, channels, held, holds, linkOut, -, -⟩ := t.freePass_keeps st
  generalize t.freePass st = f at *
  have kept : t.station i = some st := by rw [State.station, stations]; exact e
  have twf : Table.wf t.stations := by rw [stations]; exact wf
  have others : ∀ j, j ≠ i → Table.get (Table.drop f.stations i) j = t.station j := fun j n => by
    rw [dropped, Table.get_drop, if_neg n]; rfl
  cases cur : st.current with
  | none =>
    have target : st.target = none := by
      obtain ⟨lapsed, moving, -⟩ := inv.1 i st e
      refine Option.not_isSome_iff_eq_none.1 fun some_ => ?_
      have := (lapsed.1 cur).symm.trans (moving.1 some_)
      cases this
    have shape : f.leaveHead i st a = { f with stations := Table.drop f.stations i } := by unfold State.leaveHead; rw [cur]
    have quiet : (if a then st.leaves else []) = [] := by unfold Station.leaves; rw [cur]; split <;> rfl
    rw [shape, quiet, List.append_nil]
    refine ⟨(ended.work.mono fun g c => .inr c).andThen (.of_same heads enables channels held),
      fun j n => (others j n).trans (ended.others j n), holds.trans ended.holds, linkOut.trans ended.linkOut, fun g c => ?_⟩
    rw [cur, target] at c
    exact c.elim (fun c => absurd c.symm (Option.some_ne_none g)) fun c => absurd c.symm (Option.some_ne_none g)
  | some h =>
    have away : st.target ≠ some h := by
      rcases inv.hold_cases e with ⟨target, -⟩ | ⟨x, -, -, -, target, source, ne, -⟩
      · rw [target]; exact (Option.some_ne_none h).symm
      · cases cur.symm.trans source
        rw [target]; exact fun c => ne (Option.some.inj c).symm
    have serving : (f.head h).reachable = true := by
      obtain ⟨-, -, -, serving, -⟩ := inv.1 i st e
      have same : f.head h = s.head h := (State.head_congr heads h).trans (ended.work.heads h away)
      rw [same]; exact Head.reachable_of_serving (serving h cur)
    have sent : (if a then f.send h (.disassoc st.addr) else f) = f.sent (f.linkOut ++ if a then st.leaves else []) := by
      split
      · rw [State.send_eq_sent serving, Station.leaves, cur]; rfl
      · rw [List.append_nil]; rfl
    have shape : f.leaveHead i st a = State.drainCheck (State.recompute { f.sent (f.linkOut ++ if a then st.leaves else []) with
        stations := Table.drop f.stations i } h) h := by
      unfold State.leaveHead
      rw [cur]
      dsimp only
      rw [sent]; rfl
    rw [shape]
    refine ended.leave cur away heads enables channels held holds (congrArg (· ++ _) linkOut) others fun g ne => ?_
    exact State.owed_of_drop (t := { f.sent (f.linkOut ++ if a then st.leaves else []) with stations := Table.drop f.stations i }) twf
      kept dropped holds (by rw [cur]; exact fun c => ne (Option.some.inj c).symm)

end

theorem State.vacate_discards (s : State) (i : Nat) (a b : Bool) : (s.vacate i a b).discards = s.discards := by
  cases e : s.station i with
  | none => rw [State.vacate_of_vacant e]
  | some st =>
    rw [State.vacate_eq e, State.discards_of_aside (State.leaveHead_keeps _ i st a).aside]
    obtain ⟨-, -, -, -, -, -, -, discards⟩ := (s.endHandover i b).freePass_keeps st
    exact discards.trans (State.discards_of_aside (s.endHandover_keeps i b).aside)

/-! ## The outcome -/

/-- What a departure leaves: the station's heads, all other stations and holds, the frames and the notices. -/
def State.PartedFrom (s v t : State) (i : Nat) (st : Station) (frames : List (HeadId × LinkFrame)) : Prop :=
  ((∀ g, st.current ≠ some g → st.target ≠ some g → t.head g = s.head g)
      ∧ ∀ g, (st.current = some g ∨ st.target = some g) → s.HeadLeft t g)
    ∧ (∀ j, j ≠ i → t.station j = s.station j) ∧ t.holds = s.holds.filter (fun x => x.station != i)
      ∧ t.linkOut = s.linkOut ++ frames
      ∧ ∃ ns, (ns.filter fun n => noticeClass n == .roam) = abortNotices (s.holds.filter fun x => x.station == i)
        ∧ (∀ g, Notice.head g .drained .dark ∈ ns ↔ (s.head g).state = .draining ∧ (t.head g).state = .dark)
        ∧ (∀ n ∈ ns, noticeClass n = .roam ∨ noticeClass n = .airtime ∨ ∃ g, n = .head g .drained .dark)
        ∧ v.InBowl t ns

/-- A command whose work is a departure, its notices offered. -/
theorem State.Departed.outcome {s v w t : State} {i : Nat} {st : Station} {frames : List (HeadId × LinkFrame)}
    (d : s.Departed w i st frames) (heads : t.heads = w.heads) (stations : t.stations = w.stations) (holds : t.holds = w.holds)
    (linkOut : t.linkOut = w.linkOut) (channels : t.channels = w.channels) (bowl : ∀ ns, s.Produced w ns → v.InBowl t ns) :
    s.PartedFrom v t i st frames := by
  have head : ∀ g, t.head g = w.head g := State.head_congr heads
  obtain ⟨ns, produced, roam, drained, kinds⟩ := d.work.told
  refine ⟨⟨fun g n m => (head g).trans (d.work.heads g fun c => c.elim n m), fun g m => (d.left g m).congr ?_ ?_ (head g) ?_ channels⟩,
    fun j n => ?_, holds.trans d.holds, linkOut.trans d.linkOut, ns, roam, fun g => ?_, kinds, bowl ns produced⟩
  · simp only [State.members, stations]
  · simp only [State.holdsAt, holds]
  · simp only [State.parties, State.holdsAt, stations, holds]
  · rw [State.station, stations]; exact d.others j n
  · rw [head]; exact drained g

/-- What a command that vacates a station's record leaves. -/
structure State.Vacated (s v t : State) (i : Nat) (st : Station) (frames : List (HeadId × LinkFrame)) : Prop where
  gone    : t.station i = none
  outcome : s.PartedFrom v t i st frames
  passes  : ∀ p, t.pass p = if st.pass = some p then
    (s.pass p).map (fun q => { q with state := .admitted, station := none }) else s.pass p
  counts  : s.CountsMoved t ((st.pass.bind s.pass).bind Pass.cached) id (· - 1)

theorem State.vacate_vacated {s v t : State} {i : Nat} {st : Station} (inv : s.MovesInv) (binding : s.BindingInv)
    (wf : Table.wf s.stations) (clean : s.VenueClean) (e : s.station i = some st) {a b : Bool}
    {frames : List (HeadId × LinkFrame)} (sent : ((if b then st.cancels i else []) ++ if a then st.leaves else []) = frames)
    (heads : t.heads = (s.vacate i a b).heads) (stations : t.stations = (s.vacate i a b).stations)
    (holds : t.holds = (s.vacate i a b).holds) (linkOut : t.linkOut = (s.vacate i a b).linkOut)
    (channels : t.channels = (s.vacate i a b).channels) (view : t.passView = (s.vacate i a b).passView)
    (bowl : ∀ ns, s.Produced (s.vacate i a b) ns → v.InBowl t ns) : s.Vacated v t i st frames := by
  subst sent
  have aside := (s.endHandover_keeps i b).aside
  have old := State.passView_of_aside aside
  simp only [State.passView, Prod.mk.injEq] at old view
  obtain ⟨passes, zones, -⟩ := old
  obtain ⟨viewPasses, viewZones, -⟩ := view
  have pass : (s.endHandover i b).pass = s.pass := funext fun p => by rw [State.pass, passes]; rfl
  have zone : ∀ z, (s.endHandover i b).zone z = s.zone z := fun z => by rw [State.zone, zones]; rfl
  have own : (s.endHandover i b).PassOf i st := fun p bound => by
    rw [pass]; exact binding.passOf e p bound
  obtain ⟨freed, counted⟩ := State.vacate_passes e a b
  refine ⟨?_, (State.vacate_departed inv binding wf clean e a b).outcome heads stations holds linkOut channels bowl, fun p => ?_, fun k => ?_⟩
  · rw [State.station, stations]; exact s.vacate_station i a b
  · rw [State.pass, viewPasses, freed, ← pass]
    exact State.freePass_pass own p
  · have now : t.zone k = ((s.endHandover i b).freePass st).zone k := by rw [State.zone, viewZones, counted]; rfl
    have counts := State.freePass_counts own k
    rw [now, counts, pass, zone]

/-- A record vacated by a command that then offers its notices. -/
theorem State.vacate_flush {s : State} {i : Nat} {st : Station} (inv : s.MovesInv) (binding : s.BindingInv)
    (wf : Table.wf s.stations) (clean : s.VenueClean) (quiet : s.held = []) (e : s.station i = some st) {a b : Bool}
    {frames : List (HeadId × LinkFrame)} (sent : ((if b then st.cancels i else []) ++ if a then st.leaves else []) = frames) :
    s.Vacated s (s.vacate i a b).flush i st frames :=
  State.vacate_vacated inv binding wf clean e sent (State.flush_heads _) (State.flush_stations _) (State.flush_holds _)
    (State.flush_linkOut _) (State.flush_channels _) (State.flush_passView _)
    fun _ p => .of_flush quiet (State.vacate_besideBowl _ i a b) (State.vacate_discards _ i a b) p

/-! ## The four commands -/

section
variable {s : State} (sound : s.Sound) {i : Nat} {st : Station} {h : HeadId}
include sound

/-- A MOVING station's target is not its head. -/
theorem State.Sound.target_ne_current (e : s.station i = some st) (cur : st.current = some h) : st.target ≠ some h := by
  rcases sound.moves.hold_cases e with ⟨none_, -⟩ | ⟨x, -, -, -, target, source, ne, -⟩
  · rw [none_]; exact (Option.some_ne_none h).symm
  · cases cur.symm.trans source
    rw [target]; exact fun c => ne (Option.some.inj c).symm

/-- A DISASSOC from its head vacates a station's record, and CANCEL goes to its target (R27, R78). -/
theorem execDisassoc_vacates_member (hears : s.Hears h) (member : s.Member h st.addr i st) :
    ∃ t, exec (.disassoc h st.addr) s = .next t ∧ s.Vacated s t i st (st.cancels i) := by
  obtain ⟨known, e, -, cur⟩ := id member
  refine ⟨_, ?_, State.vacate_flush sound.moves sound.binding sound.store.1.1 sound.venueClean sound.link.2.2 e
    (a := false) (b := true) (List.append_nil _)⟩
  show execDisassoc h st.addr s = _
  simp only [execDisassoc, hears.handOn, known, e, if_pos cur]
  rfl

/-- A DISASSOC from its target vacates a MOVING station's record, and no frame is sent (R27, R78). -/
theorem execDisassoc_vacates_moving {g : HeadId} (hears : s.Hears h) (member : s.Member g st.addr i st) (moving : st.state = .moving)
    (target : st.target = some h) : ∃ t, exec (.disassoc h st.addr) s = .next t ∧ s.Vacated s t i st [] := by
  obtain ⟨known, e, -, cur⟩ := id member
  have elsewhere : st.current ≠ some h := fun c => sound.target_ne_current e c target
  refine ⟨_, ?_, State.vacate_flush sound.moves sound.binding sound.store.1.1 sound.venueClean sound.link.2.2 e
    (a := false) (b := false) rfl⟩
  show execDisassoc h st.addr s = _
  simp only [execDisassoc, hears.handOn, known, e, if_neg elsewhere, if_pos (And.intro moving target)]
  rfl

/-- LOST makes a station LAPSED, its pass and its zone's counts kept (R28). -/
theorem execLost_lapses (hears : s.Hears h) (member : s.Member h st.addr i st) :
    ∃ t, exec (.lost h st.addr) s = .next t
      ∧ t.station i = some { st with
          state := .lapsed, current := none, target := none, res := 0, capped := false
          lapse := some (s.now + 1000000 * s.roam.lapse) }
      ∧ s.PartedFrom s t i st (st.cancels i) ∧ t.passes = s.passes ∧ t.zones = s.zones := by
  obtain ⟨-, e, -, cur⟩ := id member
  obtain ⟨ended, lapsed⟩ := State.loseMember_ended sound.moves sound.store.1.1 sound.venueClean e cur
  have departed := ended.leave cur (sound.target_ne_current e cur) rfl rfl rfl rfl rfl (List.append_nil _).symm (fun _ _ => rfl)
    fun _ _ => ⟨rfl, rfl⟩
  rw [List.append_nil] at departed
  have aside : (((s.loseMember i).recompute h).drainCheck h).aside = s.aside := by
    rw [State.drainCheck_aside, State.recompute_aside]; exact ended.aside
  refine ⟨_, ?_, ?_, departed.outcome (v := s) (State.flush_heads _) (State.flush_stations _) (State.flush_holds _)
    (State.flush_linkOut _) (State.flush_channels _)
    fun _ p => .of_flush sound.link.2.2 (State.besideBowl_of_aside aside) (State.discards_of_aside aside) p, ?_, ?_⟩
  · show execLost h st.addr s = _
    simp only [execLost, hears.handOn, member.forMember]
    rfl
  · rw [State.flush_station, State.station, State.drainCheck_stations, State.recompute_stations]; exact lapsed
  · rw [State.flush_passes]; exact State.passes_of_aside aside
  · rw [State.flush_zones]; exact congrArg (fun v => v.2.1) (State.passView_of_aside aside)

/-- A lapse timer that is not running does not expire (log 2). -/
theorem execLapseTimerExpiry_stopped (stopped : (s.station i).bind Station.lapse = none) : exec (.lapseTimerExpiry i) s = .next s := by
  show execLapseTimerExpiry i s = _
  simp only [execLapseTimerExpiry, stopped]
  exact State.done_of_held_nil sound.link.2.2

/-- A lapse timer's expiry vacates the record, which is of no head and no target: no frame is sent (R29). -/
theorem execLapseTimerExpiry_vacates {due : Micros} (e : s.station i = some st) (runs : st.lapse = some due) :
    ∃ t, exec (.lapseTimerExpiry i) s = .next t ∧ (s.expireAt due).Vacated (s.expireAt due) t i st [] := by
  obtain ⟨lapsed, moving, timer, -⟩ := sound.moves.1 i st e
  have away : st.state = .lapsed := timer.1 (by rw [runs]; rfl)
  have target : st.target = none := Option.not_isSome_iff_eq_none.1 fun c => by cases away.symm.trans (moving.1 c)
  have silent : st.cancels i ++ st.leaves = [] := by
    rw [Station.cancels, Station.leaves, target, lapsed.2 away]; rfl
  refine ⟨((s.expireAt due).vacate i true true).flush, ?_, State.vacate_flush (s := s.expireAt due) sound.moves sound.binding
    sound.store.1.1 sound.venueClean sound.link.2.2 e (a := true) (b := true) silent⟩
  show execLapseTimerExpiry i s = _
  simp only [execLapseTimerExpiry, e, Option.bind_some, runs]
  rfl

/-- STATION-EVICT vacates the record of a station, and both its target and its head are told (R31). -/
theorem execStationEvict_vacates {u : State} {f : Req} (taken : s.Takes 0x0D f u) (small : i < 4096) (e : s.station i = some st) :
    ∃ t, exec (.stationEvict f i) s = .next t ∧ s.Vacated (u.reply 0x0D f.tag .ok .none) t i st (st.cancels i ++ st.leaves) := by
  have there : u.station i = some st := by
    obtain ⟨_, rfl⟩ := taken.eq; exact e
  have records : u.MovesInv ∧ u.BindingInv ∧ Table.wf u.stations ∧ u.VenueClean := by
    obtain ⟨_, rfl⟩ := taken.eq
    exact ⟨sound.moves, sound.binding, sound.store.1.1, sound.venueClean⟩
  obtain ⟨moves, binding, wf, clean⟩ := records
  have left : u.Vacated (u.reply 0x0D f.tag .ok .none) ((u.vacate i true true).reply 0x0D f.tag .ok .none).flush i st
      (st.cancels i ++ st.leaves) :=
    State.vacate_vacated moves binding wf clean there rfl
      (State.flush_heads _) (State.flush_stations _) (State.flush_holds _) (State.flush_linkOut _) (State.flush_channels _)
      (State.flush_passView _) fun _ p => .of_reply taken.held (State.vacate_besideBowl u i true true)
        (State.vacate_discards u i true true) p
  refine ⟨((u.vacate i true true).reply 0x0D f.tag .ok .none).flush, ?_, ?_⟩
  · refine congrArg _ ((State.serve_of_taken taken.1 taken.2.1).trans ?_)
    simp only [if_pos small, there]
  · obtain ⟨_, rfl⟩ := taken.eq
    exact ⟨left.gone, left.outcome, left.passes, left.counts⟩

omit sound in
/-- STATION-EVICT of a number that no record can have draws RANGE, of a vacant record STATE (R31). -/
theorem execStationEvict_refused {u : State} {f : Req} (taken : s.Takes 0x0D f u) :
    (4096 ≤ i → exec (.stationEvict f i) s = .next (u.reply 0x0D f.tag .range .none))
      ∧ (i < 4096 → s.station i = none → exec (.stationEvict f i) s = .next (u.reply 0x0D f.tag .state .none)) := by
  refine ⟨fun large => ?_, fun small e => ?_⟩
  · refine congrArg _ ((State.serve_of_taken taken.1 taken.2.1).trans ?_)
    simp only [if_neg (Nat.not_lt.2 large)]
    exact State.flush_of_held_nil taken.held
  · have vacant : u.station i = none := by
      obtain ⟨_, rfl⟩ := taken.eq; exact e
    refine congrArg _ ((State.serve_of_taken taken.1 taken.2.1).trans ?_)
    simp only [if_pos small, vacant]
    exact State.flush_of_held_nil taken.held

end

/-- Settles O34: each of the four commands vacates the record, or lapses it, by the end of its handover and the departure from its
head. -/
theorem stationsLeaveTheirHeads : Obligations.StationsLeaveTheirHeads := by
  intro s i sound heads rest vacated cancels leaves
  have gone : ∀ {v t : State} {st frames}, s.Vacated v t i st frames → vacated v t st frames := fun d =>
    ⟨d.gone, d.outcome.1, d.outcome.2, d.passes, d.counts⟩
  refine ⟨fun h st hears member => ⟨?_, ?_⟩, fun h g st hears member moving target => ?_, fun st e stopped => ?_, fun e => ?_,
    fun st due e runs => ?_, fun u f taken => ⟨(execStationEvict_refused taken).1, (execStationEvict_refused taken).2,
      fun st small e => ?_⟩⟩
  · obtain ⟨t, run, left⟩ := execDisassoc_vacates_member sound hears member
    exact ⟨t, run, gone left⟩
  · obtain ⟨t, run, lapsed, parted, passes, zones⟩ := execLost_lapses sound hears member
    exact ⟨t, run, lapsed, parted.1, parted.2, passes, zones⟩
  · obtain ⟨t, run, left⟩ := execDisassoc_vacates_moving sound hears member moving target
    exact ⟨t, run, gone left⟩
  · exact execLapseTimerExpiry_stopped sound (by rw [e]; exact stopped)
  · exact execLapseTimerExpiry_stopped sound (by rw [e]; rfl)
  · obtain ⟨t, run, left⟩ := execLapseTimerExpiry_vacates sound e runs
    exact ⟨t, run, left.gone, left.outcome.1, left.outcome.2, left.passes, left.counts⟩
  · obtain ⟨t, run, left⟩ := execStationEvict_vacates sound taken small e
    exact ⟨t, run, gone left⟩

end Sys2Proof.Machine

/-!
PROOF LAYER. Stations, members and holds in order (R21, R51, R52, R61): the law split into where stations and holds are
(`State.Seating`) and how one station and its hold stand (`State.ShapeAt`), and what each piece of work keeps of it.
-/
namespace Sys2Proof.Machine

/-! ## The law in two parts -/

/-- A station record stands as its state says, its head and its reservation aside (R19, R21, R123); LAPSED it holds no airtime. -/
structure Station.Placed (st : Station) : Prop where
  lapsed : st.current = none ↔ st.state = .lapsed
  moving : st.target.isSome ↔ st.state = .moving
  timer  : st.lapse.isSome ↔ st.state = .lapsed
  assoc  : st.state = .assoc → st.pass = none
  seated : st.state = .seated → st.pass.isSome
  empty  : st.state = .lapsed → st.res = 0 ∧ st.capped = false

/-- A station and its hold stand as they should, heads and reservations aside (R21, R61). -/
structure State.PlacedAt (s : State) (i : Nat) : Prop where
  stands : ∀ st, s.station i = some st → st.Placed
  held   : ∀ st, s.station i = some st → st.state = .moving → ∃ x ∈ s.holds, x.station = i
  hold   : ∀ x ∈ s.holds, x.station = i → x.source ≠ x.target ∧ ∃ st, s.station i = some st ∧ st.state = .moving
    ∧ st.current = some x.source ∧ st.target = some x.target ∧ x.chans = st.chans

/-- A station and its hold stand as they should, the heads aside: capped, the station holds less than its tier value (R51, R52). -/
structure State.ShapeAt (s : State) (i : Nat) : Prop where
  placed : s.PlacedAt i
  capped : ∀ st, s.station i = some st → st.capped = true → st.res < s.tierValue st

/-- Members and holds are at heads that are ON or DRAINING, no station has two holds, and no head has more than 64 of both (R61). -/
structure State.Seating (s : State) : Prop where
  wf      : Table.wf s.stations
  nodup   : (s.holds.map Hold.station).Nodup
  members : ∀ i st h, s.station i = some st → st.current = some h → (s.head h).serving = true
  targets : ∀ x ∈ s.holds, (s.head x.target).serving = true
  crowd   : ∀ h, s.crowd h ≤ 64

/-- Stations, members and holds are in order, the table in its canonical form. -/
structure State.MovesLaw (s : State) : Prop where
  seating : s.Seating
  shapes  : ∀ i, s.ShapeAt i

theorem State.movesLaw_iff {s : State} : s.MovesLaw ↔ Table.wf s.stations ∧ s.MovesInv := by
  constructor
  · rintro ⟨⟨wf, nodup, members, targets, crowd⟩, shapes⟩
    refine ⟨wf, fun i st e => ?_, fun x mem => ?_, nodup, fun i => (shapes i).placed.held, crowd⟩
    · obtain ⟨a, b, c, d, f, g⟩ := (shapes i).placed.stands st e
      exact ⟨a, b, c, fun h => members i st h e, d, f, g, (shapes i).capped st e⟩
    · obtain ⟨ne, rest⟩ := (shapes x.station).placed.hold x mem rfl
      exact ⟨ne, targets x mem, rest⟩
  · rintro ⟨wf, stands, holds, nodup, moving, crowd⟩
    refine ⟨⟨wf, nodup, fun i st h e cur => ?_, fun x mem => (holds x mem).2.1, crowd⟩,
      fun i => ⟨⟨fun st e => ?_, moving i, ?_⟩, fun st e => ?_⟩⟩
    · obtain ⟨-, -, -, serving, -⟩ := stands i st e
      exact serving h cur
    · obtain ⟨a, b, c, -, d, f, g, -⟩ := stands i st e
      exact ⟨a, b, c, d, f, g⟩
    · rintro x mem rfl
      obtain ⟨ne, -, rest⟩ := holds x mem
      exact ⟨ne, rest⟩
    · obtain ⟨-, -, -, -, -, -, -, k⟩ := stands i st e
      exact k

theorem State.Sound.movesLaw {s : State} (h : s.Sound) : s.MovesLaw := State.movesLaw_iff.2 ⟨h.store.1.1, h.moves⟩

/-! ## Members and holds counted -/

theorem State.crowd_eq (s : State) (h : HeadId) :
    s.crowd h = (s.stations.countP fun p => p.2.current == some h) + s.holds.countP fun x => x.target == h := by
  simp only [State.crowd, State.members, State.holdsAt, List.length_map, List.countP_eq_length_filter]

theorem State.crowd_congr {s t : State} (stations : t.stations = s.stations) (holds : t.holds = s.holds) (h : HeadId) :
    t.crowd h = s.crowd h := by rw [State.crowd_eq, State.crowd_eq, stations, holds]

/-- A station's record written moves the count by whether it is a member, and whether it was. -/
theorem State.crowd_setStation {s : State} (w : Table.wf s.stations) (i : Nat) (x : Station) (h : HeadId) :
    (s.setStation i x).crowd h + ((s.station i).any fun st => st.current == some h).toNat
      = s.crowd h + (x.current == some h).toNat := by
  have := Table.countP_put w i x fun st => st.current == some h
  have stations : (s.setStation i x).stations = Table.put s.stations i x := rfl
  have holds : (s.setStation i x).holds = s.holds := rfl
  rw [State.crowd_eq, State.crowd_eq, stations, holds]
  simp only [State.station]
  omega

theorem State.crowd_dropStation {s t : State} (w : Table.wf s.stations) {i : Nat} (stations : t.stations = Table.drop s.stations i)
    (holds : t.holds = s.holds) (h : HeadId) : t.crowd h ≤ s.crowd h := by
  have := Table.countP_drop w i fun st => st.current == some h
  rw [State.crowd_eq, State.crowd_eq, stations, holds]
  omega

theorem State.crowd_dropHold_le (s : State) (i : Nat) (h : HeadId) : (s.dropHold i).crowd h ≤ s.crowd h := by
  have : (s.dropHold i).holds.countP (fun x => x.target == h) ≤ s.holds.countP fun x => x.target == h :=
    List.Sublist.countP_le List.filter_sublist
  have stations : (s.dropHold i).stations = s.stations := rfl
  rw [State.crowd_eq, State.crowd_eq, stations]
  omega

/-- A hold released makes room at its target. -/
theorem State.crowd_dropHold_lt {s : State} {x : Hold} (mem : x ∈ s.holds) :
    (s.dropHold x.station).crowd x.target < s.crowd x.target := by
  have split := List.countP_eq_countP_filter_add s.holds (fun y => y.target == x.target) fun y => y.station != x.station
  have own : 0 < (s.holds.filter fun y => !(y.station != x.station)).countP fun y => y.target == x.target :=
    List.countP_pos_iff.2 ⟨x, List.mem_filter.2 ⟨mem, by simp⟩, by simp⟩
  have stations : (s.dropHold x.station).stations = s.stations := rfl
  have holds : (s.dropHold x.station).holds = s.holds.filter fun y => y.station != x.station := rfl
  rw [State.crowd_eq, State.crowd_eq, stations, holds]
  omega

/-! ## What work keeps -/

/-- Work on one station's record and hold alone. -/
structure State.Touches (s t : State) (i : Nat) : Prop where
  value  : ∀ j st, j ≠ i → s.station j = some st → t.tierValue st = s.tierValue st
  others : ∀ j, j ≠ i → t.station j = s.station j
  holds  : ∀ x : Hold, x.station ≠ i → (x ∈ t.holds ↔ x ∈ s.holds)

/-- Work on one station's record and hold that keeps every member and hold at a head that serves. -/
structure State.Moves (s t : State) (i : Nat) : Prop where
  seats   : s.Seating → t.Seating
  touches : s.Touches t i

section
variable {s t u : State} {i : Nat}

theorem State.Touches.of_same (value : t.tierValue = s.tierValue) (stations : t.stations = s.stations) (holds : t.holds = s.holds) :
    s.Touches t i :=
  ⟨fun _ _ _ _ => by rw [value], fun _ _ => by rw [State.station, stations]; rfl, fun _ _ => by rw [holds]⟩

theorem State.Touches.trans (h : s.Touches t i) (k : t.Touches u i) : s.Touches u i where
  value j st n e := (k.value j st n ((h.others j n).trans e)).trans (h.value j st n e)
  others j n := (k.others j n).trans (h.others j n)
  holds x n := (k.holds x n).trans (h.holds x n)

/-- A station's place is read from its record and its hold alone. -/
theorem State.PlacedAt.congr (placed : s.PlacedAt i) (station : t.station i = s.station i)
    (holds : ∀ x : Hold, x.station = i → (x ∈ t.holds ↔ x ∈ s.holds)) : t.PlacedAt i where
  stands st e := placed.stands st (station ▸ e)
  held st e moving := by
    obtain ⟨x, mem, own⟩ := placed.held st (station ▸ e) moving
    exact ⟨x, (holds x own).2 mem, own⟩
  hold x mem own := by
    obtain ⟨ne, st, e, rest⟩ := placed.hold x ((holds x own).1 mem) own
    exact ⟨ne, st, station.trans e, rest⟩

/-- A station and hold that no work touches stand as they did. -/
theorem State.ShapeAt.touches {j : Nat} (shape : s.ShapeAt j) (k : s.Touches t i) (n : j ≠ i) : t.ShapeAt j where
  placed := shape.placed.congr (k.others j n) fun x own => k.holds x (by rw [own]; exact n)
  capped st e := by
    rw [k.others j n] at e
    rw [k.value j st n e]
    exact shape.capped st e

theorem State.Moves.trans (h : s.Moves t i) (k : t.Moves u i) : s.Moves u i :=
  ⟨fun seat => k.seats (h.seats seat), h.touches.trans k.touches⟩

/-- Work on one station keeps the law if that station and its hold stand as they should after it. -/
theorem State.MovesLaw.moves (law : s.MovesLaw) (k : s.Moves t i) (own : t.ShapeAt i) : t.MovesLaw where
  seating := k.seats law.seating
  shapes j := by
    by_cases e : j = i
    · rw [e]; exact own
    · exact (law.shapes j).touches k.touches e

theorem State.Seating.of_same (seat : s.Seating) (stations : t.stations = s.stations) (holds : t.holds = s.holds)
    (serving : ∀ h, (s.head h).serving = true → (t.head h).serving = true) : t.Seating where
  wf := by rw [stations]; exact seat.wf
  nodup := by rw [holds]; exact seat.nodup
  members j st h e cur := serving h (seat.members j st h (by rw [← e, State.station, State.station, stations]) cur)
  targets x mem := serving _ (seat.targets x (holds ▸ mem))
  crowd h := by rw [State.crowd_congr stations holds]; exact seat.crowd h

/-- Work that leaves stations and holds alone, and every head that serves serving. -/
theorem State.Moves.of_same (value : t.tierValue = s.tierValue) (stations : t.stations = s.stations) (holds : t.holds = s.holds)
    (serving : ∀ h, (s.head h).serving = true → (t.head h).serving = true) : s.Moves t i where
  seats seat := seat.of_same stations holds serving
  touches := .of_same value stations holds

theorem State.PlacedAt.of_same (placed : s.PlacedAt i) (stations : t.stations = s.stations) (holds : t.holds = s.holds) :
    t.PlacedAt i := placed.congr (by rw [State.station, stations]; rfl) fun _ _ => by rw [holds]

theorem State.ShapeAt.of_same (shape : s.ShapeAt i) (value : t.tierValue = s.tierValue) (stations : t.stations = s.stations)
    (holds : t.holds = s.holds) : t.ShapeAt i where
  placed := shape.placed.of_same stations holds
  capped st e := by
    rw [State.station, stations] at e
    rw [value]
    exact shape.capped st e

theorem State.MovesLaw.of_same (law : s.MovesLaw) (value : t.tierValue = s.tierValue) (stations : t.stations = s.stations)
    (holds : t.holds = s.holds) (serving : ∀ h, (s.head h).serving = true → (t.head h).serving = true) : t.MovesLaw :=
  law.moves (i := 0) (.of_same value stations holds serving) ((law.shapes 0).of_same value stations holds)

end

/-! ## Tier values -/

theorem State.tierValue_eq_of_mapView {s t : State} (e : t.mapView = s.mapView) : t.tierValue = s.tierValue :=
  funext fun _ => State.tierValue_of_mapView e rfl

theorem State.tierValue_eq_of_aside {s t : State} (e : t.aside = s.aside) : t.tierValue = s.tierValue :=
  State.tierValue_eq_of_mapView (State.mapView_of_aside e)

/-- The bowl's records decide the law. -/
theorem State.movesLaw_bowlLaw : BowlLaw State.MovesLaw where
  sound h := h.movesLaw
  quiet {s t} law q := by
    simp only [State.Quiet, State.bowlView, State.stationView, Prod.mk.injEq] at q
    obtain ⟨⟨stations, holds⟩, passes, tiers, unbound, roam, serving⟩ := q
    have value : t.tierValue = s.tierValue := State.tierValue_eq_of_mapView
      (State.mapView_of_passView passes (by simp only [State.hostSet, tiers, unbound, roam]))
    exact law.of_same value stations holds fun h e => by rw [congrFun serving h]; exact e

/-! ## The pieces of work -/

section
variable {s t : State} {i : Nat}

theorem State.Moves.refl (s : State) : s.Moves s i := .of_same rfl rfl rfl fun _ e => e

variable (k : s.Moves t i)
include k

/-- Work that leaves the stations, holds and the map alone, and which heads serve. -/
theorem State.Moves.view {u : State} (aside : u.aside = t.aside) (stations : u.stations = t.stations) (holds : u.holds = t.holds)
    (view : u.headsView = t.headsView) : s.Moves u i :=
  k.trans (.of_same (State.tierValue_eq_of_aside aside) stations holds fun h e => by
    rw [State.serving_of_headsView view]; exact e)

theorem State.Moves.recompute (h : HeadId) : s.Moves (t.recompute h) i :=
  k.view (t.recompute_aside h) (t.recompute_stations h) (t.recompute_holds h) (t.recompute_headsView h)

theorem State.Moves.send (h : HeadId) (f : LinkFrame) : s.Moves (t.send h f) i := k.view rfl rfl rfl rfl
theorem State.Moves.note (n : Notice) : s.Moves (t.note n) i := k.view rfl rfl rfl rfl

theorem State.Moves.noteHostEnd (x : Hold) (r : RoamEnd) : s.Moves (t.noteHostEnd x r) i :=
  k.view (by simp) (by simp) (by simp) (by simp)

theorem State.Moves.cancel (x : Hold) : s.Moves (t.cancel x) i :=
  k.view (by simp) (t.cancel_stations x) (by unfold State.cancel; split <;> rfl) (by simp)

theorem State.Moves.recomputeList (hs : List HeadId) : s.Moves (t.recomputeList hs) i := by
  unfold State.recomputeList
  induction hs generalizing t with
  | nil => exact k
  | cons h hs ih => exact ih (k.recompute h)

theorem State.Moves.recomputeOf (j : Nat) : s.Moves (t.recomputeOf j) i := by
  unfold State.recomputeOf
  split
  · exact k
  · exact k.recompute _

theorem State.Moves.recomputeBoth (j : Nat) : s.Moves (t.recomputeBoth j) i := by
  unfold State.recomputeBoth State.recomputeTarget
  split
  · exact k.recomputeOf j
  · exact (k.recomputeOf j).recompute _

/-- A head closed by its drain check has no member and no hold left (R15). -/
theorem State.Moves.drainCheck (h : HeadId) : s.Moves (t.drainCheck h) i := by
  refine k.trans ⟨fun seat => ?_, .of_same (State.tierValue_eq_of_aside (by simp)) (by simp) (by simp)⟩
  by_cases fires : (t.head h).state = .draining ∧ t.crowd h = 0
  · obtain ⟨draining, empty⟩ := fires
    obtain ⟨none_, free⟩ := State.crowd_eq_zero.1 empty
    have head : ∀ g, g ≠ h → (t.drainCheck h).head g = t.head g := fun g ne => State.drainCheck_head_of_ne _ ne
    refine ⟨by simpa using seat.wf, by simpa using seat.nodup, fun j st g e cur => ?_, fun x mem => ?_, fun g => ?_⟩
    · rw [State.station, State.drainCheck_stations] at e
      have ne : g ≠ h := fun same => by
        have : j ∈ t.members h := (State.mem_members seat.wf).2 ⟨st, e, same ▸ cur⟩
        rw [none_] at this
        cases this
      rw [head g ne]
      exact seat.members j st g e cur
    · rw [State.drainCheck_holds] at mem
      have ne : x.target ≠ h := fun same => by
        have : x ∈ t.holdsAt h := List.mem_filter.2 ⟨mem, beq_iff_eq.2 same⟩
        rw [free] at this
        cases this
      rw [head _ ne]
      exact seat.targets x mem
    · rw [State.crowd_congr (t.drainCheck_stations h) (t.drainCheck_holds h)]; exact seat.crowd g
  · have idle : t.drainCheck h = t := if_neg fires
    rw [idle]; exact seat

/-- The touched station's record is written: a member where it was, or of a head that serves and has room. -/
theorem State.Moves.setStation (x : Station) (place : ∀ h, x.current = some h →
      (∃ st, t.station i = some st ∧ st.current = some h) ∨ ((t.head h).serving = true ∧ t.crowd h < 64)) :
    s.Moves (t.setStation i x) i := by
  refine k.trans ⟨fun seat => ⟨Table.wf_put seat.wf i x, seat.nodup, fun j st h e cur => ?_, seat.targets, fun h => ?_⟩, ?_⟩
  · rw [State.station_setStation] at e
    split at e
    · cases e
      rcases place h cur with ⟨st, old, cur'⟩ | ⟨serving, -⟩
      · exact seat.members i st h old cur'
      · exact serving
    · exact seat.members j st h e cur
  · have counted := State.crowd_setStation seat.wf i x h
    have bound := seat.crowd h
    by_cases here : x.current = some h
    · rcases place h here with ⟨st, old, cur'⟩ | ⟨-, room⟩
      · rw [old, Option.any_some, cur', here] at counted
        omega
      · have := Bool.toNat_le (x.current == some h)
        omega
    · have zero : (x.current == some h) = false := by simpa using here
      rw [zero] at counted
      simp only [Bool.toNat_false] at counted
      omega
  · exact ⟨fun _ _ _ _ => rfl, fun j n => (t.station_setStation i j x).trans (if_neg n), fun _ _ => Iff.rfl⟩

/-- The touched station's record is changed, its head kept or left. -/
theorem State.Moves.updateStation (f : Station → Station) (place : ∀ st h, (f st).current = some h → st.current = some h) :
    s.Moves (t.updateStation i f) i := by
  refine k.trans ⟨fun seat => ?_, ⟨fun _ _ _ _ => rfl, fun j n => (t.station_updateStation i j f).trans (if_neg n), fun _ _ => Iff.rfl⟩⟩
  cases e : t.station i with
  | none =>
    have same : t.updateStation i f = t := by rw [State.updateStation, Table.update_of_vacant seat.wf e]
    rw [same]; exact seat
  | some st =>
    rw [State.updateStation_eq_setStation seat.wf e]
    exact ((State.Moves.refl t).setStation (f st) fun h cur => .inl ⟨st, e, place st h cur⟩).seats seat

theorem State.Moves.dropHold : s.Moves (t.dropHold i) i := by
  refine k.trans ⟨fun seat => ⟨seat.wf, ?_, seat.members, fun x mem => seat.targets x (List.mem_of_mem_filter mem), fun h => ?_⟩, ?_⟩
  · exact seat.nodup.sublist (List.Sublist.map _ List.filter_sublist)
  · exact (t.crowd_dropHold_le i h).trans (seat.crowd h)
  · exact ⟨fun _ _ _ _ => rfl, fun _ _ => rfl, fun x n => by
      refine List.mem_filter.trans (and_iff_left ?_)
      simpa using n⟩

theorem State.Moves.dropStation : s.Moves { t with stations := Table.drop t.stations i } i := by
  refine k.trans ⟨fun seat => ⟨Table.wf_drop seat.wf i, seat.nodup, fun j st h e cur => ?_, seat.targets, fun h => ?_⟩, ?_⟩
  · rw [State.station, Table.get_drop] at e
    split at e
    · cases e
    · exact seat.members j st h e cur
  · exact (State.crowd_dropStation (s := t) (t := { t with stations := Table.drop t.stations i }) (i := i) seat.wf rfl rfl h).trans (seat.crowd h)
  · exact ⟨fun _ _ _ _ => rfl, fun j n => (Table.get_drop _ _ _).trans (if_neg n), fun _ _ => Iff.rfl⟩

/-- The touched station's hold is changed, its place kept. -/
theorem State.Moves.updateHold (f : Hold → Hold) (own : ∀ x, (f x).station = x.station) (place : ∀ x, (f x).target = x.target) :
    s.Moves (t.updateHold i f) i := by
  have holds : (t.updateHold i f).holds = t.holds.map fun x => if x.station = i then f x else x := rfl
  have stations : ((t.updateHold i f).holds.map Hold.station) = t.holds.map Hold.station := by
    rw [holds, List.map_map]
    exact List.map_congr_left fun x _ => by simp only [Function.comp_apply]; split <;> simp [own]
  have target : ∀ x : Hold, (if x.station = i then f x else x).target = x.target := fun x => by split <;> simp [place]
  refine k.trans ⟨fun seat => ⟨seat.wf, by rw [stations]; exact seat.nodup, seat.members, fun x mem => ?_, fun h => ?_⟩, ?_⟩
  · rw [holds] at mem
    obtain ⟨y, hy, rfl⟩ := List.mem_map.1 mem
    rw [target]
    exact seat.targets y hy
  · have same : (t.updateHold i f).crowd h = t.crowd h := by
      rw [State.crowd_eq, State.crowd_eq, holds, List.countP_map]
      have : (fun x : Hold => x.target == h) ∘ (fun x => if x.station = i then f x else x) = fun x => x.target == h :=
        funext fun x => by simp only [Function.comp_apply, target]
      rw [this]; rfl
    rw [same]; exact seat.crowd h
  · refine ⟨fun _ _ _ _ => rfl, fun _ _ => rfl, fun x n => ?_⟩
    rw [holds, List.mem_map]
    constructor
    · rintro ⟨y, hy, rfl⟩
      split at n
      · next own' => exact absurd ((own y).trans own') n
      · next other => rw [if_neg other]; exact hy
    · exact fun mem => ⟨x, mem, if_neg n⟩

theorem State.Moves.keepChans (keep : ChanSet) : s.Moves (t.keepChans i keep) i :=
  (k.updateStation (fun st => { st with chans := st.chans &&& keep }) fun _ _ e => e).updateHold
    (fun x => { x with chans := x.chans &&& keep }) (fun _ => rfl) fun _ => rfl

theorem State.Moves.trim : s.Moves (t.trim i) i := by
  unfold State.trim
  split
  · exact k
  · exact k.keepChans _

theorem State.Moves.setReservation : s.Moves (t.setReservation i) i := by
  unfold State.setReservation
  split
  · exact k
  · next st e =>
    split
    · exact k
    · next h cur =>
      refine k.setStation _ fun g at_ => .inl ⟨st, e, ?_⟩
      have kept : (t.towards h st (t.tierValue st)).current = st.current := by
        unfold State.towards; repeat' split
        all_goals rfl
      exact kept.symm.trans at_

theorem State.Moves.settle : s.Moves (t.settle i) i := by
  unfold State.settle
  dsimp only
  split
  · exact k.setReservation
  · exact k.setReservation.recomputeOf i

theorem State.Moves.releaseHold {x : Hold} (own : x.station = i) : s.Moves (t.releaseHold x) i := by
  subst own
  exact ((k.dropHold).recompute _).drainCheck _

theorem State.Moves.unbindStation : s.Moves (t.unbindStation i) i :=
  ((k.updateStation (fun st => { st with state := if st.state = .seated then .assoc else st.state })
    fun _ _ e => e).setReservation.trim).recomputeBoth i

end

end Sys2Proof.Machine

/-!
PROOF LAYER. Stations, members and holds in order: the pieces of work after which they are (R21, R51, R52, R61).
-/
namespace Sys2Proof.Machine

/-! ## Where a station stands -/

section
variable {s t : State} {i : Nat} {st x : Station}

/-- A vacant record with no hold. -/
theorem State.ShapeAt.gone (vacant : s.station i = none) (free : ∀ y ∈ s.holds, y.station ≠ i) : s.ShapeAt i where
  placed :=
    { stands := fun st e => by rw [vacant] at e; cases e
      held := fun st e => by rw [vacant] at e; cases e
      hold := fun y mem own => absurd own (free y mem) }
  capped st e := by rw [vacant] at e; cases e

/-- A station with no handover and no hold. -/
theorem State.PlacedAt.still (e : s.station i = some st) (free : ∀ y ∈ s.holds, y.station ≠ i) (placed : st.Placed)
    (n : st.state ≠ .moving) : s.PlacedAt i where
  stands y at_ := by cases e.symm.trans at_; exact placed
  held y at_ moving := by cases e.symm.trans at_; exact absurd moving n
  hold y mem own := absurd own (free y mem)

/-- A record that stands where another stood. -/
structure Station.Alike (st x : Station) : Prop where
  state   : x.state = st.state
  current : x.current = st.current
  target  : x.target = st.target
  lapse   : x.lapse = st.lapse
  pass    : x.pass = st.pass
  chans   : x.chans = st.chans

theorem Station.Placed.alike (placed : st.Placed) (a : st.Alike x) (empty : x.state = .lapsed → x.res = 0 ∧ x.capped = false) :
    x.Placed where
  lapsed := by rw [a.current, a.state]; exact placed.lapsed
  moving := by rw [a.target, a.state]; exact placed.moving
  timer := by rw [a.lapse, a.state]; exact placed.timer
  assoc := by rw [a.state, a.pass]; exact placed.assoc
  seated := by rw [a.state, a.pass]; exact placed.seated
  empty := empty

theorem State.PlacedAt.alike (placed : s.PlacedAt i) (e : s.station i = some st) (now : t.station i = some x) (a : st.Alike x)
    (empty : x.state = .lapsed → x.res = 0 ∧ x.capped = false) (holds : t.holds = s.holds) : t.PlacedAt i where
  stands y at_ := by cases now.symm.trans at_; exact (placed.stands st e).alike a empty
  held y at_ moving := by
    cases now.symm.trans at_
    rw [holds]
    exact placed.held st e (a.state ▸ moving)
  hold y mem own := by
    rw [holds] at mem
    obtain ⟨ne, old, e', moving, cur, target, chans⟩ := placed.hold y mem own
    cases e.symm.trans e'
    exact ⟨ne, x, now, a.state.trans moving, a.current.trans cur, a.target.trans target, chans.trans a.chans.symm⟩

/-- A reservation set toward a goal leaves a member where it is; capped, it is below the goal (R51, R52). -/
theorem State.towards_alike (s : State) (h : HeadId) (st : Station) (goal : Nat) : st.Alike (s.towards h st goal) := by
  unfold State.towards
  repeat' split
  all_goals exact ⟨rfl, rfl, rfl, rfl, rfl, rfl⟩

theorem State.towards_capped (s : State) (h : HeadId) (st : Station) (goal : Nat) :
    (s.towards h st goal).capped = true → (s.towards h st goal).res < goal := by
  unfold State.towards
  split
  · next below =>
    split
    · exact fun c => absurd c Bool.false_ne_true
    · exact fun _ => below
  · exact fun c => absurd c Bool.false_ne_true

/-- Wherever a station stands, its reservation set toward its tier value is in order (R51, R52). -/
theorem State.PlacedAt.setReservation (placed : s.PlacedAt i) : (s.setReservation i).ShapeAt i := by
  have idle : (∀ st, s.station i = some st → st.current = none) → s.ShapeAt i := fun lapsed => ⟨placed, fun st e c => by
    have := (placed.stands st e).empty ((placed.stands st e).lapsed.1 (lapsed st e))
    rw [this.2] at c; cases c⟩
  unfold State.setReservation
  split
  · next e => exact idle fun st at_ => by rw [e] at at_; cases at_
  · next st e =>
    split
    · next cur => exact idle fun y at_ => by cases e.symm.trans at_; exact cur
    · next h cur =>
      have alike := s.towards_alike h st (s.tierValue st)
      have now : (s.setStation i (s.towards h st (s.tierValue st))).station i = some (s.towards h st (s.tierValue st)) :=
        (s.station_setStation i i _).trans (if_pos rfl)
      have member : st.state ≠ .lapsed := fun gone => by
        have := (placed.stands st e).lapsed.2 gone
        rw [cur] at this; cases this
      refine ⟨placed.alike e now alike (fun gone => absurd (alike.state.symm.trans gone) member) rfl, fun y at_ => ?_⟩
      cases now.symm.trans at_
      have value : (s.setStation i (s.towards h st (s.tierValue st))).tierValue (s.towards h st (s.tierValue st)) = s.tierValue st :=
        State.tierValue_of_mapView rfl alike.pass
      rw [value]
      exact s.towards_capped h st _

theorem State.PlacedAt.settle (placed : s.PlacedAt i) : (s.settle i).ShapeAt i := by
  have shape := placed.setReservation
  unfold State.settle
  dsimp only
  split
  · exact shape
  · have aside : ((s.setReservation i).recomputeOf i).aside = (s.setReservation i).aside := by
      unfold State.recomputeOf; split
      · rfl
      · exact State.recompute_aside _ _
    refine shape.of_same (State.tierValue_eq_of_aside aside) ?_ ?_
    · unfold State.recomputeOf; split
      · rfl
      · exact State.recompute_stations _ _
    · unfold State.recomputeOf; split
      · rfl
      · exact State.recompute_holds _ _

end

/-! ## Work that keeps the law -/

section
variable {s t : State} (law : s.MovesLaw) (i : Nat)
include law

theorem State.MovesLaw.view (k : s.Moves t 0) (aside : t.aside = s.aside) (stations : t.stations = s.stations)
    (holds : t.holds = s.holds) : t.MovesLaw :=
  law.moves k ((law.shapes 0).of_same (State.tierValue_eq_of_aside aside) stations holds)

theorem State.MovesLaw.recompute (h : HeadId) : (s.recompute h).MovesLaw :=
  law.view ((State.Moves.refl s).recompute h) (s.recompute_aside h) (s.recompute_stations h) (s.recompute_holds h)

theorem State.MovesLaw.send (h : HeadId) (f : LinkFrame) : (s.send h f).MovesLaw := law.of_same rfl rfl rfl fun _ e => e
theorem State.MovesLaw.note (n : Notice) : (s.note n).MovesLaw := law.of_same rfl rfl rfl fun _ e => e

theorem State.MovesLaw.drainCheck (h : HeadId) : (s.drainCheck h).MovesLaw :=
  law.view ((State.Moves.refl s).drainCheck h) (by simp) (by simp) (by simp)

theorem State.MovesLaw.recomputeOf : (s.recomputeOf i).MovesLaw := by
  unfold State.recomputeOf
  split
  · exact law
  · exact law.recompute _

theorem State.MovesLaw.recomputeBoth : (s.recomputeBoth i).MovesLaw := by
  unfold State.recomputeBoth State.recomputeTarget
  split
  · exact law.recomputeOf i
  · exact (law.recomputeOf i).recompute _

theorem State.MovesLaw.recomputeList (hs : List HeadId) : (s.recomputeList hs).MovesLaw := by
  unfold State.recomputeList
  induction hs generalizing s with
  | nil => exact law
  | cons h hs ih => exact ih (law.recompute h)

theorem State.MovesLaw.settle : (s.settle i).MovesLaw :=
  law.moves (State.Moves.refl s).settle (law.shapes i).placed.settle

/-- A station's channel set, and its hold's, kept to some channels. -/
theorem State.MovesLaw.keepChans (keep : ChanSet) : (s.keepChans i keep).MovesLaw := by
  refine law.moves ((State.Moves.refl s).keepChans keep) ?_
  have station : (s.keepChans i keep).station i = (s.station i).map fun st => { st with chans := st.chans &&& keep } :=
    (s.keepChans_station i keep i).trans (if_pos rfl)
  have holds := s.keepChans_holds i keep
  obtain ⟨⟨stands, held, hold⟩, capped⟩ := law.shapes i
  refine ⟨⟨fun x e => ?_, fun x e moving => ?_, fun x mem own => ?_⟩, fun x e c => ?_⟩
  · rw [station] at e
    obtain ⟨st, at_, rfl⟩ := Option.map_eq_some_iff.1 e
    obtain ⟨a, b, c, d, f, g⟩ := stands st at_
    exact ⟨a, b, c, d, f, g⟩
  · rw [station] at e
    obtain ⟨st, at_, rfl⟩ := Option.map_eq_some_iff.1 e
    obtain ⟨y, mem, own⟩ := held st at_ moving
    rw [holds]
    exact ⟨_, List.mem_map_of_mem mem, by rw [if_pos own]; exact own⟩
  · rw [holds] at mem
    obtain ⟨y, hy, rfl⟩ := List.mem_map.1 mem
    by_cases at_ : y.station = i
    · rw [if_pos at_]
      obtain ⟨ne, st, e, moving, cur, target, chans⟩ := hold y hy at_
      exact ⟨ne, _, station.trans (congrArg _ e), moving, cur, target, congrArg (· &&& keep) chans⟩
    · rw [if_neg at_] at own; exact absurd own at_
  · rw [station] at e
    obtain ⟨st, at_, rfl⟩ := Option.map_eq_some_iff.1 e
    have value : (s.keepChans i keep).tierValue { st with chans := st.chans &&& keep } = s.tierValue st :=
      State.tierValue_of_mapView rfl rfl
    rw [value]
    exact capped st at_ c

theorem State.MovesLaw.trim : (s.trim i).MovesLaw := by
  unfold State.trim
  split
  · exact law
  · exact law.keepChans i _

/-- A station's record written where it stood, its reservation as it was. -/
theorem State.MovesLaw.updateStation (f : Station → Station) (alike : ∀ st : Station, st.Alike (f st))
    (res : ∀ st, (f st).res = st.res ∧ (f st).capped = st.capped) : (s.updateStation i f).MovesLaw := by
  refine law.moves ((State.Moves.refl s).updateStation f fun st h e => by rw [← (alike st).current]; exact e) ?_
  have station : (s.updateStation i f).station i = (s.station i).map f := (s.station_updateStation i i f).trans (if_pos rfl)
  cases e : s.station i with
  | none =>
    rw [e] at station
    exact .gone station fun y mem own => by
      obtain ⟨-, st, at_, -⟩ := (law.shapes i).placed.hold y mem own
      rw [e] at at_; cases at_
  | some st =>
    rw [e] at station
    obtain ⟨sameRes, sameCap⟩ := res st
    refine ⟨(law.shapes i).placed.alike e station (alike st) (fun gone => ?_) rfl, fun x at_ c => ?_⟩
    · rw [sameRes, sameCap]
      exact ((law.shapes i).placed.stands st e).empty ((alike st).state ▸ gone)
    · cases station.symm.trans at_
      have value : (s.updateStation i f).tierValue (f st) = s.tierValue st := State.tierValue_of_mapView rfl (alike st).pass
      rw [value, sameRes]
      exact (law.shapes i).capped st e (sameCap ▸ c)

end

end Sys2Proof.Machine

/-!
PROOF LAYER. Stations, members and holds in order: joining a head, leaving one, and handovers (R24-R30, R69, R71-R79).
-/
namespace Sys2Proof.Machine

/-! ## Holds of a station -/

theorem State.holdOf_eq_none {s : State} {i : Nat} (e : s.holdOf i = none) : ∀ y ∈ s.holds, y.station ≠ i := fun y mem own => by
  have := List.find?_eq_none.1 e y mem
  simp [own] at this

theorem State.free_dropHold (s : State) (i : Nat) : ∀ y ∈ (s.dropHold i).holds, y.station ≠ i := fun y mem => by
  simpa using (List.mem_filter.1 mem).2

theorem State.releaseHold_holds (s : State) (x : Hold) : (s.releaseHold x).holds = (s.dropHold x.station).holds := by
  simp [State.releaseHold]

theorem State.releaseHold_stations (s : State) (x : Hold) : (s.releaseHold x).stations = s.stations := by
  rw [State.releaseHold, State.drainCheck_stations, State.recompute_stations]; rfl

theorem State.free_releaseHold (s : State) (x : Hold) : ∀ y ∈ (s.releaseHold x).holds, y.station ≠ x.station := by
  rw [State.releaseHold_holds]; exact s.free_dropHold x.station

/-- A hold placed at a head that serves and has room, for a station that has none. -/
theorem State.Moves.addHold {s t : State} {i : Nat} (k : s.Moves t i) {x : Hold} (own : x.station = i) (free : ∀ y ∈ t.holds, y.station ≠ i)
    (serving : (t.head x.target).serving = true) (room : t.crowd x.target < 64) :
    s.Moves { t with holds := t.holds ++ [x] } i := by
  refine k.trans ⟨fun seat => ⟨seat.wf, ?_, seat.members, fun y mem => ?_, fun h => ?_⟩, ⟨fun _ _ _ _ => rfl, fun _ _ => rfl, fun y n => ?_⟩⟩
  · rw [List.map_append]
    refine List.Nodup.append seat.nodup (List.nodup_singleton _) ?_
    intro j old new
    obtain ⟨y, hy, rfl⟩ := List.mem_map.1 old
    exact free y hy ((List.mem_singleton.1 new).trans own)
  · rcases List.mem_append.1 mem with m | m
    · exact seat.targets y m
    · cases List.mem_singleton.1 m; exact serving
  · have bound := seat.crowd h
    have split : State.crowd { t with holds := t.holds ++ [x] } h = t.crowd h + if x.target == h then 1 else 0 := by
      rw [State.crowd_eq, State.crowd_eq, List.countP_append, List.countP_singleton, Nat.add_assoc]
    rw [split]
    split
    · next at_ =>
      have : x.target = h := beq_iff_eq.1 at_
      rw [this] at room
      omega
    · omega
  · rw [List.mem_append, or_iff_left fun m => n (by rw [List.mem_singleton.1 m]; exact own)]

theorem State.Moves.lapse {s t : State} {i : Nat} (k : s.Moves t i) : s.Moves (t.lapse i) i :=
  k.updateStation (fun st => { st with
      state := .lapsed, current := none, target := none, res := 0, capped := false
      lapse := some (t.now + ms (1000 * t.roam.lapse)) }) fun _ _ c => by cases c

/-! ## Members with no handover -/

theorem Station.standing_cases (st : Station) :
    (st.pass = none ∧ st.standing = .assoc) ∨ (st.pass.isSome ∧ st.standing = .seated) := by
  unfold Station.standing
  cases st.pass with
  | none => exact .inl ⟨rfl, rfl⟩
  | some _ => exact .inr ⟨rfl, rfl⟩

theorem Station.standing_ne (st : Station) : st.standing ≠ .moving ∧ st.standing ≠ .lapsed := by
  obtain ⟨-, e⟩ | ⟨-, e⟩ := st.standing_cases <;> rw [e] <;> decide

/-- A member with no handover, in the state its binding gives. -/
theorem Station.placed_of_standing {x : Station} (state : x.state = x.standing) (cur : x.current ≠ none) (target : x.target = none)
    (lapse : x.lapse = none) : x.Placed := by
  obtain ⟨still, live⟩ := x.standing_ne
  rw [← state] at still live
  refine ⟨iff_of_false cur live, iff_of_false (by rw [target]; exact Bool.false_ne_true) still,
    iff_of_false (by rw [lapse]; exact Bool.false_ne_true) live, fun a => ?_, fun a => ?_, fun a => absurd a live⟩
  · obtain ⟨pass, -⟩ | ⟨-, e⟩ := x.standing_cases
    · exact pass
    · rw [state, e] at a; cases a
  · obtain ⟨-, e⟩ | ⟨pass, -⟩ := x.standing_cases
    · rw [state, e] at a; cases a
    · exact pass

theorem Station.placed_of_moving {x : Station} (state : x.state = .moving) (cur : x.current ≠ none) (target : x.target.isSome)
    (lapse : x.lapse = none) : x.Placed where
  lapsed := iff_of_false cur (by rw [state]; decide)
  moving := iff_of_true target state
  timer := iff_of_false (by rw [lapse]; exact Bool.false_ne_true) (by rw [state]; decide)
  assoc a := by rw [state] at a; cases a
  seated a := by rw [state] at a; cases a
  empty a := by rw [state] at a; cases a

theorem Station.placed_lapsed (st : Station) (due : Nat) : (st.lapsed due).Placed where
  lapsed := iff_of_true rfl rfl
  moving := iff_of_false Bool.false_ne_true StationState.noConfusion
  timer := iff_of_true rfl rfl
  assoc a := by cases a
  seated a := by cases a
  empty _ := ⟨rfl, rfl⟩

section
variable {s : State} (law : s.MovesLaw) {i : Nat} {st : Station}
include law

/-- A station that is not MOVING has no hold. -/
theorem State.MovesLaw.free (e : s.station i = some st) (n : st.state ≠ .moving) : ∀ y ∈ s.holds, y.station ≠ i := by
  intro y mem own
  obtain ⟨-, st', e', moving, -⟩ := (law.shapes i).placed.hold y mem own
  cases e.symm.trans e'
  exact n moving

theorem State.MovesLaw.free_of_vacant (e : s.station i = none) : ∀ y ∈ s.holds, y.station ≠ i := by
  intro y mem own
  obtain ⟨-, st', e', -⟩ := (law.shapes i).placed.hold y mem own
  rw [e] at e'; cases e'

/-- The record of a station with no handover is written: a member where it was, or of a head that serves and has room. -/
theorem State.MovesLaw.setStation {x : Station} (free : ∀ y ∈ s.holds, y.station ≠ i) (placed : x.Placed) (n : x.state ≠ .moving)
    (capped : x.capped = true → x.res < s.tierValue x)
    (place : ∀ h, x.current = some h → (∃ st, s.station i = some st ∧ st.current = some h) ∨ ((s.head h).serving = true ∧ s.crowd h < 64)) :
    (s.setStation i x).MovesLaw := by
  have now : (s.setStation i x).station i = some x := (s.station_setStation i i x).trans (if_pos rfl)
  exact law.moves ((State.Moves.refl s).setStation x place) ⟨.still now free placed n, fun y e => by cases now.symm.trans e; exact capped⟩

/-! ## Joining a head -/

theorem State.MovesLaw.associate {h : HeadId} (on : (s.head h).state = .on) (addr : StationAddress) (rssi : Int) :
    (s.associate h addr rssi).MovesLaw := by
  unfold State.associate
  split
  · exact law.send h _
  · next j free =>
    split
    · exact law.send h _
    · next room =>
      split
      · obtain ⟨-, vacant, -⟩ := (Table.lowestFree_eq_some law.seating.wf).1 free
        refine State.MovesLaw.send (State.MovesLaw.recompute ?_ h) h _
        refine law.setStation (law.free_of_vacant vacant)
          (Station.placed_of_standing rfl (by simp [newStation]) rfl rfl) (by simp [newStation]) (by simp [newStation]) fun g cur => ?_
        cases cur
        exact .inr ⟨by simp [Head.serving, on], Nat.not_le.1 room⟩
      · exact law.send h _

/-- The place a LAPSED station returns to, or a member moves to. -/
theorem State.MovesLaw.returnStation (e : s.station i = some st) (gone : st.state = .lapsed) {h : HeadId} (on : (s.head h).state = .on)
    (rssi : Int) : (s.returnStation h i st rssi).MovesLaw := by
  have placed := (law.shapes i).placed.stands st e
  have target : st.target = none := Option.not_isSome_iff_eq_none.1 fun c => by
    have := gone.symm.trans (placed.moving.1 c); cases this
  have free := law.free e (by rw [gone]; decide)
  have uncapped : st.capped = false := (placed.empty gone).2
  by_cases room : s.crowd h < 64
  · by_cases fits : resSum (s.parties h) + s.unbound ≤ (s.head h).cap
    · rw [State.returnStation_of_room room fits]
      refine State.MovesLaw.send ?_ h _
      have joined : ((s.setStation i (st.back h rssi s.unbound s.nowMs)).recompute h).MovesLaw := by
        refine (law.setStation (x := st.back h rssi s.unbound s.nowMs) free (Station.placed_of_standing rfl (Option.some_ne_none h) target rfl) st.standing_ne.1
          (fun c => ?_) fun g cur => ?_).recompute h
        · have : (st.back h rssi s.unbound s.nowMs).capped = st.capped := rfl
          rw [this, uncapped] at c; cases c
        · cases cur
          exact .inr ⟨by simp [Head.serving, on], room⟩
      unfold State.returned
      dsimp only
      split
      · exact joined.settle i
      · exact joined
    · rw [State.returnStation_of_poor room (Nat.lt_of_not_le fits)]
      exact law.send h _
  · have full : s.returnStation h i st rssi = s.declineAssoc h st.addr .full := if_pos (Nat.le_of_not_lt room)
    rw [full]
    exact law.send h _

theorem State.MovesLaw.directMove (e : s.station i = some st) (still : st.state ≠ .moving) {g h : HeadId} (cur : st.current = some g)
    (on : (s.head h).state = .on) (rssi : Int) : (s.directMove g h i st rssi).MovesLaw := by
  have placed := (law.shapes i).placed.stands st e
  have free := law.free e still
  unfold State.directMove
  split
  · exact law.send h _
  · next room =>
    split
    · have live : st.state ≠ .lapsed := fun gone => by
        have := placed.lapsed.2 gone
        rw [cur] at this; cases this
      have moved : (s.setStation i (st.arrive h rssi s.nowMs)).MovesLaw := by
        refine law.setStation free ⟨iff_of_false (Option.some_ne_none h) live, placed.moving, placed.timer, placed.assoc, placed.seated,
          placed.empty⟩ still ((law.shapes i).capped st e) fun k at_ => ?_
        cases at_
        exact .inr ⟨by simp [Head.serving, on], Nat.not_le.1 room⟩
      exact ((((moved.send g _).send h _).recompute g).recompute h).drainCheck g
    · exact law.send h _

/-! ## Handovers -/

theorem State.MovesLaw.startHandover (e : s.station i = some st) (idle : st.state = .assoc ∨ st.state = .seated) {here target : HeadId}
    (cur : st.current = some here) (ne : here ≠ target) (serving : (s.head target).serving = true) (room : s.crowd target < 64)
    (rssi : Int) (o : RoamOrigin) : (s.startHandover i st here target rssi o).MovesLaw := by
  have placed := (law.shapes i).placed.stands st e
  have still : st.state ≠ .moving := by rcases idle with c | c <;> rw [c] <;> decide
  have live : st.state ≠ .lapsed := by rcases idle with c | c <;> rw [c] <;> decide
  have free := law.free e still
  unfold State.startHandover
  dsimp only
  refine State.MovesLaw.send (State.MovesLaw.recompute ?_ target) target _
  have crowd : (s.setStation i { st with state := .moving, target := some target }).crowd target = s.crowd target := by
    have counted := State.crowd_setStation law.seating.wf i { st with state := .moving, target := some target } target
    rw [e, Option.any_some] at counted
    exact Nat.add_right_cancel counted
  have k := ((State.Moves.refl s).setStation { st with state := .moving, target := some target } fun h at_ => .inl ⟨st, e, at_⟩).addHold
    (x := ⟨i, here, target, st.res, st.chans, rssi, rateClass rssi, o, s.now + ms 50⟩) rfl free serving (by rw [crowd]; exact room)
  have now : (s.setStation i { st with state := .moving, target := some target }).station i
      = some { st with state := .moving, target := some target } := (s.station_setStation i i _).trans (if_pos rfl)
  refine law.moves k ⟨⟨fun x at_ => ?_, fun x at_ _ => ?_, fun y mem own => ?_⟩, fun x at_ c => ?_⟩
  · cases now.symm.trans at_
    exact Station.placed_of_moving rfl (by rw [cur]; exact Option.some_ne_none here) rfl
      (Option.not_isSome_iff_eq_none.1 fun c => live (placed.timer.1 c))
  · exact ⟨_, List.mem_append_right _ (List.mem_singleton.2 rfl), rfl⟩
  · rcases List.mem_append.1 mem with m | m
    · exact absurd own (free y m)
    · cases List.mem_singleton.1 m
      exact ⟨ne, _, now, rfl, cur, rfl, rfl⟩
  · cases now.symm.trans at_
    exact (law.shapes i).capped st e c

/-- A handover undone leaves its station back at its source (R73, R74). -/
theorem State.MovesLaw.undoHandover {x : Hold} (mem : x ∈ s.holds) (r : RoamEnd) : (s.undoHandover x r).MovesLaw := by
  obtain ⟨-, st, e, moving, cur, -⟩ := (law.shapes x.station).placed.hold x mem rfl
  have placed := (law.shapes x.station).placed.stands st e
  have k := (((State.Moves.refl s).releaseHold (x := x) rfl).updateStation (fun st => st.returned s.nowMs) fun _ _ c => c).noteHostEnd x r
  refine law.moves k ?_
  have now : (s.undoHandover x r).station x.station = some (st.returned s.nowMs) := by
    rw [State.undoHandover, State.station, State.noteHostEnd_stations]
    refine ((s.releaseHold x).station_updateStation x.station x.station _).trans ?_
    rw [if_pos rfl, State.station, State.releaseHold_stations, show Table.get s.stations x.station = some st from e]
    rfl
  have free : ∀ y ∈ (s.undoHandover x r).holds, y.station ≠ x.station := by
    rw [State.undoHandover, State.noteHostEnd_holds]; exact s.free_releaseHold x
  have lapse : st.lapse = none := Option.not_isSome_iff_eq_none.1 fun c => by
    have := moving.symm.trans (placed.timer.1 c); cases this
  refine ⟨.still now free (Station.placed_of_standing rfl (by rw [Station.returned, cur]; exact Option.some_ne_none _) rfl lapse)
    st.standing_ne.1, fun y at_ c => ?_⟩
  cases now.symm.trans at_
  have value : (s.undoHandover x r).tierValue (st.returned s.nowMs) = s.tierValue st :=
    State.tierValue_of_mapView ((State.Keeps.refl s).undoHandover x r).mapView rfl
  rw [value]
  exact (law.shapes x.station).capped st e c

/-- A handover completed makes its station a member of its target (R71, R72). -/
theorem State.MovesLaw.land (e : s.station i = some st) {x : Hold} (mem : x ∈ s.holds) (own : x.station = i) :
    (s.land i st x).MovesLaw := by
  subst own
  obtain ⟨-, st', e', moving, cur, -⟩ := (law.shapes x.station).placed.hold x mem rfl
  cases e.symm.trans e'
  have placed := (law.shapes x.station).placed.stands st e
  have lapse : st.lapse = none := Option.not_isSome_iff_eq_none.1 fun c => by
    have := moving.symm.trans (placed.timer.1 c); cases this
  have room : ((s.send x.source (.release st.addr)).dropHold x.station).crowd x.target < 64 :=
    Nat.lt_of_lt_of_le (State.crowd_dropHold_lt (s := s) mem) (law.seating.crowd x.target)
  have k := (((State.Moves.refl s).send x.source (.release st.addr)).dropHold).setStation (st.landed x s.nowMs) fun h at_ => by
    cases at_
    exact .inr ⟨law.seating.targets x mem, room⟩
  set t := ((s.send x.source (.release st.addr)).dropHold x.station).setStation x.station (st.landed x s.nowMs) with t_eq
  have now : t.station x.station = some (st.landed x s.nowMs) := (State.station_setStation _ _ _ _).trans (if_pos rfl)
  have there : t.PlacedAt x.station := .still now (s.free_dropHold x.station)
    (Station.placed_of_standing rfl (Option.some_ne_none x.target) rfl lapse) st.standing_ne.1
  have settled : (((t.recompute x.source).recompute x.target).settle x.station).MovesLaw :=
    law.moves ((k.recompute x.source).recompute x.target).settle
      (State.PlacedAt.settle (there.of_same (by simp) (by simp)))
  exact (settled.drainCheck x.source).note _

/-! ## Leaving a head -/

/-- A member lost is LAPSED with no hold (R28, R76). -/
theorem State.MovesLaw.loseMember (i : Nat) : (s.loseMember i).MovesLaw := by
  have finish : ∀ {t : State}, s.Moves t i → (∀ y ∈ t.holds, y.station ≠ i) →
      (∀ x, t.station i = some x → ∃ (st : Station) (due : Nat), x = st.lapsed due) → t.MovesLaw := by
    intro t k free lapsed
    refine law.moves k ⟨⟨fun x e => ?_, fun x e moving => ?_, fun y mem own => absurd own (free y mem)⟩, fun x e c => ?_⟩
    · obtain ⟨st, due, rfl⟩ := lapsed x e
      exact st.placed_lapsed due
    · obtain ⟨st, due, rfl⟩ := lapsed x e
      cases moving
    · obtain ⟨st, due, rfl⟩ := lapsed x e
      cases c
  have written : ∀ (u : State) x, (u.lapse i).station i = some x → ∃ (st : Station) (due : Nat), x = st.lapsed due := by
    intro u x e
    rw [State.station, State.lapse_stations, Table.get_change] at e
    obtain ⟨st, -, rfl⟩ := Option.map_eq_some_iff.1 e
    exact ⟨st, u.lapseDue, if_pos rfl⟩
  unfold State.loseMember
  split
  · next x some_ =>
    obtain ⟨mem, rfl⟩ := (State.holdOf_eq_some law.seating.nodup).1 some_
    refine finish ((((State.Moves.refl s).cancel x).releaseHold rfl).lapse.noteHostEnd x .aborted) ?_ ?_
    · rw [State.abortSourceLost, State.noteHostEnd_holds]; exact State.free_releaseHold _ x
    · intro y e
      rw [State.abortSourceLost, State.station, State.noteHostEnd_stations] at e
      exact written _ y e
  · next none_ => 
    exact finish (State.Moves.refl s).lapse (State.holdOf_eq_none none_) (written s)

end

end Sys2Proof.Machine

/-!
PROOF LAYER. Stations, members and holds in order: vacating, and the work on passes (R30, R89, R91-R103, R114, R125-R134).
-/
namespace Sys2Proof.Machine

/-! ## Tier values while passes change -/

theorem State.tierValue_congr {s t : State} {st : Station} (unbound : t.unbound = s.unbound) (tiers : t.tiers = s.tiers)
    (pass : ∀ p, st.pass = some p → (t.pass p).map Pass.tier = (s.pass p).map Pass.tier) : t.tierValue st = s.tierValue st := by
  unfold State.tierValue
  split
  · exact unbound
  · next p bound =>
    have same := pass p bound
    cases hs : s.pass p with
    | none =>
      rw [hs] at same
      rw [Option.map_eq_none_iff.1 same]
      exact unbound
    | some q =>
      rw [hs] at same
      obtain ⟨q', ht, tier⟩ := Option.map_eq_some_iff.1 same
      rw [ht]
      simp only [tiers, tier]

/-- Work that leaves stations and holds alone, and the tier value of every station that stands. -/
theorem State.MovesLaw.of_values {s t : State} (law : s.MovesLaw)
    (value : ∀ j st, s.station j = some st → t.tierValue st = s.tierValue st) (stations : t.stations = s.stations)
    (holds : t.holds = s.holds) (heads : t.heads = s.heads) : t.MovesLaw where
  seating := law.seating.of_same stations holds fun h e => by rw [State.head_congr heads]; exact e
  shapes j :=
    { placed := (law.shapes j).placed.of_same stations holds
      capped := fun st e => by
        have old : s.station j = some st := by rw [← e, State.station, State.station, stations]
        rw [value j st old]
        exact (law.shapes j).capped st old }

/-! ## Vacating -/

section
variable {s : State} {i : Nat}

theorem State.Moves.unbindPass {t : State} (k : s.Moves t i) {p : Nat} (own : ∀ j, (t.pass p).bind Pass.station = some j → j = i)
    (after : PassState) : s.Moves (t.unbindPass p after) i := by
  unfold State.unbindPass
  split
  · exact k
  · next q e =>
    have first : s.Moves ((t.setPass p { q with station := none, state := after }).censusMove q.cached (some q.state) (some after)) i :=
      k.trans (.of_same (State.tierValue_eq_of_mapView (by
        rw [State.mapView_censusMove, State.mapView_setPass (x := { q with station := none, state := after }) e rfl])) rfl rfl fun _ c => c)
    dsimp only
    split
    · exact first
    · next j bound =>
      obtain rfl := own j (by rw [e]; exact bound)
      exact first.updateStation (fun st => { st with pass := none }) fun _ _ c => c

theorem State.free_endHandover (s : State) (i : Nat) (tell : Bool) : ∀ y ∈ (s.endHandover i tell).holds, y.station ≠ i := by
  unfold State.endHandover
  split
  · next e => exact State.holdOf_eq_none e
  · next x e =>
    have own : x.station = i := by simpa using List.find?_some e
    subst own
    rw [State.abortDeparture, State.noteHostEnd_holds]
    exact State.free_releaseHold _ x

theorem State.endHandover_moves (s : State) (i : Nat) (tell : Bool) : s.Moves (s.endHandover i tell) i := by
  unfold State.endHandover
  split
  · exact .refl s
  · next x e =>
    have own : x.station = i := by simpa using List.find?_some e
    unfold State.abortDeparture
    split
    · exact (((State.Moves.refl s).cancel x).releaseHold own).noteHostEnd x _
    · exact ((State.Moves.refl s).releaseHold own).noteHostEnd x _

theorem State.Moves.leaveHead {t : State} (k : s.Moves t i) (st : Station) (tell : Bool) : s.Moves (t.leaveHead i st tell) i := by
  unfold State.leaveHead
  split
  · exact k.dropStation
  · dsimp only
    split
    · exact ((k.send _ _).dropStation.recompute _).drainCheck _
    · exact (k.dropStation.recompute _).drainCheck _

theorem State.leaveHead_holds (s : State) (i : Nat) (st : Station) (tell : Bool) : (s.leaveHead i st tell).holds = s.holds := by
  unfold State.leaveHead
  split
  · rfl
  · dsimp only
    rw [State.drainCheck_holds, State.recompute_holds]
    split <;> rfl

/-- A record vacated: its pass, if it has one, names it alone (R30, R123). -/
theorem State.MovesLaw.vacate (law : s.MovesLaw) (binding : s.BindingInv) (i : Nat) (a b : Bool) : (s.vacate i a b).MovesLaw := by
  cases e : s.station i with
  | none => rw [State.vacate_of_vacant e]; exact law
  | some st =>
    have k := s.endHandover_moves i b
    have passes : ∀ p, (s.endHandover i b).pass p = s.pass p := fun p => by
      rw [State.pass, State.passes_of_aside (s.endHandover_keeps i b).aside]; rfl
    have freed : s.Moves ((s.endHandover i b).freePass st) i := by
      unfold State.freePass
      split
      · exact k
      · next p bound =>
        refine k.unbindPass (fun j own => ?_) _
        obtain ⟨q, held, holder⟩ := binding.2.1 i st p e bound
        rw [passes, held, Option.bind_some, holder] at own
        exact (Option.some.inj own).symm
    refine law.moves (t := s.vacate i a b) ?_ (.gone (s.vacate_station i a b) ?_)
    · rw [State.vacate_eq e]; exact freed.leaveHead st a
    · obtain ⟨-, -, -, -, holds, -⟩ := (s.endHandover i b).freePass_keeps st
      rw [State.vacate_eq e, State.leaveHead_holds, holds]
      exact s.free_endHandover i b

/-! ## Binding and unbinding -/

/-- A pass record rewritten with its tier. -/
theorem State.MovesLaw.setPass (law : s.MovesLaw) {p : Nat} {q x : Pass} (held : s.pass p = some q) (tier : x.tier = q.tier) :
    (s.setPass p x).MovesLaw := by
  refine law.of_values (fun j st _ => State.tierValue_congr rfl rfl fun k _ => ?_) rfl rfl rfl
  rw [State.pass_setPass]
  split
  · next same => rw [same, held, Option.map_some, Option.map_some, tier]
  · rfl

theorem State.MovesLaw.count (law : s.MovesLaw) (z : Option ZoneId) (f : Zone → Zone) : (s.count z f).MovesLaw :=
  law.of_values (fun _ _ _ => State.tierValue_congr rfl rfl fun _ _ => rfl) rfl rfl rfl

/-- A station left unbound, its reservation and channel set aside (R96, R97). -/
def Station.unbound (st : Station) : Station :=
  { st with pass := none, state := if st.state = .seated then .assoc else st.state }

theorem Station.unbound_state_iff (st : Station) {c : StationState} (n : c ≠ .assoc) (m : c ≠ .seated) :
    st.unbound.state = c ↔ st.state = c := by
  unfold Station.unbound
  dsimp only
  split
  · next was => rw [was]; exact iff_of_false (Ne.symm n) (Ne.symm m)
  · rfl

theorem Station.Placed.unbound {st : Station} (placed : st.Placed) : st.unbound.Placed where
  lapsed := placed.lapsed.trans (st.unbound_state_iff (by decide) (by decide)).symm
  moving := placed.moving.trans (st.unbound_state_iff (by decide) (by decide)).symm
  timer := placed.timer.trans (st.unbound_state_iff (by decide) (by decide)).symm
  assoc _ := rfl
  seated c := by
    unfold Station.unbound at c
    dsimp only at c
    split at c
    · cases c
    · next was => exact absurd c was
  empty c := placed.empty ((st.unbound_state_iff (by decide) (by decide)).1 c)

/-- An unbinding: the station, if there is one, is left as an unbound one (R96, R97). -/
theorem State.MovesLaw.unbind (law : s.MovesLaw) (p : Nat) (a : PassState) : (s.unbind p a).MovesLaw := by
  unfold State.unbind
  split
  · next none_ =>
    refine law.of_same (State.tierValue_eq_of_mapView (s.mapView_unbindPass p a)) ?_ ?_ fun h => ?_
    · unfold State.unbindPass
      split
      · rfl
      · next q held =>
        rw [held, Option.bind_some] at none_
        simp only [none_]
        rfl
    · unfold State.unbindPass; repeat' split
      all_goals rfl
    · rw [State.serving_of_headsView (s.unbindPass_headsView p a)]
      exact id
  · next i bound =>
    obtain ⟨q, held, own⟩ := Option.bind_eq_some_iff.1 bound
    have k : s.Moves (s.unbindPass p a) i := (State.Moves.refl s).unbindPass (fun j e => Option.some.inj (e.symm.trans bound)) a
    have ku := k.updateStation (fun st => { st with state := if st.state = .seated then .assoc else st.state }) fun _ _ c => c
    set u := (s.unbindPass p a).updateStation i fun st => { st with state := if st.state = .seated then .assoc else st.state } with u_eq
    have station : u.station i = (s.station i).map Station.unbound := by
      rw [u_eq, State.station_updateStation, if_pos rfl, State.unbindPass_station held, if_pos own, Option.map_map]
      rfl
    have holds : u.holds = s.holds := by
      show (s.unbindPass p a).holds = s.holds
      unfold State.unbindPass; repeat' split
      all_goals rfl
    obtain ⟨⟨stands, has, hold⟩, -⟩ := law.shapes i
    have placed : u.PlacedAt i := by
      refine ⟨fun x e => ?_, fun x e moving => ?_, fun y mem at_ => ?_⟩
      · rw [station] at e
        obtain ⟨st, at_, rfl⟩ := Option.map_eq_some_iff.1 e
        exact (stands st at_).unbound
      · rw [station] at e
        obtain ⟨st, at_, rfl⟩ := Option.map_eq_some_iff.1 e
        rw [holds]
        exact has st at_ ((st.unbound_state_iff (by decide) (by decide)).1 moving)
      · rw [holds] at mem
        obtain ⟨ne, st, e, moving, cur, target, chans⟩ := hold y mem at_
        exact ⟨ne, st.unbound, by rw [station, e]; rfl, (st.unbound_state_iff (by decide) (by decide)).2 moving, cur, target, chans⟩
    have reserved : (u.setReservation i).MovesLaw := law.moves ku.setReservation placed.setReservation
    exact (reserved.trim i).recomputeBoth i

end

end Sys2Proof.Machine

/-!
PROOF LAYER. Stations, members and holds in order: what the passes' commands do to them (R89, R91-R103, R114, R125-R134).
-/
namespace Sys2Proof.Machine

section
variable {s : State} (law : s.MovesLaw) {i p : Nat} {st : Station} {q : Pass}
include law

/-! ## Binding -/

/-- An unbound member with no handover is bound, and its reservation set toward its tier value (R128). -/
theorem State.MovesLaw.bindStation (e : s.station i = some st) (idle : st.state = .assoc) (p : Nat) :
    (s.bindStation i p st).MovesLaw := by
  obtain ⟨lapsed, moving, timer, -, -, -⟩ := (law.shapes i).placed.stands st e
  rw [idle] at lapsed moving timer
  have k := (State.Moves.refl s).setStation (i := i) { st with state := .seated, pass := some p } fun h at_ => .inl ⟨st, e, at_⟩
  have now : (s.setStation i { st with state := .seated, pass := some p }).station i = some { st with state := .seated, pass := some p } :=
    (s.station_setStation i i _).trans (if_pos rfl)
  refine law.moves k.settle (State.PlacedAt.settle (.still now (law.free e (by rw [idle]; decide)) ?_ StationState.noConfusion))
  refine Station.placed_of_standing rfl (fun c => ?_) (Option.not_isSome_iff_eq_none.1 fun c => ?_)
    (Option.not_isSome_iff_eq_none.1 fun c => ?_)
  · cases lapsed.1 c
  · cases moving.1 c
  · cases timer.1 c

theorem State.MovesLaw.bind (e : s.station i = some st) (idle : st.state = .assoc) (held : s.pass p = some q) :
    (s.bind i p st q).MovesLaw :=
  State.MovesLaw.bindStation ((law.setPass (x := { q with state := .seated, station := some i }) held rfl).count q.cached
    (Zone.moved (some .admitted) (some .seated))) e idle p

/-- A transfer: the LAPSED holder is left unbound and trimmed first (R130, R131). -/
theorem State.MovesLaw.transfer (e : s.station i = some st) (idle : st.state = .assoc) (held : s.pass p = some q) {holder : Nat}
    {x : Station} (other : holder ≠ i) (there : s.station holder = some x) (gone : x.state = .lapsed) :
    (s.transfer i p holder st q).MovesLaw := by
  have named : (s.setPass p { q with station := some i }).MovesLaw := law.setPass held rfl
  set u := s.setPass p { q with station := some i } with u_eq
  have at_ : u.station holder = some x := there
  obtain ⟨lapsed, moving, timer, -, -, empty⟩ := (named.shapes holder).placed.stands x at_
  have now : (u.updateStation holder fun y => { y with pass := none }).station holder = some { x with pass := none } := by
    rw [State.station_updateStation, if_pos rfl, at_]; rfl
  have cleared : (u.updateStation holder fun y => { y with pass := none }).MovesLaw := by
    refine named.moves ((State.Moves.refl u).updateStation (i := holder) (fun y => { y with pass := none }) fun _ _ c => c)
      ⟨.still now (named.free at_ (by rw [gone]; decide)) ⟨lapsed, moving, timer, fun _ => rfl, fun c => ?_, empty⟩
        (by rw [gone]; decide), fun y at' c => ?_⟩
    · exact absurd (gone.symm.trans c) (by decide)
    · cases now.symm.trans at'
      have uncapped : x.capped = false := (empty gone).2
      have : x.capped = true := c
      rw [uncapped] at this; cases this
  refine (cleared.trim holder).bindStation ?_ idle p
  have kept := ((State.Moves.refl u).updateStation (i := holder) (fun y => { y with pass := none }) fun _ _ c => c).trim.touches.others i
    other.symm
  exact kept.trans e

theorem State.MovesLaw.suspectIf {x : Pass} (held : s.pass p = some q) (tier : x.tier = q.tier) (r : Bool) (c : SuspectCause) :
    (s.suspectIf p x r c).MovesLaw := by
  unfold State.suspectIf
  split
  · exact (law.setPass (x := { x with suspect := true }) held tier).note _
  · exact law.setPass held tier

theorem State.MovesLaw.conflict (held : s.pass p = some q) : (s.conflict p q).MovesLaw := by
  unfold State.conflict
  dsimp only
  split
  · exact law.suspectIf (x := { q with conflicts := q.conflicts + 1 }) held rfl _ _
  · exact law

/-- A member that is not MOVING and has no pass is ASSOC. -/
theorem State.MovesLaw.assoc_of_unbound (e : s.station i = some st) {h : HeadId} (cur : st.current = some h) (still : st.state ≠ .moving)
    (unbound : st.pass = none) : st.state = .assoc := by
  have placed := (law.shapes i).placed.stands st e
  cases c : st.state with
  | assoc => rfl
  | seated =>
    have := placed.seated c
    rw [unbound] at this; cases this
  | moving => exact absurd c still
  | lapsed =>
    have := placed.lapsed.2 c
    rw [cur] at this; cases this

theorem State.MovesLaw.bindRequest (binding : s.BindingInv) (e : s.station i = some st) {h : HeadId} (cur : st.current = some h)
    (m : PassNumber) : (s.bindRequest h m i st).MovesLaw := by
  unfold State.bindRequest
  dsimp only
  split
  · exact law.send h _
  · next still =>
    split
    · exact law.send h _
    · next p _ =>
      split
      · exact law.send h _
      · next q held =>
        split
        case h_4 admitted =>
          split
          · exact law.send h _
          · next free =>
            exact (law.bind e (law.assoc_of_unbound e cur still (by simpa using free)) held).send h _
        case h_5 seated =>
          split
          · exact law.send h _
          · next free =>
            split
            · exact law.send h _
            · next other =>
              split
              · exact law.send h _
              · next holder bound =>
                split
                · next gone =>
                  have unbound : st.pass = none := by
                    cases own : st.pass with
                    | none => rfl
                    | some p' =>
                      have same : p' = p := by simpa [own] using free
                      subst same
                      obtain ⟨q', held', back⟩ := binding.2.1 i st p' e own
                      rw [held] at held'; cases held'
                      exact absurd back other
                  obtain ⟨x, there, lapsed⟩ := Option.map_eq_some_iff.1 gone
                  refine (law.transfer e (law.assoc_of_unbound e cur still unbound) held ?_ there lapsed).send h _
                  rintro rfl
                  exact other bound
                · exact (law.conflict held).send h _
        all_goals exact law.send h _

omit i in
theorem State.MovesLaw.unbindRequest (h : HeadId) (i : Nat) (st : Station) : (s.unbindRequest h i st).MovesLaw := by
  unfold State.unbindRequest
  split
  · exact law.send h _
  · exact (law.unbind _ _).send h _

/-! ## Scans -/

theorem State.MovesLaw.passback (held : s.pass p = some q) : (s.passback p q).MovesLaw :=
  law.suspectIf (x := { q with passbacks := countUp 255 q.passbacks }) held rfl _ _

theorem State.MovesLaw.admitPass {x : Pass} (held : s.pass p = some q) (tier : x.tier = q.tier) (gate : Nat) :
    (s.admitPass p gate x).MovesLaw :=
  (law.setPass (x := { x with state := .admitted, lastGate := some gate }) held tier).count x.cached _

theorem State.MovesLaw.scan (held : s.pass p = some q) (gate : Nat) (dir : ScanDirection) : (s.scan p gate q dir).state.MovesLaw := by
  have entered : (s.scanIn p gate q).1.MovesLaw := by
    unfold State.scanIn
    split
    · exact law.admitPass held rfl gate
    · split
      · exact law.admitPass (x := { q with reentries := q.reentries + 1 }) held rfl gate
      · exact law
    · exact law.passback held
    · exact law.passback held
    · exact law
  have stamped : ((s.unbind p .out).updatePass p fun x => { x with lastGate := some gate }).MovesLaw :=
    (law.unbind p .out).of_same (State.tierValue_eq_of_mapView (State.mapView_updatePass _ p fun _ => rfl)) rfl rfl fun _ c => c
  have left_ : (s.scanOut p gate q).1.MovesLaw := by
    unfold State.scanOut
    split
    · exact law.passback held
    · exact law.passback held
    · exact stamped
    · exact stamped
    · exact law
  unfold State.scan
  cases dir with
  | into => dsimp only; split <;> exact entered
  | outOf => dsimp only; split <;> exact left_

/-! ## Loading, amending, dropping -/

/-- The pass records changed at one index that no station names. -/
theorem State.MovesLaw.passes_but {t : State} (free : ∀ j st, s.station j = some st → st.pass ≠ some p)
    (others : ∀ k, k ≠ p → t.pass k = s.pass k) (unbound : t.unbound = s.unbound) (tiers : t.tiers = s.tiers)
    (stations : t.stations = s.stations) (holds : t.holds = s.holds) (heads : t.heads = s.heads) : t.MovesLaw :=
  law.of_values (fun j st e => State.tierValue_congr unbound tiers fun k bound => by
    rw [others k fun same => free j st e (same ▸ bound)]) stations holds heads

theorem State.MovesLaw.loadEntries (wf : Table.wf s.passes) (bound : s.PassesHeld) (es : List PassEntry) :
    (s.loadEntries es).1.MovesLaw := by
  have one : ∀ (u : State) (e : PassEntry), u.MovesLaw → Table.wf u.passes → u.PassesHeld →
      (u.loadEntry e).1.MovesLaw ∧ Table.wf (u.loadEntry e).1.passes ∧ (u.loadEntry e).1.PassesHeld := by
    intro u e law wf b
    unfold State.loadEntry
    split
    · split
      · exact ⟨law, wf, b⟩
      · split
        · exact ⟨law, wf, b⟩
        · exact ⟨law, wf, b⟩
        · next p _ free =>
          obtain ⟨-, vacant, -⟩ := (Table.lowestFree_eq_some wf).1 free
          have vacant : u.pass p = none := vacant
          refine ⟨law.passes_but (p := p) (fun j st at_ own => ?_) (fun k n => ?_) rfl rfl rfl rfl rfl, Table.wf_put wf _ _,
            fun j st k at_ own => ?_⟩
          · have := b j st p at_ own
            rw [vacant] at this; cases this
          · rw [State.pass_setPass, if_neg n]
          · rw [State.pass_setPass]
            split
            · rfl
            · exact b j st k at_ own
    · exact ⟨law, wf, b⟩
  induction es generalizing s with
  | nil => exact law
  | cons e es ih =>
    obtain ⟨law, wf, b⟩ := one s e law wf bound
    exact ih law wf b

/-- A station brought into line, wherever it stood (R101). -/
theorem State.bringIntoLine_law {t : State} (k : s.Moves t i) (placed : t.PlacedAt i) : (t.bringIntoLine i).MovesLaw := by
  have reserved : (t.setReservation i).MovesLaw := law.moves k.setReservation placed.setReservation
  unfold State.bringIntoLine
  dsimp only
  split
  · exact (reserved.trim i).recomputeBoth i
  · exact reserved.recomputeOf i

/-- A pass amended: its tier may move the tier value of the station bound to it alone (R100, R101). -/
theorem State.MovesLaw.amend (binding : s.BindingInv) (held : s.pass p = some q) (tier : Tier) (seat : Option (BitVec 16))
    (declared : Option ZoneId) : (s.amend p q tier seat declared).MovesLaw := by
  set x : Pass := { q with tier := tier, seat := seat, declared := declared, cached := s.cachedZone seat declared } with hx
  set t := (s.setPass p x).rezoneCounts q.state q.cached x.cached with ht
  have stations : t.stations = s.stations := State.rezoneCounts_stations ..
  have others : ∀ k, k ≠ p → t.pass k = s.pass k := fun k n => by
    rw [ht, State.pass, State.rezoneCounts_passes]; exact Table.get_put_other _ _ n
  obtain ⟨holds, heads, unbound, tiers⟩ : t.holds = s.holds ∧ t.heads = s.heads ∧ t.unbound = s.unbound ∧ t.tiers = s.tiers := by
    rw [ht]; unfold State.rezoneCounts; split <;> exact ⟨rfl, rfl, rfl, rfl⟩
  have holder : ∀ j st, s.station j = some st → st.pass = some p → q.state = .seated ∧ q.station = some j := by
    intro j st e b
    obtain ⟨q', held', own⟩ := binding.2.1 j st p e b
    rw [held] at held'; cases held'
    exact ⟨(binding.2.2 p q held).1 (by rw [own]; rfl), own⟩
  have amended : s.amend p q tier seat declared = (match q.state, q.station with
      | .seated, some i => if q.tier = tier ∧ q.cached = x.cached then t.settle i else t.bringIntoLine i
      | _, _ => t) := rfl
  rw [amended]
  split
  · next i seated own =>
    have k : s.Moves t i := by
      refine ⟨fun seat => seat.of_same stations holds fun h c => by rw [State.head_congr heads]; exact c,
        ⟨fun j st n e => State.tierValue_congr unbound tiers fun m bound => ?_, fun j _ => by rw [State.station, stations]; rfl,
          fun _ _ => by rw [holds]⟩⟩
      rw [others m]
      rintro rfl
      exact n (Option.some.inj ((holder j st e bound).2.symm.trans own))
    have placed : t.PlacedAt i := (law.shapes i).placed.of_same stations holds
    split
    · exact law.moves k.settle placed.settle
    · exact State.bringIntoLine_law law k placed
  · next none_ =>
    refine law.passes_but (p := p) (fun j st e b => ?_) others unbound tiers stations holds heads
    obtain ⟨seated, own⟩ := holder j st e b
    exact none_ j seated own

omit law in
/-- No station names a pass that has been unbound (R96). -/
theorem State.unbind_free (binding : s.BindingInv) (p : Nat) (a : PassState) {j : Nat} {x : Station}
    (e : (s.unbind p a).station j = some x) : x.pass ≠ some p := by
  intro bound
  by_cases touched : (s.pass p).bind Pass.station = some j
  · obtain ⟨q, held, own⟩ := Option.bind_eq_some_iff.1 touched
    unfold State.unbind at e
    rw [touched] at e
    obtain ⟨y, hy, -, pass, -⟩ := ((State.Keeps.refl (s.unbindPass p a)).unbindStation j).old j x e
    rw [State.unbindPass_station held, if_pos own] at hy
    obtain ⟨st, -, rfl⟩ := Option.map_eq_some_iff.1 hy
    rw [pass] at bound; cases bound
  · obtain ⟨st, at_, -, pass, -⟩ := (State.unbind_rebinds (s := s) p a).others j touched x e
    obtain ⟨q, held, own⟩ := binding.2.1 j st p at_ (pass.symm.trans bound)
    exact touched (by rw [held]; exact own)

theorem State.MovesLaw.drop (binding : s.BindingInv) (p : Nat) :
    ({ s.unbind p .void with passes := Table.drop (s.unbind p .void).passes p } : State).MovesLaw :=
  (law.unbind p .void).passes_but (p := p) (fun _ _ e => State.unbind_free binding p .void e)
    (fun _ n => (Table.get_drop _ _ _).trans (if_neg n)) rfl rfl rfl rfl rfl

/-! ## Zones -/

/-- Work on the zones and the re-zone pass alone. -/
theorem State.MovesLaw.zones {t : State} (passes : t.passes = s.passes) (unbound : t.unbound = s.unbound) (tiers : t.tiers = s.tiers)
    (stations : t.stations = s.stations) (holds : t.holds = s.holds) (heads : t.heads = s.heads) : t.MovesLaw :=
  law.of_values (fun _ _ _ => State.tierValue_congr unbound tiers fun k _ => by rw [State.pass, passes]; rfl) stations holds heads

theorem State.MovesLaw.visitPass (p : Nat) : (s.visitPass p).MovesLaw := by
  unfold State.visitPass
  split
  · exact law
  · next q held =>
    have zoned : (s.visitZone p q).MovesLaw := by
      unfold State.visitZone
      dsimp only
      split
      · exact law
      · have moved : ((s.setPass p { q with cached := s.cachedZone q.seat q.declared }).rezoneCounts q.state q.cached
            (s.cachedZone q.seat q.declared)).MovesLaw := by
          have written : (s.setPass p { q with cached := s.cachedZone q.seat q.declared }).MovesLaw := law.setPass held rfl
          unfold State.rezoneCounts
          split
          · exact written
          · exact (written.count _ _).count _ _
        split
        · exact moved.zones rfl rfl rfl rfl rfl rfl
        · exact moved.zones rfl rfl rfl rfl rfl rfl
    unfold State.visitStation
    split
    · next i _ _ =>
      split
      · exact ((zoned.trim i).recomputeBoth i).zones rfl rfl rfl rfl rfl rfl
      · exact zoned
    · exact zoned

theorem State.MovesLaw.advanceCursor : s.advanceCursor.MovesLaw := by
  unfold State.advanceCursor
  dsimp only
  repeat' split
  all_goals exact law.zones rfl rfl rfl rfl rfl rfl

end

end Sys2Proof.Machine

/-!
PROOF LAYER. Stations, members and holds in order: the loss of a head, weighings, and the commands about stations and heads (R6, R15,
R16, R33-R38, R53, R65-R69, R81).
-/
namespace Sys2Proof.Machine

/-! ## The loss of a head -/

/-- A member of a head other than the lost one, or the target of a hold that stays, still serves. -/
theorem State.HeadLost.serving {v t : State} {h : HeadId} (lost : v.HeadLost t h) {g : HeadId} (ne : g ≠ h)
    (crowded : ¬ (t.members g = [] ∧ t.holdsAt g = [])) : (t.head g).serving = (v.head g).serving := by
  have same : SameButAccount (v.head g) (t.head g) := by
    by_cases c : ∃ y ∈ v.holds, y.source = h ∧ y.target = g
    · have left := lost.left g ne c
      unfold State.HeadLeft at left
      rw [if_neg fun e => crowded e.2] at left
      exact left.1
    · rw [lost.others g ne c]; rfl
  simp only [Head.serving, same.state]

/-- A station that a head's loss leaves LAPSED, returned to its head or untouched stands as its state says (R28, R76). -/
theorem Station.Placed.afterLoss {st : Station} (placed : st.Placed) (v : State) (h : HeadId) : (st.afterLoss v h).Placed := by
  unfold Station.afterLoss
  split
  · exact st.placed_lapsed _
  · split
    · next toward =>
      have moving := placed.moving.1 (by rw [toward]; rfl)
      refine Station.placed_of_standing rfl (fun c => ?_) rfl (Option.not_isSome_iff_eq_none.1 fun c => ?_)
      · cases moving.symm.trans (placed.lapsed.1 c)
      · cases moving.symm.trans (placed.timer.1 c)
    · exact placed

theorem State.HeadLost.station_of {v t : State} {h : HeadId} (lost : v.HeadLost t h) {i : Nat} {x : Station} (e : t.station i = some x) :
    ∃ st, v.station i = some st ∧ x = st.afterLoss v h := by
  rw [lost.station] at e
  obtain ⟨st, at_, same⟩ := Option.map_eq_some_iff.1 e
  exact ⟨st, at_, same.symm⟩

theorem State.HeadLost.mem_holds {v t : State} {h : HeadId} (lost : v.HeadLost t h) (y : Hold) :
    y ∈ t.holds ↔ y ∈ v.holds ∧ y.source ≠ h ∧ y.target ≠ h := by
  rw [lost.holds, List.mem_filter, Bool.and_eq_true, bne_iff_ne, bne_iff_ne]

/-- A member that a head's loss leaves was a member of the same head, and that is another. -/
theorem State.HeadLost.member_of {v t : State} {h : HeadId} (lost : v.HeadLost t h) {i : Nat} {x : Station} {g : HeadId}
    (e : t.station i = some x) (cur : x.current = some g) : g ≠ h ∧ ∃ st, v.station i = some st ∧ st.current = some g := by
  obtain ⟨st, at_, rfl⟩ := lost.station_of e
  unfold Station.afterLoss at cur
  split at cur
  · cases cur
  · next away =>
    have here : st.current = some g := by
      split at cur
      · exact cur
      · exact cur
    exact ⟨fun same => away (same ▸ here), st, at_, here⟩

/-- The holds that a head's loss leaves, at other heads, are those of the stations it leaves MOVING (R76, R77). -/
theorem State.HeadLost.placedAt {v t : State} {h : HeadId} (lost : v.HeadLost t h) {i : Nat} (old : v.PlacedAt i) : t.PlacedAt i := by
  obtain ⟨stands, held, hold⟩ := old
  refine ⟨fun x e => ?_, fun x e moving => ?_, fun y mem own => ?_⟩
  · obtain ⟨st, at_, rfl⟩ := lost.station_of e
    exact (stands st at_).afterLoss v h
  · obtain ⟨st, at_, rfl⟩ := lost.station_of e
    unfold Station.afterLoss at moving
    split at moving
    · cases moving
    · next away =>
      split at moving
      · exact absurd moving st.standing_ne.1
      · next elsewhere =>
        obtain ⟨y, mem, own⟩ := held st at_ moving
        obtain ⟨-, st', at', -, cur, target, -⟩ := hold y mem own
        cases at_.symm.trans at'
        exact ⟨y, (lost.mem_holds y).2 ⟨mem, fun same => away (by rw [cur, same]), fun same => elsewhere (by rw [target, same])⟩, own⟩
  · obtain ⟨old, source, away⟩ := (lost.mem_holds y).1 mem
    obtain ⟨ne, st, at_, moving, cur, target, chans⟩ := hold y old own
    have same : st.afterLoss v h = st := by
      unfold Station.afterLoss
      rw [if_neg (by rw [cur]; exact fun c => source (Option.some.inj c)), if_neg (by rw [target]; exact fun c => away (Option.some.inj c))]
    exact ⟨ne, st, by rw [lost.station, at_, Option.map_some, same], moving, cur, target, chans⟩

theorem State.HeadLost.shapeAt {v t : State} {h : HeadId} (lost : v.HeadLost t h) {i : Nat} (old : v.ShapeAt i) : t.ShapeAt i := by
  refine ⟨lost.placedAt old.placed, fun x e c => ?_⟩
  obtain ⟨st, at_, rfl⟩ := lost.station_of e
  have values : t.tierValue = v.tierValue := State.tierValue_eq_of_aside lost.aside
  rw [values]
  unfold Station.afterLoss at c ⊢
  split
  · next here =>
    rw [if_pos here] at c; cases c
  · next away =>
    rw [if_neg away] at c
    split
    · next toward =>
      rw [if_pos toward] at c
      have value : v.tierValue (st.returned v.nowMs) = v.tierValue st := State.tierValue_of_mapView rfl rfl
      rw [value]
      exact old.capped st at_ c
    · next elsewhere =>
      rw [if_neg elsewhere] at c
      exact old.capped st at_ c

/-- The loss of a head leaves stations, members and holds in order (R6, R16, R28, R76, R77). -/
theorem State.HeadLost.movesLaw {s v t : State} {h : HeadId} (lost : v.HeadLost t h) (law : s.MovesLaw) (stations : v.stations = s.stations)
    (holds : v.holds = s.holds) (value : v.tierValue = s.tierValue) (heads : ∀ g, g ≠ h → v.head g = s.head g)
    (wf : Table.wf t.stations) : t.MovesLaw := by
  have members : ∀ g, t.members g ⊆ v.members g := fun g i m => by
    obtain ⟨x, e, cur⟩ := (State.mem_members wf).1 m
    obtain ⟨-, st, at_, here⟩ := lost.member_of e cur
    exact (State.mem_members (by rw [stations]; exact law.seating.wf)).2 ⟨st, at_, here⟩
  refine ⟨⟨wf, ?_, fun i x g e cur => ?_, fun y mem => ?_, fun g => ?_⟩,
    fun i => lost.shapeAt ((law.shapes i).of_same value stations holds)⟩
  · rw [lost.holds, holds]
    exact law.seating.nodup.sublist (List.Sublist.map _ List.filter_sublist)
  · obtain ⟨ne, st, at_, here⟩ := lost.member_of e cur
    have here' : i ∈ t.members g := (State.mem_members wf).2 ⟨x, e, cur⟩
    rw [lost.serving ne (fun c => by rw [c.1] at here'; cases here'), heads g ne]
    exact law.seating.members i st g (by rw [← at_, State.station, State.station, stations]) here
  · obtain ⟨old, -, ne⟩ := (lost.mem_holds y).1 mem
    have there : y ∈ t.holdsAt y.target := List.mem_filter.2 ⟨mem, by simp⟩
    rw [lost.serving ne (fun c => by rw [c.2] at there; cases there), heads _ ne]
    exact law.seating.targets y (holds ▸ old)
  · have fewer : (t.members g).length ≤ (v.members g).length :=
      (List.subperm_of_subset (State.members_nodup wf g) (members g)).length_le
    have fewerHolds : (t.holdsAt g).length ≤ (v.holdsAt g).length := by
      simp only [State.holdsAt, lost.holds]
      exact (List.Sublist.filter _ List.filter_sublist).length_le
    have bound := law.seating.crowd g
    rw [← State.crowd_congr stations holds] at bound
    exact (Nat.add_le_add fewer fewerHolds).trans bound

/-- A head lost on a clock or at a request, its record written first as one that is not DRAINING. -/
theorem State.Sound.lose {s : State} (sound : s.Sound) (now : Nat) (rest : List InFrame) (h : HeadId) {y : Head}
    (n : y.state ≠ .draining) : ((s.beforeLoss now rest h y).loseHead h).MovesLaw :=
  (sound.losable now rest h n).headLost.movesLaw sound.movesLaw rfl rfl (State.tierValue_eq_of_mapView rfl)
    (fun _ ne => State.beforeLoss_head_of_ne s now rest y ne)
    (((State.Keeps.refl (s.beforeLoss now rest h y)).loseHead h).wf sound.movesLaw.seating.wf)

/-- A head that faults on a clock (R6). -/
theorem State.Sound.fault {s : State} (sound : s.Sound) (due : Micros) (h : HeadId) (r : FaultReason) :
    ((s.expireAt due).headFault h r).MovesLaw :=
  (sound.lose _ s.inbound h (y := { s.head h with state := .fault, startTimer := none, supervision := none })
    HeadState.noConfusion).note _

end Sys2Proof.Machine

/-!
PROOF LAYER. Every command keeps stations, members and holds in order (R21, R61).
-/
namespace Sys2Proof.Machine

/-! ## Weighings and subscriptions -/

theorem State.admitsStation_room {s : State} {st : Station} {c : HeadId × Int} (fits : s.admitsStation st c = true) : s.crowd c.1 < 64 := by
  unfold State.admitsStation State.admitsHold at fits
  split at fits
  · cases fits
  · obtain ⟨room, -⟩ := Bool.and_eq_true_iff.1 fits
    exact of_decide_eq_true room

section
variable {s : State} (law : s.MovesLaw) {i : Nat} {st : Station}
include law

/-- A head record written that serves if the one before did. -/
theorem State.MovesLaw.setHead {h : HeadId} {x : Head} (serving : (s.head h).serving = true → x.serving = true) :
    (s.setHead h x).MovesLaw :=
  law.of_same (t := s.setHead h x) (State.tierValue_eq_of_mapView rfl) rfl rfl fun g e => by
    rw [State.head_setHead]
    split
    · next same => exact serving (same ▸ e)
    · exact e

theorem State.MovesLaw.refuseRoam (i : Nat) : (s.refuseRoam i).MovesLaw :=
  law.updateStation i _ (fun _ => ⟨rfl, rfl, rfl, rfl, rfl, rfl⟩) fun _ => ⟨rfl, rfl⟩

theorem State.MovesLaw.tryCandidate (e : s.station i = some st) (idle : st.state = .assoc ∨ st.state = .seated) {here : HeadId}
    (cur : st.current = some here) {c : HeadId × Int} (ne : here ≠ c.1) (on : (s.head c.1).state = .on) (o : RoamOrigin) :
    (s.tryCandidate i st here c o).MovesLaw := by
  unfold State.tryCandidate
  split
  · next fits =>
    exact law.startHandover e idle cur ne (by simp [Head.serving, on]) (State.admitsStation_room fits) _ o
  · exact law.refuseRoam i

theorem State.MovesLaw.weigh (i : Nat) : (s.weigh i).MovesLaw := by
  have member : ∀ {st : Station} {here : HeadId} {c : HeadId × Int} (o : RoamOrigin), s.station i = some st →
      (st.state = .assoc ∨ st.state = .seated) → st.current = some here → s.bestCandidate st here = some c →
      (s.tryCandidate i st here c o).MovesLaw := by
    intro st here c o e idle cur best
    obtain ⟨-, ne, -, on⟩ := (State.best_of_bestCandidate best).1
    exact law.tryCandidate e idle cur (Ne.symm ne) on o
  have tried : ∀ {st : Station} {here : HeadId}, s.station i = some st → (st.state = .assoc ∨ st.state = .seated) →
      st.current = some here →
      (match s.bestCandidate st here with
        | none => s
        | some c =>
          if (s.head here).state = HeadState.draining then s.tryCandidate i st here c RoamOrigin.drain
          else if s.passesTests st here c then s.tryCandidate i st here c RoamOrigin.report
          else s).MovesLaw := by
    intro st here e idle cur
    split
    · exact law
    · next best =>
      split
      · exact member .drain e idle cur best
      · split
        · exact member .report e idle cur best
        · exact law
  unfold State.weigh
  split
  · exact law
  · next st e =>
    split
    · next idle cur => exact tried e (.inl idle) cur
    · next idle cur => exact tried e (.inr idle) cur
    · exact law

theorem State.MovesLaw.foldl {β : Type} {f : State → β → State} (each : ∀ u b, State.MovesLaw u → (f u b).MovesLaw) (l : List β) :
    (l.foldl f s).MovesLaw := by
  induction l generalizing s with
  | nil => exact law
  | cons b l ih => exact ih (each s b law)

theorem State.MovesLaw.report (h : HeadId) (rssi : Int) (cands : List (Nat × Int)) (i : Nat) (st : Station) :
    (s.report h rssi cands i st).MovesLaw := by
  have stored : (s.takeRssi h i st rssi).MovesLaw := by
    have written : (s.updateStation i fun x => { x with rssi := clampRssi rssi, rate := rateClass rssi }).MovesLaw :=
      law.updateStation i _ (fun _ => ⟨rfl, rfl, rfl, rfl, rfl, rfl⟩) fun _ => ⟨rfl, rfl⟩
    unfold State.takeRssi
    dsimp only
    split
    · exact written
    · exact written.recompute h
  unfold State.report
  dsimp only
  split
  · exact (stored.updateStation i (fun x => { x with candidates := reportCandidates cands }) (fun _ => ⟨rfl, rfl, rfl, rfl, rfl, rfl⟩) fun _ => ⟨rfl, rfl⟩).weigh i
  · exact stored

/-- A station with no handover subscribes a channel (R36). -/
theorem State.MovesLaw.join (e : s.station i = some st) (h : HeadId) (chan : Nat) : (s.join h chan i st).MovesLaw := by
  unfold State.join
  dsimp only
  split
  · next small =>
    split
    · exact law.send h _
    · split
      · exact law.send h _
      · next still =>
        split
        · exact law.send h _
        · obtain ⟨lapsed, moving, timer, assoc, seated, empty⟩ := (law.shapes i).placed.stands st e
          refine ((law.setStation (x := { st with chans := st.chans ||| oneChan ⟨chan, small⟩ }) (law.free e still)
            ⟨lapsed, moving, timer, assoc, seated, empty⟩ still (fun c => ?_) fun g cur => .inl ⟨st, e, cur⟩).recompute h).send h _
          have value : s.tierValue { st with chans := st.chans ||| oneChan ⟨chan, small⟩ } = s.tierValue st :=
            State.tierValue_of_mapView rfl rfl
          rw [value]
          exact (law.shapes i).capped st e c
  · exact law.send h _

theorem State.MovesLaw.leave (h : HeadId) (chan i : Nat) (st : Station) : (s.leave h chan i st).MovesLaw := by
  unfold State.leave
  dsimp only
  refine State.MovesLaw.send ?_ h _
  split
  · split
    · exact (law.keepChans i _).recomputeBoth i
    · exact law
  · exact law

theorem State.MovesLaw.lateAnswer (h : HeadId) (addr : StationAddress) (i : Nat) : (s.lateAnswer h addr i).MovesLaw :=
  (law.setHead (x := { s.head h with late := count16 (s.head h).late }) id).send h _

theorem State.MovesLaw.moveTo (e : s.station i = some st) (idle : st.state = .assoc ∨ st.state = .seated) {here h : HeadId}
    (cur : st.current = some here) (apart : here = h → h ∉ (s.head here).neighbours) : (s.moveTo i st here h).state.MovesLaw := by
  unfold State.moveTo
  split
  · exact law
  · next c named =>
    split
    · next reachable =>
      obtain ⟨on, near⟩ := reachable
      split
      · next fits =>
        have target : c.1 = h := by
          simpa using List.find?_some named
        refine law.startHandover e idle cur (fun same => apart same near) (by simp [Head.serving, on]) ?_ _ _
        rw [← target]; exact State.admitsStation_room fits
      · exact law.refuseRoam i
    · exact law

theorem State.MovesLaw.moveChecks (i : Nat) {h : HeadId} (apart : h ∉ (s.head h).neighbours) : (s.moveChecks i h).state.MovesLaw := by
  unfold State.moveChecks
  split
  · exact law
  · split
    · exact law
    · next st e =>
      split
      · exact law
      · next idle cur => exact law.moveTo e (.inl idle) cur fun same => same ▸ apart
      · next idle cur => exact law.moveTo e (.inr idle) cur fun same => same ▸ apart
      · exact law

end

end Sys2Proof.Machine

/-!
PROOF LAYER. Every command keeps stations, members and holds in order (R21, R51, R52, R61).
-/
namespace Sys2Proof.Machine

/-! ## Heads -/

section
variable {s : State} (h : s.Sound)
include h

theorem State.Sound.headFault_setHead (due : Micros) (g : HeadId) (x : Head) (r : FaultReason) :
    (((s.expireAt due).setHead g x).headFault g r).MovesLaw := by
  rw [State.headFault_setHead]
  exact (h.lose _ s.inbound g (y := { x with state := .fault, startTimer := none, supervision := none }) HeadState.noConfusion).note _

theorem execAnnounce_movesLaw (g : HeadId) : Gives State.MovesLaw (execAnnounce g s) := by
  have law := h.movesLaw
  have toDark : (s.head g).serving = false → (s.headToDark g).MovesLaw := fun idle =>
    (law.setHead (x := { s.head g with state := .dark }) fun c => by rw [idle] at c; cases c).setHead fun c => c
  have lost : ((s.headFault g .restarted).setHead g { (s.headFault g .restarted).head g with miss := 0 }).MovesLaw :=
    State.MovesLaw.setHead (s := s.headFault g .restarted)
      ((h.lose s.now s.inbound g (y := { s.head g with state := .fault, startTimer := none, supervision := none })
        HeadState.noConfusion).note _) fun c => c
  refine State.movesLaw_bowlLaw.done ?_
  split
  · next e => exact toDark (by simp [Head.serving, e])
  · exact law.setHead fun c => c
  · next e => exact toDark (by simp [Head.serving, e])
  all_goals exact lost

theorem execSupervisionTimerExpiry_movesLaw (g : HeadId) : Gives State.MovesLaw (execSupervisionTimerExpiry g s) := by
  refine State.movesLaw_bowlLaw.done ?_
  split
  · exact h.movesLaw
  · next due _ =>
    have law : (s.expireAt due).MovesLaw := State.movesLaw_bowlLaw.quiet h.movesLaw rfl
    unfold State.missHeartbeat
    dsimp only
    split
    · exact law.setHead fun c => c
    · split
      · next e =>
        have counted (n : Nat) : ((s.expireAt due).setHead g { (s.expireAt due).head g with miss := n, supervision := none }).MovesLaw :=
          law.setHead fun c => c
        refine (counted _).setHead fun c => ?_
        rw [State.head_setHead_self] at c
        simp [Head.serving, e] at c
      · exact h.headFault_setHead due g _ _
      · exact h.headFault_setHead due g _ _
      · exact h.headFault_setHead due g _ _
      · exact law.setHead fun c => c
      · exact law.setHead fun c => c

theorem execStartTimerExpiry_movesLaw (g : HeadId) : Gives State.MovesLaw (execStartTimerExpiry g s) := by
  refine State.movesLaw_bowlLaw.done ?_
  split
  · exact h.movesLaw
  · next due _ =>
    dsimp only
    split
    · exact h.fault due g _
    · exact State.MovesLaw.setHead (s := s.expireAt due) (State.movesLaw_bowlLaw.quiet h.movesLaw rfl) fun c => c

omit h in
theorem State.MovesLaw.openAccount (law : s.MovesLaw) (g : HeadId) : (s.openAccount g).MovesLaw := law.setHead fun c => c

theorem execSetupDone_movesLaw (g : HeadId) : Gives State.MovesLaw (execSetupDone g s) := by
  refine State.movesLaw_bowlLaw.handOn h g ?_
  split
  · have on : (s.setHead g { s.head g with state := .on, startTimer := none }).MovesLaw :=
      h.movesLaw.setHead fun _ => by simp [Head.serving]
    exact (on.openAccount g).note _
  · exact h.movesLaw

omit h in
theorem State.MovesLaw.retryCapped (law : s.MovesLaw) (g : HeadId) : (s.retryCapped g).MovesLaw :=
  law.foldl (fun _ i w => w.settle i) _

omit h in
theorem State.MovesLaw.restoreShed (law : s.MovesLaw) (g : HeadId) : (s.restoreShed g).MovesLaw := by
  refine law.of_same (State.tierValue_eq_of_aside ?_) ?_ ?_ fun k c => ?_
  · unfold State.restoreShed; split <;> rfl
  · unfold State.restoreShed; split <;> rfl
  · unfold State.restoreShed; split <;> rfl
  · rw [State.serving_of_headsView (State.restoreShed_headsView s g)]; exact c

theorem execWindowTimerExpiry_movesLaw (g : HeadId) : Gives State.MovesLaw (execWindowTimerExpiry g s) := by
  refine State.movesLaw_bowlLaw.done ?_
  split
  · exact h.movesLaw
  · next a _ =>
    have law : (s.expireAt a.window).MovesLaw := State.movesLaw_bowlLaw.quiet h.movesLaw rfl
    have restarted (x : Option Account) : ((s.expireAt a.window).setHead g
        { (s.expireAt a.window).head g with account := x }).MovesLaw := law.setHead fun c => c
    exact ((restarted _).retryCapped g).restoreShed g

/-! ## Stations -/

theorem execAssocReq_movesLaw (g : HeadId) (addr : StationAddress) (rssi : Int) : Gives State.MovesLaw (execAssocReq g addr rssi s) := by
  have law := h.movesLaw
  refine State.movesLaw_bowlLaw.done ?_
  split
  · unfold State.assocRequest
    split
    · exact law.send g _
    · split
      · split
        · next on => exact law.associate on addr rssi
        · exact law.send g _
      · split
        · exact law
        · next e =>
          split
          · exact law.send g _
          · next still =>
            split
            · exact law.send g _
            · split
              · next on =>
                split
                · next away => exact law.returnStation e (((law.shapes _).placed.stands _ e).lapsed.1 away) on rssi
                · next cur => exact law.directMove e still cur on rssi
              · exact law.send g _
  · exact State.movesLaw_bowlLaw.quiet law rfl

theorem execDisassoc_movesLaw (g : HeadId) (addr : StationAddress) : Gives State.MovesLaw (execDisassoc g addr s) := by
  have law := h.movesLaw
  refine State.movesLaw_bowlLaw.handOn h g ?_
  repeat' split
  · exact law
  · exact law
  · exact law.vacate h.binding _ _ _
  · exact law.vacate h.binding _ _ _
  · exact law

theorem execLost_movesLaw (g : HeadId) (addr : StationAddress) : Gives State.MovesLaw (execLost g addr s) :=
  State.movesLaw_bowlLaw.forMember (work := fun s i _ => ((s.loseMember i).recompute g).drainCheck g) h g addr fun i _ _ _ =>
    ((h.movesLaw.loseMember i).recompute g).drainCheck g

theorem execStationReport_movesLaw (g : HeadId) (addr : StationAddress) (rssi : Int) (cands : List (Nat × Int)) :
    Gives State.MovesLaw (execStationReport g addr rssi cands s) := by
  unfold execStationReport
  split
  · exact State.movesLaw_bowlLaw.done (State.movesLaw_bowlLaw.quiet h.movesLaw rfl)
  · exact State.movesLaw_bowlLaw.forMember (work := fun s => s.report g rssi cands) h g addr fun i st _ _ =>
      h.movesLaw.report g rssi cands i st

theorem execJoinReq_movesLaw (g : HeadId) (addr : StationAddress) (chan : Nat) : Gives State.MovesLaw (execJoinReq g addr chan s) :=
  State.movesLaw_bowlLaw.forMember (work := fun s => s.join g chan) h g addr fun _ _ e _ => h.movesLaw.join e g chan

theorem execLeaveReq_movesLaw (g : HeadId) (addr : StationAddress) (chan : Nat) : Gives State.MovesLaw (execLeaveReq g addr chan s) :=
  State.movesLaw_bowlLaw.forMember (work := fun s => s.leave g chan) h g addr fun i st _ _ => h.movesLaw.leave g chan i st

theorem execBindReq_movesLaw (g : HeadId) (addr : StationAddress) (m : PassNumber) : Gives State.MovesLaw (execBindReq g addr m s) :=
  State.movesLaw_bowlLaw.forMember (work := fun s => s.bindRequest g m) h g addr fun _ _ e cur =>
    h.movesLaw.bindRequest h.binding e cur m

theorem execUnbindReq_movesLaw (g : HeadId) (addr : StationAddress) : Gives State.MovesLaw (execUnbindReq g addr s) :=
  State.movesLaw_bowlLaw.forMember (work := fun s => s.unbindRequest g) h g addr fun i st _ _ => h.movesLaw.unbindRequest g i st

omit h in
theorem State.matched_hold {g : HeadId} {addr : StationAddress} {i : Nat} {st : Station} {x : Hold}
    (e : s.matched g addr i = some (st, x)) : x ∈ s.holds ∧ x.station = i := by
  unfold State.matched at e
  split at e
  · next found =>
    split at e
    · cases e
      exact ⟨List.mem_of_find?_eq_some found, by simpa using List.find?_some found⟩
    · cases e
  · cases e

theorem execReady_movesLaw (g : HeadId) (addr : StationAddress) (i : Nat) : Gives State.MovesLaw (execReady g addr i s) := by
  refine State.movesLaw_bowlLaw.handOn h g ?_
  split
  · next e =>
    obtain ⟨mem, own⟩ := State.matched_hold e
    exact h.movesLaw.land (State.matched_station e) mem own
  · exact h.movesLaw.lateAnswer g addr i

theorem execDecline_movesLaw (g : HeadId) (addr : StationAddress) (i : Nat) : Gives State.MovesLaw (execDecline g addr i s) := by
  refine State.movesLaw_bowlLaw.handOn h g ?_
  split
  · next e => exact h.movesLaw.undoHandover (State.matched_hold e).1 _
  · exact h.movesLaw.lateAnswer g addr i

theorem execHandoverTimerExpiry_movesLaw (i : Nat) : Gives State.MovesLaw (execHandoverTimerExpiry i s) := by
  refine State.movesLaw_bowlLaw.done ?_
  split
  · exact h.movesLaw
  · next x e =>
    have law : (s.expireAt x.due).MovesLaw := State.movesLaw_bowlLaw.quiet h.movesLaw rfl
    have told : ((s.expireAt x.due).cancel x).MovesLaw := by
      unfold State.cancel
      split
      · exact law
      · exact law.send _ _
    refine told.undoHandover ?_ _
    have same : ((s.expireAt x.due).cancel x).holds = s.holds := by unfold State.cancel; split <;> rfl
    rw [same]
    exact List.mem_of_find?_eq_some e

theorem execLapseTimerExpiry_movesLaw (i : Nat) : Gives State.MovesLaw (execLapseTimerExpiry i s) := by
  refine State.movesLaw_bowlLaw.done ?_
  split
  · exact h.movesLaw
  · next due _ =>
    have law : (s.expireAt due).MovesLaw := State.movesLaw_bowlLaw.quiet h.movesLaw rfl
    exact law.vacate h.binding i _ _

theorem execRezoneVisit_movesLaw : Gives State.MovesLaw (execRezoneVisit s) := by
  refine State.movesLaw_bowlLaw.done ?_
  split
  · exact (h.movesLaw.visitPass _).advanceCursor
  · exact h.movesLaw

variable (f : Req)

/-- A request naming a head, worked on once the head's setup sequence is ended. -/
theorem State.Sound.serveHead_movesLaw (head : Nat) (type : Byte) {work : HeadId → State → Served} (wrong : State → Content)
    (each : ∀ u g, State.Sound u → (u.endSequence g).MovesLaw → (work g (u.endSequence g)).state.MovesLaw) :
    Gives State.MovesLaw (.next (s.serve f type (fun u => u.withHead head work) wrong)) := by
  refine State.movesLaw_bowlLaw.serve h f _ _ _ fun u v => ?_
  unfold State.withHead
  split
  · exact v.movesLaw
  · next g _ => exact each u g v (State.movesLaw_bowlLaw.quiet v.movesLaw (u.endSequence_quiet g))

theorem execHeadControlDrain_movesLaw (head : Nat) (known : Bool) : Gives State.MovesLaw (execHeadControlDrain f head known s) := by
  refine h.serveHead_movesLaw f head _ _ fun u g v law => ?_
  split
  · unfold State.drainHead
    split
    · exact ((law.setHead fun _ => by simp [Head.serving]).foldl (fun _ i w => w.weigh i) _).drainCheck g
    · exact law
  · exact law

theorem execHeadControlStop_movesLaw (head : Nat) (known : Bool) : Gives State.MovesLaw (execHeadControlStop f head known s) := by
  refine h.serveHead_movesLaw f head _ _ fun u g v law => ?_
  split
  · unfold State.stopHead
    split
    · rw [State.endSequence_eq, State.setHead_setHead]
      exact v.lose u.now u.inbound g HeadState.noConfusion
    · exact law
  · exact law

theorem execStationMove_movesLaw (i target : Nat) : Gives State.MovesLaw (execStationMove f i target s) := by
  refine h.serveHead_movesLaw f target _ _ fun u g v law => ?_
  obtain ⟨-, -, -, -, -, -, -, -, apart, -⟩ := (v.orderly.endSequence g).1 g
  exact law.moveChecks i apart

theorem execStationEvict_movesLaw (i : Nat) : Gives State.MovesLaw (execStationEvict f i s) := by
  refine State.movesLaw_bowlLaw.serve h f _ _ _ fun u v => ?_
  repeat' split
  · exact v.movesLaw
  · exact v.movesLaw.vacate v.binding i _ _
  · exact v.movesLaw

theorem execRoamSet_movesLaw (a b c : Nat) (pub : ChanSet) : Gives State.MovesLaw (execRoamSet f a b c pub s) := by
  refine State.movesLaw_bowlLaw.serve h f _ _ _ fun u v => ?_
  split
  · have law : State.MovesLaw { u with roam := ⟨a, b, c, pub⟩ } :=
      v.movesLaw.zones (t := { u with roam := ⟨a, b, c, pub⟩ }) rfl rfl rfl rfl rfl rfl
    dsimp only
    split
    · exact law
    · exact (law.foldl (fun _ i w => w.trim i) _).recomputeList _
  · exact v.movesLaw

/-! ## Passes and zones -/

theorem execPassLoad_movesLaw (es : List PassEntry) : Gives State.MovesLaw (execPassLoad f es s) := by
  refine State.movesLaw_bowlLaw.serve h f _ _ _ fun u v => ?_
  split
  · exact v.movesLaw.loadEntries (State.passesInv_iff.1 v.store.2.1).1 v.binding.passesHeld es
  · exact v.movesLaw

theorem execPassAmend_movesLaw (m : PassNumber) (tier : Option Nat) (seat : Change (BitVec 16)) (declared : Change Nat) :
    Gives State.MovesLaw (execPassAmend f m tier seat declared s) := by
  refine State.movesLaw_bowlLaw.serve h f _ _ _ fun u v => ?_
  split
  · split
    · exact v.movesLaw
    · split
      · exact v.movesLaw
      · next held =>
        split
        · exact v.movesLaw
        · exact v.movesLaw.amend v.binding held ..
  · exact v.movesLaw

theorem execPassVoid_movesLaw (m : PassNumber) : Gives State.MovesLaw (execPassVoid f m s) := by
  refine State.movesLaw_bowlLaw.serve h f _ _ _ fun u v => ?_
  split
  · exact v.movesLaw
  · exact v.movesLaw.unbind ..

theorem execPassDrop_movesLaw (m : PassNumber) : Gives State.MovesLaw (execPassDrop f m s) := by
  refine State.movesLaw_bowlLaw.serve h f _ _ _ fun u v => ?_
  split
  · exact v.movesLaw
  · exact v.movesLaw.drop v.binding _

theorem execGateScan_movesLaw (m : PassNumber) (gate : Nat) (dir : Option ScanDirection) :
    Gives State.MovesLaw (execGateScan f m gate dir s) := by
  refine State.movesLaw_bowlLaw.serve h f _ _ _ fun u v => ?_
  split
  · exact v.movesLaw
  · split
    · exact v.movesLaw
    · split
      · exact v.movesLaw
      · split
        · exact v.movesLaw
        · next held => exact v.movesLaw.scan held gate _

theorem execZoneSet_movesLaw (z : Nat) (d : Option ZoneSpec) : Gives State.MovesLaw (execZoneSet f z d s) := by
  refine State.movesLaw_bowlLaw.serve h f _ _ _ fun u v => ?_
  repeat' split
  all_goals exact v.movesLaw.zones rfl rfl rfl rfl rfl rfl

theorem execCensusLatch_movesLaw (zs : ZoneSet) : Gives State.MovesLaw (execCensusLatch f zs s) :=
  State.movesLaw_bowlLaw.serve h f _ _ _ fun _ v => v.movesLaw.zones rfl rfl rfl rfl rfl rfl

theorem execCensusRead_movesLaw (z : Nat) : Gives State.MovesLaw (execCensusRead f z s) := by
  refine State.movesLaw_bowlLaw.serve h f _ _ _ fun u v => ?_
  repeat' split
  all_goals exact v.movesLaw.zones rfl rfl rfl rfl rfl rfl

/-! ## The part -/

omit h f in
/-- A bowl with no station and no hold is in order. -/
theorem State.movesLaw_of_empty (stations : s.stations = []) (holds : s.holds = []) : s.MovesLaw := by
  have vacant : ∀ i, s.station i = none := fun i => by rw [State.station, stations]; rfl
  refine ⟨⟨by rw [stations]; exact Table.wf_nil, by rw [holds]; exact List.nodup_nil, fun i st g e => ?_, fun x mem => ?_, fun g => ?_⟩,
    fun i => .gone (vacant i) fun y mem => ?_⟩
  · rw [vacant] at e; cases e
  · rw [holds] at mem; cases mem
  · rw [State.crowd_eq, stations, holds]; exact Nat.zero_le _
  · rw [holds] at mem; cases mem

theorem execTierSet_movesLaw (row : TierRow) : Gives State.MovesLaw (execTierSet f row s) := by
  refine State.movesLaw_bowlLaw.serve h f _ _ _ fun u v => ?_
  have empty : ∀ {t : State}, ¬u.part = .run → t.stations = u.stations → t.holds = u.holds → t.MovesLaw := by
    intro t p stations holds
    have config : u.part = .config := by cases e : u.part with | config => rfl | run => exact absurd e p
    obtain ⟨-, none_, free, -⟩ := v.config config
    exact State.movesLaw_of_empty (stations.trans none_) (holds.trans free)
  split
  · split
    · split
      · exact v.movesLaw
      · next config =>
        split
        · exact empty config rfl rfl
        · exact v.movesLaw
    · exact v.movesLaw
  · split
    · exact v.movesLaw
    · next config =>
      split
      · exact empty config rfl rfl
      · exact v.movesLaw

theorem execRestart_movesLaw : Gives State.MovesLaw (execRestart f s) :=
  State.movesLaw_bowlLaw.serve h f _ _ _ fun _ _ => State.movesLaw_of_empty rfl rfl

end

/-! ## The whole of a step -/

/-- Every command keeps stations, members and holds in order. -/
theorem exec_movesLaw {s : State} (h : s.Sound) (i : Instr) : Gives State.MovesLaw (exec i s) := by
  cases i with
  | powerOn => rintro t ⟨⟩; exact State.movesLaw_of_empty rfl rfl
  | announce g => exact execAnnounce_movesLaw h g
  | heartbeat g => exact State.movesLaw_bowlLaw.of_quiet h (execHeartbeat_quiet s g)
  | supervisionTimerExpiry g => exact execSupervisionTimerExpiry_movesLaw h g
  | setupDone g => exact execSetupDone_movesLaw h g
  | startTimerExpiry g => exact execStartTimerExpiry_movesLaw h g
  | seatLinkFrameDiscarded l => exact State.movesLaw_bowlLaw.of_quiet h (execSeatLinkFrameDiscarded_quiet s l)
  | assocReq g a r => exact execAssocReq_movesLaw h g a r
  | disassoc g a => exact execDisassoc_movesLaw h g a
  | lost g a => exact execLost_movesLaw h g a
  | stationReport g a r cs => exact execStationReport_movesLaw h g a r cs
  | joinReq g a c => exact execJoinReq_movesLaw h g a c
  | leaveReq g a c => exact execLeaveReq_movesLaw h g a c
  | bindReq g a n => exact execBindReq_movesLaw h g a n
  | unbindReq g a => exact execUnbindReq_movesLaw h g a
  | ready g a n => exact execReady_movesLaw h g a n
  | decline g a n => exact execDecline_movesLaw h g a n
  | lapseTimerExpiry n => exact execLapseTimerExpiry_movesLaw h n
  | handoverTimerExpiry n => exact execHandoverTimerExpiry_movesLaw h n
  | windowTimerExpiry g => exact execWindowTimerExpiry_movesLaw h g
  | segmentFrame p bs => exact State.movesLaw_bowlLaw.of_quiet h (execSegmentFrame_quiet s p bs)
  | holdTimerExpiry k => exact State.movesLaw_bowlLaw.of_quiet h (execHoldTimerExpiry_quiet s k)
  | paceTimerExpiry c => exact State.movesLaw_bowlLaw.of_quiet h (execPaceTimerExpiry_quiet s c)
  | readCompletion => exact State.movesLaw_bowlLaw.of_quiet h (execReadCompletion_quiet s)
  | rezoneVisit => exact execRezoneVisit_movesLaw h
  | transactionBegin => exact State.movesLaw_bowlLaw.of_quiet h (execTransactionBegin_quiet s)
  | transactionEnd bs => exact State.movesLaw_bowlLaw.of_quiet h (execTransactionEnd_quiet s bs)
  | badFrame => exact State.movesLaw_bowlLaw.of_quiet h (execBadFrame_quiet s)
  | unknownRequestType => exact State.movesLaw_bowlLaw.of_quiet h (execUnknownRequestType_quiet s)
  | hello f => exact State.movesLaw_bowlLaw.of_quiet h (execHello_quiet s f)
  | start f => exact State.movesLaw_bowlLaw.of_quiet h (execStart_quiet s f)
  | restart f => exact execRestart_movesLaw h f
  | noticeEnable f a b => exact State.movesLaw_bowlLaw.of_quiet h (execNoticeEnable_quiet s f a b)
  | tierSet f r => exact execTierSet_movesLaw h f r
  | roamSet f a b c p => exact execRoamSet_movesLaw h f a b c p
  | headSetupPart1 f g r x => exact State.movesLaw_bowlLaw.of_quiet h (execHeadSetupPart1_quiet s f g r x)
  | headSetupPart2 f g c x => exact State.movesLaw_bowlLaw.of_quiet h (execHeadSetupPart2_quiet s f g c x)
  | headSetupPart3 f g ns => exact State.movesLaw_bowlLaw.of_quiet h (execHeadSetupPart3_quiet s f g ns)
  | headControlStart f g k => exact State.movesLaw_bowlLaw.of_quiet h (execHeadControlStart_quiet s f g k)
  | headControlDrain f g k => exact execHeadControlDrain_movesLaw h f g k
  | headControlStop f g k => exact execHeadControlStop_movesLaw h f g k
  | headLimits f g c x => exact State.movesLaw_bowlLaw.of_quiet h (execHeadLimits_quiet s f g c x)
  | headQuery f g => exact State.movesLaw_bowlLaw.of_quiet h (execHeadQuery_quiet s f g)
  | headStats f g => exact State.movesLaw_bowlLaw.of_quiet h (execHeadStats_quiet s f g)
  | stationQuery f r => exact State.movesLaw_bowlLaw.of_quiet h (execStationQuery_quiet s f r)
  | stationMove f n g => exact execStationMove_movesLaw h f n g
  | stationEvict f n => exact execStationEvict_movesLaw h f n
  | passLoad f es => exact execPassLoad_movesLaw h f es
  | passAmend f n t x d => exact execPassAmend_movesLaw h f n t x d
  | passVoid f n => exact execPassVoid_movesLaw h f n
  | passDrop f n => exact execPassDrop_movesLaw h f n
  | passQuery f r => exact State.movesLaw_bowlLaw.of_quiet h (execPassQuery_quiet s f r)
  | gateScan f n g d => exact execGateScan_movesLaw h f n g d
  | zoneSet f z d => exact execZoneSet_movesLaw h f z d
  | zoneQuery f z => exact State.movesLaw_bowlLaw.of_quiet h (execZoneQuery_quiet s f z)
  | censusLatch f zs => exact execCensusLatch_movesLaw h f zs
  | censusRead f z => exact execCensusRead_movesLaw h f z
  | ingestMode f m b => exact State.movesLaw_bowlLaw.of_quiet h (execIngestMode_quiet s f m b)
  | programSet f p l a b => exact State.movesLaw_bowlLaw.of_quiet h (execProgramSet_quiet s f p l a b)
  | channelSetup f c p r m => exact State.movesLaw_bowlLaw.of_quiet h (execChannelSetup_quiet s f c p r m)
  | channelEnable f a b => exact State.movesLaw_bowlLaw.of_quiet h (execChannelEnable_quiet s f a b)
  | play f c i l n m b => exact State.movesLaw_bowlLaw.of_quiet h (execPlay_quiet s f c i l n m b)
  | stop f c ls => exact State.movesLaw_bowlLaw.of_quiet h (execStop_quiet s f c ls)
  | channelStatus f c => exact State.movesLaw_bowlLaw.of_quiet h (execChannelStatus_quiet s f c)
  | clipQuery f r => exact State.movesLaw_bowlLaw.of_quiet h (execClipQuery_quiet s f r)
  | clipPin f i b => exact State.movesLaw_bowlLaw.of_quiet h (execClipPin_quiet s f i b)
  | clipRetire f i => exact State.movesLaw_bowlLaw.of_quiet h (execClipRetire_quiet s f i)

/-- Settles O7: each piece of work writes one station's record and hold so that they stand as they should, and a head leaves service
only by a drain check that finds it empty or by a loss that takes all it has. -/
theorem everyStepKeepsMembersAndHolds : Obligations.EveryStepKeepsMembersAndHolds := by
  intro s t h e
  have law : t.MovesLaw := by
    unfold step at e
    split at e
    · cases e; exact State.movesLaw_bowlLaw.quiet h.movesLaw rfl
    · next c rest _ => exact exec_movesLaw (h.withPending rest) c t e
  exact (State.movesLaw_iff.1 law).2

end Sys2Proof.Machine

/-!
PROOF LAYER. The rate arithmetic (R39, R40): frame airtime as the least whole time that carries the payload's bits, the rate
class as a clamped quotient; and the requests of the part as a whole (R50, R191, R193).
-/
namespace Sys2Proof.Machine

/-! ## Rate arithmetic -/

/-- Every rate class below 8 has a rate above 0. -/
theorem airRate_pos {k : Nat} (h : k < 8) : 0 < airRate k := by
  interval_cases k <;> decide

/-- A rounded-up quotient is the least whole number that reaches the dividend. -/
theorem roundedUp_least {bits rate : Nat} (pos : 0 < rate) :
    bits ≤ (bits + rate - 1) / rate * rate ∧ ∀ n, bits ≤ n * rate → (bits + rate - 1) / rate ≤ n := by
  have split := Nat.div_add_mod (bits + rate - 1) rate
  have below := Nat.mod_lt (bits + rate - 1) pos
  rw [mul_comm] at split
  refine ⟨by omega, fun n reach => ?_⟩
  have : bits + rate - 1 < (n + 1) * rate := by
    rw [Nat.add_one_mul]
    omega
  exact Nat.le_of_lt_succ ((Nat.div_lt_iff_lt_mul pos).mpr this)

/-- The rate class in terms of the quotient of R39: one of 0 to 7, whatever the RSSI. -/
theorem rateClass_eq (r : Int) : (rateClass r : Int) = max 0 (min 7 ((clampRssi r + 90) / 6)) := by
  unfold rateClass
  omega

/-- Settles O29: the quotient of R40 is the least number of microseconds that carries the bits, and the class of an RSSI is
read off the quotient of R39. -/
theorem frameAirtimeFollowsRateClass : Obligations.FrameAirtimeFollowsRateClass := by
  refine ⟨fun bytes k below _ _ => ?_, by decide, by decide, by decide, by decide, fun r => ?_⟩
  · obtain ⟨reaches, least⟩ := roundedUp_least (bits := 8 * bytes) (airRate_pos below)
    have airtime : frameAirtime bytes k - 44 = (8 * bytes + airRate k - 1) / airRate k :=
      Nat.add_sub_cancel_left ..
    refine ⟨Nat.le_add_right _ _, ?_, fun n reach => ?_⟩
    · rw [airtime]
      exact reaches
    · rw [airtime]
      exact least n reach
  · have clamped : clampRssi r = max (-100) (min (-20) r) := rfl
    have quotient := rateClass_eq r
    refine ⟨?_, ?_, ?_, ?_, ?_, ?_, ?_, ?_, ?_, ?_, ?_, ?_, ?_, ?_⟩ <;> omega

/-! ## The requests of the part as a whole -/

/-- A request whose work produces no notice is served by its reply alone. -/
theorem State.Takes.served {s u : State} {type : Byte} {f : Req} (h : s.Takes type f u) {work : State → Served}
    {wrong : State → Content} {r : Served} (e : work u = r) (quiet : r.state.held = u.held) :
    s.serve f type work wrong = r.state.reply type f.tag r.code r.content := by
  subst e
  exact State.serve_of_takes h (quiet.trans h.held)

/-- START is answered by the part state it finds. -/
theorem exec_start {s u : State} {f : Req} (h : s.Takes 0x02 f u) :
    exec (.start f) s = .next (if u.part = .config then { u with part := .run }.reply 0x02 f.tag .ok .none
      else u.reply 0x02 f.tag .state .none) := by
  refine congrArg Host.Outcome.next ?_
  cases e : u.part with
  | config => exact h.served (r := ⟨{ u with part := .run }, .ok, .none⟩) (by simp only [e]) rfl
  | run => exact h.refused (by simp only [e])

/-- R49's range of a reservation, in the words of its refusal. -/
theorem reservationOk_eq_false {r : Nat} : reservationOk r = false ↔ r < 50 ∨ 5000 < r := by
  simp only [reservationOk, Bool.and_eq_false_iff, decide_eq_false_iff_not]
  omega

/-- TIER-SET of a tier row, with R50's checks in order. -/
theorem exec_tierSet_tier {s u : State} {f : Req} {n r limit : Nat} {chans : ChanSet} (h : s.Takes 0x05 f u) :
    exec (.tierSet f (.tier n r limit chans)) s = .next (
      if h : n < 4 then
        if u.part = .run then u.reply 0x05 f.tag .state .none
        else if r < 50 ∨ 5000 < r ∨ 15 < limit then u.reply 0x05 f.tag .range .none
        else { u with tiers := u.tiers.set n ⟨r, limit, chans⟩ }.reply 0x05 f.tag .ok .none
      else u.reply 0x05 f.tag .range .none) := by
  refine congrArg Host.Outcome.next ?_
  by_cases named : n < 4
  · rw [dif_pos named]
    by_cases running : u.part = .run
    · rw [if_pos running]
      exact h.refused (by simp only [dif_pos named, if_pos running])
    · rw [if_neg running]
      by_cases fit : (reservationOk r && decide (limit ≤ 15)) = true
      · have inRange : ¬ (r < 50 ∨ 5000 < r ∨ 15 < limit) := by
          simp only [reservationOk, Bool.and_eq_true, decide_eq_true_eq] at fit
          omega
        rw [if_neg inRange]
        exact h.served (r := ⟨{ u with tiers := u.tiers.set n ⟨r, limit, chans⟩ }, .ok, .none⟩)
          (by simp only [dif_pos named, if_neg running, if_pos fit]) rfl
      · have outOfRange : r < 50 ∨ 5000 < r ∨ 15 < limit := by
          simp only [reservationOk, Bool.and_eq_true, decide_eq_true_eq] at fit
          omega
        rw [if_pos outOfRange]
        exact h.refused (by simp only [dif_pos named, if_neg running, if_neg fit])
  · rw [dif_neg named]
    exact h.refused (by simp only [dif_neg named])

/-- TIER-SET of the unbound row. -/
theorem exec_tierSet_unbound {s u : State} {f : Req} {r : Nat} (h : s.Takes 0x05 f u) :
    exec (.tierSet f (.unbound r)) s = .next (
      if u.part = .run then u.reply 0x05 f.tag .state .none
      else if r < 50 ∨ 5000 < r then u.reply 0x05 f.tag .range .none
      else { u with unbound := r }.reply 0x05 f.tag .ok .none) := by
  refine congrArg Host.Outcome.next ?_
  by_cases running : u.part = .run
  · rw [if_pos running]
    exact h.refused (by simp only [if_pos running])
  · rw [if_neg running]
    cases fit : reservationOk r with
    | false =>
      rw [if_pos (reservationOk_eq_false.mp fit)]
      exact h.refused (by simp [running, fit])
    | true =>
      have inRange : ¬ (r < 50 ∨ 5000 < r) := fun bad => by simp [reservationOk_eq_false.mpr bad] at fit
      rw [if_neg inRange]
      exact h.served (r := ⟨{ u with unbound := r }, .ok, .none⟩) (by simp [running, fit]) rfl

/-- Settles O18: each of the four requests is served on the state its frame was taken from. -/
theorem partRequestsDoTheirWork : Obligations.PartRequestsDoTheirWork :=
  ⟨fun _ _ _ h => congrArg Host.Outcome.next (h.served rfl rfl), fun _ _ _ h => exec_start h,
    fun _ _ _ _ _ h => congrArg Host.Outcome.next (h.served rfl rfl), fun _ _ _ _ _ _ _ h => exec_tierSet_tier h,
    fun _ _ _ _ h => exec_tierSet_unbound h⟩

end Sys2Proof.Machine

/-!
PROOF LAYER. The shedding rule in full (R47): the channel it takes is first in its order among those it may take, and it takes one
only while the committed total exceeds the cap; and what of an account a recompute leaves alone (R46).
-/
namespace Sys2Proof.Machine

/-! ## The order of shedding -/

/-- One step of the choice: the channel kept so far, or the one at hand where the rule takes that first (R47). -/
def State.shedFirst (s : State) (best : Option Chan) (c : Chan) : Option Chan :=
  match best with
  | none => some c
  | some b => if s.shedsBefore c b then some c else some b

/-- The rule chooses among the channels it may take, one after another. -/
theorem State.shedChoice_eq_foldl (s : State) (entries : Vector Entry 8) :
    ∃ xs : List Chan, (∀ c, c ∈ xs ↔ s.Sheddable entries c) ∧ s.shedChoice entries = xs.foldl s.shedFirst none :=
  ⟨_, s.mem_sheddable entries, rfl⟩

/-- Of two channels with levels, the rule takes the one of the lower level first, or on equal levels of the higher number (R47). -/
theorem State.shedsBefore_iff {s : State} {c d : Chan} {l m : Level} (lc : (s.channel c).currentLevel = some l)
    (ld : (s.channel d).currentLevel = some m) :
    s.shedsBefore c d = true ↔ l.val < m.val ∨ l.val = m.val ∧ d.val < c.val := by
  simp only [State.shedsBefore, lc, ld, Bool.or_eq_true, Bool.and_eq_true, decide_eq_true_eq, Fin.lt_def, Fin.ext_iff]

/-- A channel taken before another has a level. -/
theorem State.level_of_shedsBefore {s : State} {c d : Chan} (before : s.shedsBefore c d = true) :
    ∃ l, (s.channel c).currentLevel = some l := by
  unfold State.shedsBefore at before
  split at before
  · next l _ lc _ => exact ⟨l, lc⟩
  · next l lc _ => exact ⟨l, lc⟩
  · cases before

theorem State.shedsBefore_irrefl (s : State) (c : Chan) : s.shedsBefore c c = false := by
  refine Bool.eq_false_of_not_eq_true fun before => ?_
  obtain ⟨l, lc⟩ := State.level_of_shedsBefore before
  have := (State.shedsBefore_iff lc lc).1 before
  omega

theorem State.shedsBefore_trans {s : State} {b c d : Chan} (x : s.shedsBefore b c = true) (y : s.shedsBefore c d = true) :
    s.shedsBefore b d = true := by
  obtain ⟨l, lb⟩ := State.level_of_shedsBefore x
  obtain ⟨m, lc⟩ := State.level_of_shedsBefore y
  cases ld : (s.channel d).currentLevel with
  | none => simp only [State.shedsBefore, lb, ld]
  | some n =>
    have first := (State.shedsBefore_iff lb lc).1 x
    have second := (State.shedsBefore_iff lc ld).1 y
    refine (State.shedsBefore_iff lb ld).2 ?_
    omega

/-- What is not taken first goes later: of two running channels, by level and number (R47). -/
theorem State.level_lt_of_not_shedsBefore {s : State} {c d : Chan} {l m : Level} (lc : (s.channel c).currentLevel = some l)
    (ld : (s.channel d).currentLevel = some m) (ne : d ≠ c) (first : s.shedsBefore d c = false) : l < m ∨ l = m ∧ d < c := by
  have later := mt (State.shedsBefore_iff ld lc).2 (by rw [first]; simp)
  have apart : d.val ≠ c.val := fun e => ne (Fin.ext e)
  rcases Nat.lt_trichotomy l.val m.val with lt | same | gt
  · exact .inl lt
  · refine .inr ⟨Fin.ext same, ?_⟩
    have : d.val < c.val := by omega
    exact this
  · omega

/-- Nothing passed in the choice is taken before what it ends with. -/
theorem State.foldl_shedFirst {s : State} (xs : List Chan) {best : Option Chan} {c : Chan}
    (e : xs.foldl s.shedFirst best = some c) :
    (∀ d ∈ xs, s.shedsBefore d c = false) ∧ ∀ b, best = some b → b = c ∨ s.shedsBefore c b = true := by
  induction xs generalizing best with
  | nil => exact ⟨by simp, fun b at_ => .inl (Option.some.inj (at_.symm.trans e))⟩
  | cons x xs ih =>
    obtain ⟨later, kept⟩ := ih (best := s.shedFirst best x) e
    have notBefore : ∀ b, b = c ∨ s.shedsBefore c b = true → s.shedsBefore b c = false := by
      rintro b (rfl | before)
      · exact s.shedsBefore_irrefl b
      · refine Bool.eq_false_of_not_eq_true fun back => ?_
        have := s.shedsBefore_irrefl c
        rw [State.shedsBefore_trans before back] at this
        cases this
    cases best with
    | none =>
      refine ⟨fun d mem => ?_, by simp⟩
      rcases List.mem_cons.1 mem with rfl | mem
      · exact notBefore d (kept d rfl)
      · exact later d mem
    | some b =>
      by_cases before : s.shedsBefore x b = true
      · have atX := kept x (if_pos before)
        refine ⟨fun d mem => ?_, ?_⟩
        · rcases List.mem_cons.1 mem with rfl | mem
          · exact notBefore d atX
          · exact later d mem
        · rintro _ ⟨⟩
          rcases atX with rfl | atX
          · exact .inr before
          · exact .inr (State.shedsBefore_trans atX before)
      · have atB := kept b (if_neg before)
        refine ⟨fun d mem => ?_, by rintro _ ⟨⟩; exact atB⟩
        rcases List.mem_cons.1 mem with rfl | mem
        · refine Bool.eq_false_of_not_eq_true fun back => ?_
          rcases atB with rfl | atB
          · exact before back
          · exact before (State.shedsBefore_trans back atB)
        · exact later d mem

/-- None that the rule may take comes before the channel it chooses (R47). -/
theorem State.first_of_shedChoice {s : State} {entries : Vector Entry 8} {c : Chan} (e : s.shedChoice entries = some c) {d : Chan}
    (may : s.Sheddable entries d) : s.shedsBefore d c = false := by
  obtain ⟨xs, mem, fold⟩ := s.shedChoice_eq_foldl entries
  exact (State.foldl_shedFirst xs (fold.symm.trans e)).1 d ((mem d).2 may)

/-! ## A run of the rule -/

/-- What holds of an account and survives the shedding of the channel chosen, made while the committed total exceeds the cap, holds
of what the rule leaves. -/
theorem State.shedLoop_induct_of_choice {s : State} {h : HeadId} {cap : Nat} (P : Account → List Notice → Prop)
    (shed : ∀ a ns c k cost, P a ns → cap < a.committed → s.shedChoice a.entries = some c → a.entries[c] = .counted k cost →
      P (a.shedAt c k cost) (ns ++ [.shed h c cost])) (n : Nat) (a : Account) (ns : List Notice) (base : P a ns) :
    P (s.shedLoop h cap n a ns).1 (s.shedLoop h cap n a ns).2 := by
  induction n generalizing a ns with
  | zero => exact base
  | succ n ih =>
    unfold State.shedLoop
    split
    · exact base
    · next above =>
      split
      · exact base
      · next c e =>
        obtain ⟨-, k, cost, counted⟩ := State.sheddable_of_choice e
        simp only [counted]
        exact ih _ _ (shed a ns c k cost base (Nat.lt_of_not_le above) e counted)

/-- From an account to another the rule has shed a channel of some cost: its entry was COUNTED, and is SHED (R47). -/
def Account.Sheds (a b : Account) (c : Chan) (cost : Nat) : Prop :=
  ∃ k, a.entries[c] = .counted k cost ∧ b.entries[c] = .shed k cost

/-- What the rule has done so far to an account of some parties, and the notices of it (R45, R47). -/
structure State.ShedFrom (s : State) (h : HeadId) (ps : List Party) (cap : Nat) (a b : Account) (ns : List Notice) : Prop where
  entries   : ∀ c, b.entries[c] = a.entries[c] ∨ s.atVenue c = false ∧ ∃ cost, a.Sheds b c cost
  committed : b.committed = s.committedOf ps b.entries
  venue     : b.venue = s.venueOf b.entries
  window    : b.window = a.window
  order     : ∀ c cost, a.Sheds b c cost → ∀ d, s.Sheddable b.entries d → d ≠ c ∧ s.shedsBefore d c = false
  needed    : (∃ c cost, a.Sheds b c cost) → ∃ c cost, a.Sheds b c cost ∧ cap < b.committed + cost
  notices   : ∀ n, n ∈ ns ↔ ∃ c cost, a.Sheds b c cost ∧ n = .shed h c cost

section
variable {s : State} {h : HeadId} {ps : List Party} {cap : Nat} {a b : Account} {ns : List Notice}

theorem Account.not_sheds_self {c : Chan} {cost : Nat} : ¬ a.Sheds a c cost := by
  rintro ⟨k, counted, shed⟩
  rw [counted] at shed
  cases shed

theorem State.ShedFrom.refl (committed : a.committed = s.committedOf ps a.entries) (venue : a.venue = s.venueOf a.entries) :
    s.ShedFrom h ps cap a a [] where
  entries _ := .inl rfl
  committed := committed
  venue := venue
  window := rfl
  order _ _ shed := absurd shed Account.not_sheds_self
  needed := fun ⟨_, _, shed⟩ => absurd shed Account.not_sheds_self
  notices n := ⟨by simp, fun ⟨_, _, shed, _⟩ => absurd shed Account.not_sheds_self⟩

/-- The channels shed after one more is: those before it, and it. -/
theorem State.ShedFrom.sheds_shedAt (run : s.ShedFrom h ps cap a b ns) {c : Chan} {k cost : Nat}
    (counted : b.entries[c] = .counted k cost) (d : Chan) (n : Nat) :
    a.Sheds (b.shedAt c k cost) d n ↔ a.Sheds b d n ∨ d = c ∧ n = cost := by
  have start : a.entries[c] = .counted k cost := by
    rcases run.entries c with e | ⟨-, _, _, -, shed⟩
    · exact e.symm.trans counted
    · rw [counted] at shed
      cases shed
  simp only [Account.Sheds, Account.shedAt_get]
  by_cases e : d = c
  · subst e
    simp only [start, counted, if_true, Entry.counted.injEq, Entry.shed.injEq, reduceCtorEq, and_false, exists_const, false_or,
      true_and]
    exact ⟨fun ⟨_, ⟨_, e⟩, _⟩ => e.symm, fun e => ⟨k, ⟨rfl, e.symm⟩, rfl, e.symm⟩⟩
  · simp only [e, if_false, false_and, or_false]

/-- The rule takes one more channel. -/
theorem State.ShedFrom.shedAt (run : s.ShedFrom h ps cap a b ns) {c : Chan} {k cost : Nat} (above : cap < b.committed)
    (choice : s.shedChoice b.entries = some c) (counted : b.entries[c] = .counted k cost) :
    s.ShedFrom h ps cap a (b.shedAt c k cost) (ns ++ [.shed h c cost]) := by
  obtain ⟨below, -⟩ := State.sheddable_of_choice choice
  have sheds := run.sheds_shedAt counted
  have total := s.committedOf_shedAt ps b below counted
  have left : (b.shedAt c k cost).committed = b.committed - cost := rfl
  have before : b.committed = s.committedOf ps b.entries := run.committed
  have still : ∀ d, s.Sheddable (b.shedAt c k cost).entries d → d ≠ c ∧ s.Sheddable b.entries d := by
    rintro d ⟨low, k', cost', e⟩
    rw [Account.shedAt_get] at e
    split at e
    · cases e
    · next ne => exact ⟨ne, low, k', cost', e⟩
  refine ⟨fun d => ?_, by omega, ?_, run.window, ?_, fun _ => ⟨c, cost, (sheds c cost).2 (.inr ⟨rfl, rfl⟩), by omega⟩,
    fun n => ?_⟩
  · by_cases e : d = c
    · subst e
      exact .inr ⟨below, cost, (sheds d cost).2 (.inr ⟨rfl, rfl⟩)⟩
    · rw [Account.shedAt_get, if_neg e]
      rcases run.entries d with same | ⟨low, n, shed⟩
      · exact .inl same
      · exact .inr ⟨low, n, (sheds d n).2 (.inl shed)⟩
  · rw [s.venueOf_shedAt b below]
    exact run.venue
  · intro d n shed x may
    obtain ⟨ne, was⟩ := still x may
    rcases (sheds d n).1 shed with old | ⟨rfl, -⟩
    · exact run.order d n old x was
    · exact ⟨ne, State.first_of_shedChoice choice was⟩
  · rw [List.mem_append, run.notices, List.mem_singleton]
    constructor
    · rintro (⟨d, m, shed, rfl⟩ | rfl)
      · exact ⟨d, m, (sheds d m).2 (.inl shed), rfl⟩
      · exact ⟨c, cost, (sheds c cost).2 (.inr ⟨rfl, rfl⟩), rfl⟩
    · rintro ⟨d, m, shed, rfl⟩
      rcases (sheds d m).1 shed with old | ⟨rfl, rfl⟩
      · exact .inl ⟨d, m, old, rfl⟩
      · exact .inr rfl

end

/-! ## A recompute -/

/-- A head's account with its entries brought up to date and its totals summed afresh: the first two steps of a recompute (R46). -/
def State.refreshed (s : State) (h : HeadId) (a : Account) : Account :=
  s.resum (s.parties h) { a with entries := s.freshEntries (s.parties h) (s.head h).floor a.entries }

section
variable {s : State} {h : HeadId} {a : Account}

theorem State.refreshed_get (c : Chan) :
    (s.refreshed h a).entries[c] = freshEntry (s.channel c) (s.parties h) (s.head h).floor c a.entries[c] :=
  s.freshEntries_get ..

/-- A recompute brings the account up to date and runs the shedding rule on it. -/
theorem State.recomputed_shedFrom :
    s.ShedFrom h (s.parties h) (s.head h).cap (s.refreshed h a) (s.recomputed h a).1 (s.recomputed h a).2 :=
  State.shedLoop_induct_of_choice (fun b ns => s.ShedFrom h (s.parties h) (s.head h).cap (s.refreshed h a) b ns)
    (fun _ _ _ _ _ run above choice counted => run.shedAt above choice counted) 8 _ _ (.refl rfl rfl)

/-- A channel that was SHED is SHED or NOT COUNTED once its entry is up to date (R46). -/
theorem State.refreshed_of_shed {c : Chan} {k cost : Nat} (was : a.entries[c] = .shed k cost) :
    (s.refreshed h a).entries[c] = .notCounted ∨ ∃ k' cost', (s.refreshed h a).entries[c] = .shed k' cost' := by
  rw [State.refreshed_get, was]
  unfold freshEntry
  split
  · exact .inr ⟨_, _, rfl⟩
  · exact .inl rfl

/-- What a recompute newly sheds is what its shedding rule sheds. -/
theorem State.recomputed_sheds_iff (c : Chan) (cost : Nat) :
    (s.refreshed h a).Sheds (s.recomputed h a).1 c cost ↔
      (¬ ∃ k cost, a.entries[c] = .shed k cost) ∧ ∃ k, (s.recomputed h a).1.entries[c] = .shed k cost := by
  constructor
  · rintro ⟨k, counted, shed⟩
    refine ⟨?_, k, shed⟩
    rintro ⟨k', cost', was⟩
    rcases State.refreshed_of_shed (s := s) (h := h) was with e | ⟨k'', cost'', e⟩ <;>
    · rw [counted] at e
      cases e
  · rintro ⟨fresh, k, shed⟩
    rcases State.recomputed_shedFrom.entries c with e | ⟨-, n, k', counted, shed'⟩
    · rw [shed, State.refreshed_get] at e
      exact absurd (shed_of_freshEntry e.symm) fresh
    · rw [shed] at shed'
      cases shed'
      exact ⟨k, counted, shed⟩

/-- A channel that was SHED costs the account nothing after a recompute: it is not restored (R46). -/
theorem State.recomputed_of_shed {c : Chan} {k cost : Nat} (was : a.entries[c] = .shed k cost) :
    (s.recomputed h a).1.entries[c].countedCost = 0 := by
  rcases State.recomputed_shedFrom.entries c with e | ⟨-, n, k', counted, shed⟩
  · rw [e]
    rcases State.refreshed_of_shed (s := s) (h := h) was with e | ⟨k', cost', e⟩ <;> rw [e] <;> rfl
  · rw [shed]
    rfl

/-- A COUNTED entry true of its channel is as true SHED: only the flag differs (R43). -/
theorem EntryTrue.shed {x : Channel} {ps : List Party} {floor : Nat} {c : Chan} {k cost : Nat}
    (true_ : EntryTrue x ps floor c (.counted k cost)) : EntryTrue x ps floor c (.shed k cost) := by
  unfold EntryTrue at *
  split at true_
  · simpa using true_
  · cases true_

/-- A SHED entry true of its channel is as true COUNTED: only the flag differs (R43). -/
theorem EntryTrue.counted {x : Channel} {ps : List Party} {floor : Nat} {c : Chan} {k cost : Nat}
    (true_ : EntryTrue x ps floor c (.shed k cost)) : EntryTrue x ps floor c (.counted k cost) := by
  unfold EntryTrue at *
  split at true_
  · simpa using true_
  · cases true_

/-- A channel whose entry is not NOT COUNTED is RUN (R43). -/
theorem EntryTrue.running {x : Channel} {ps : List Party} {floor : Nat} {c : Chan} {e : Entry}
    (true_ : EntryTrue x ps floor c e) (ne : e ≠ .notCounted) : ∃ l, x.currentLevel = some l := by
  unfold EntryTrue at true_
  split at true_
  · next run _ => exact Option.isSome_iff_exists.1 run
  · exact absurd true_ ne

/-- Every entry a recompute leaves is what R43 says of its channel. -/
theorem State.recomputed_entryTrue (c : Chan) :
    EntryTrue (s.channel c) (s.parties h) (s.head h).floor c (s.recomputed h a).1.entries[c] := by
  have fresh : EntryTrue (s.channel c) (s.parties h) (s.head h).floor c (s.refreshed h a).entries[c] := by
    rw [State.refreshed_get]
    exact freshEntry_true ..
  rcases State.recomputed_shedFrom.entries c with e | ⟨-, n, k, counted, shed⟩
  · rw [e]
    exact fresh
  · rw [shed]
    rw [counted] at fresh
    exact fresh.shed

/-- The shedding order in terms of levels: what a recompute sheds goes before every COUNTED channel it leaves below the venue
level (R47). -/
theorem State.recomputed_order {c : Chan} {cost : Nat} (shed : (s.refreshed h a).Sheds (s.recomputed h a).1 c cost) {d : Chan}
    {k n : Nat} (counted : (s.recomputed h a).1.entries[d] = .counted k n) (below : s.atVenue d = false) :
    ∃ l m, (s.channel c).currentLevel = some l ∧ (s.channel d).currentLevel = some m ∧ (l < m ∨ l = m ∧ d < c) := by
  obtain ⟨ne, first⟩ := State.recomputed_shedFrom.order c cost shed d ⟨below, k, n, counted⟩
  obtain ⟨k', -, at_⟩ := shed
  obtain ⟨l, lc⟩ := (State.recomputed_entryTrue (s := s) (h := h) (a := a) c).running (by rw [at_]; simp)
  obtain ⟨m, ld⟩ := (State.recomputed_entryTrue (s := s) (h := h) (a := a) d).running (by rw [counted]; simp)
  exact ⟨l, m, lc, ld, State.level_lt_of_not_shedsBefore lc ld ne first⟩

end

/-- Settles O30: the account is brought up to date, and then the shedding rule takes channels in its order while it must. -/
theorem recomputeBringsTheAccountUpToDate : Obligations.RecomputeBringsTheAccountUpToDate := by
  refine ⟨fun s h e => State.recompute_of_closed e, fun s h a open_ => ?_⟩
  have run := State.recomputed_shedFrom (s := s) (h := h) (a := a)
  have sheds := State.recomputed_sheds_iff (s := s) (h := h) (a := a)
  refine ⟨(s.recomputed h a).1, (s.recomputed h a).2.filter fun n => s.classEnabled (noticeClass n),
    State.recompute_of_open open_, run.window, State.recomputed_entryTrue, run.committed, run.venue, ?_, ?_, ?_,
    State.recomputed_committed_le a, ?_, ?_⟩
  · rintro c ⟨k, cost, was⟩
    exact State.recomputed_of_shed was
  · intro c cost new
    have shed := (sheds c cost).2 new
    refine ⟨?_, fun d k n counted below => State.recomputed_order shed counted below⟩
    rcases run.entries c with same | ⟨below, -⟩
    · obtain ⟨k, was, is⟩ := shed
      rw [same, was] at is
      cases is
    · exact below
  · rintro ⟨c, cost, new⟩
    obtain ⟨d, n, shed, above⟩ := run.needed ⟨c, cost, (sheds c cost).2 new⟩
    exact ⟨d, n, (sheds d n).1 shed, above⟩
  · intro n mem
    obtain ⟨c, cost, shed, e⟩ := (run.notices n).1 (List.mem_of_mem_filter mem)
    exact ⟨c, cost, (sheds c cost).1 shed, e⟩
  · intro enabled c cost new
    exact List.mem_filter.2 ⟨(run.notices _).2 ⟨c, cost, (sheds c cost).2 new, rfl⟩, enabled⟩

end Sys2Proof.Machine

/-!
PROOF LAYER. Accounts head by head (R45, R46): a head's account is in order (`State.BilledAt`) or due for a recompute
(`State.OwedAt`); what an account is made of (`State.SameAt`); and the heads that a piece of work leaves due (`State.Booked`).
-/
namespace Sys2Proof.Machine

/-! ## What an account is made of -/

/-- What an account is made of in a channel: whether it is RUN and whether at the venue level, its pace and its rated length (R41,
R43, R45). -/
def Channel.billed (x : Channel) : Bool × Bool × Nat × Nat :=
  (x.running, x.currentLevel == some venueLevel, x.pace, x.rated)

/-- The channels are the same to every account. -/
def State.ChannelsSame (s t : State) : Prop := ∀ c, (t.channel c).billed = (s.channel c).billed

theorem State.ChannelsSame.of_eq {s t : State} (e : t.channels = s.channels) : s.ChannelsSame t := fun c => by
  rw [State.channel, e]; rfl

theorem State.ChannelsSame.trans {s t u : State} (h : s.ChannelsSame t) (k : t.ChannelsSame u) : s.ChannelsSame u :=
  fun c => (k c).trans (h c)

theorem State.ChannelsSame.atVenue {s t : State} (h : s.ChannelsSame t) (c : Chan) : t.atVenue c = s.atVenue c := by
  have := h c
  simp only [Channel.billed, Prod.mk.injEq] at this
  exact this.2.1

/-- The totals are sums over channels that are the same. -/
theorem State.ChannelsSame.committedOf {s t : State} (h : s.ChannelsSame t) (ps : List Party) (es : Vector Entry 8) :
    t.committedOf ps es = s.committedOf ps es := by
  simp only [State.committedOf, h.atVenue]

theorem State.ChannelsSame.venueOf {s t : State} (h : s.ChannelsSame t) (es : Vector Entry 8) : t.venueOf es = s.venueOf es := by
  simp only [State.venueOf, h.atVenue]

theorem EntryTrue.congr {x y : Channel} (same : y.billed = x.billed) {ps : List Party} {floor : Nat} {c : Chan} {e : Entry}
    (true_ : EntryTrue x ps floor c e) : EntryTrue y ps floor c e := by
  simp only [Channel.billed, Prod.mk.injEq] at same
  obtain ⟨running, -, pace, rated⟩ := same
  simpa only [EntryTrue, running, pace, rated] using true_

/-- A head's account is closed, or as it was with its cap and floor. -/
def Head.BillSame (x y : Head) : Prop := y.account = none ∨ y.account = x.account ∧ y.cap = x.cap ∧ y.floor = x.floor

theorem Head.BillSame.refl (x : Head) : x.BillSame x := .inr ⟨rfl, rfl, rfl⟩

theorem Head.BillSame.trans {x y z : Head} (h : x.BillSame y) (k : y.BillSame z) : x.BillSame z := by
  rcases k with closed | ⟨account, cap, floor⟩
  · exact .inl closed
  · rcases h with closed | ⟨account', cap', floor'⟩
    · exact .inl (account.trans closed)
    · exact .inr ⟨account.trans account', cap.trans cap', floor.trans floor'⟩

/-- Nothing that a head's account is made of has changed. -/
structure State.SameAt (s t : State) (g : HeadId) : Prop where
  head     : (s.head g).BillSame (t.head g)
  parties  : t.parties g = s.parties g
  channels : s.ChannelsSame t

theorem State.SameAt.trans {s t u : State} {g : HeadId} (h : s.SameAt t g) (k : t.SameAt u g) : s.SameAt u g where
  head := h.head.trans k.head
  parties := k.parties.trans h.parties
  channels := h.channels.trans k.channels

/-! ## One head's account -/

/-- A head's account, if open, is true and within the cap, and so are the reservations by themselves (R45, R46). -/
def State.BilledAt (s : State) (g : HeadId) : Prop :=
  ∀ a, (s.head g).account = some a →
    s.AccountTrue g a ∧ a.committed ≤ (s.head g).cap ∧ resSum (s.parties g) ≤ (s.head g).cap

/-- A recompute would bring a head's account, if open, in order: the reservations are within the cap, and no venue-level channel is
SHED (R46, R47). -/
def State.OwedAt (s : State) (g : HeadId) : Prop :=
  ∀ a, (s.head g).account = some a → s.NoVenueShed a ∧ resSum (s.parties g) ≤ (s.head g).cap

theorem State.airtimeInv_iff {s : State} : s.AirtimeInv ↔ ∀ g, s.BilledAt g := Iff.rfl

section
variable {s t : State} {g h : HeadId}

theorem State.BilledAt.of_closed (e : (s.head g).account = none) : s.BilledAt g := fun a e' => by
  rw [e] at e'; cases e'

theorem State.BilledAt.owed (b : s.BilledAt g) : s.OwedAt g := fun a e =>
  have ⟨true_, _, room⟩ := b a e
  ⟨true_.noVenueShed, room⟩

theorem State.NoVenueShed.same {a : Account} (v : s.NoVenueShed a) (same : s.ChannelsSame t) : t.NoVenueShed a :=
  fun c at_ => v c (same.atVenue c ▸ at_)

theorem State.AccountTrue.same {a : Account} (true_ : s.AccountTrue g a) (channels : s.ChannelsSame t)
    (parties : t.parties g = s.parties g) (floor : (t.head g).floor = (s.head g).floor) : t.AccountTrue g a := by
  obtain ⟨entries, committed, venue, shed⟩ := true_
  refine ⟨fun c => ?_, ?_, ?_, State.NoVenueShed.same (s := s) shed channels⟩
  · rw [parties, floor]
    exact (entries c).congr (channels c)
  · rw [parties, channels.committedOf]
    exact committed
  · rw [channels.venueOf]
    exact venue

theorem State.BilledAt.same (b : s.BilledAt g) (same : s.SameAt t g) : t.BilledAt g := by
  intro a e
  rcases same.head with closed | ⟨account, cap, floor⟩
  · rw [closed] at e
    cases e
  · obtain ⟨true_, within, room⟩ := b a (account.symm.trans e)
    rw [cap, same.parties]
    exact ⟨true_.same same.channels same.parties floor, within, room⟩

/-- An account stays due while the reservations are within the cap. -/
theorem State.OwedAt.of_room (o : s.OwedAt g) (head : (s.head g).BillSame (t.head g)) (channels : s.ChannelsSame t)
    (room : ∀ a, (s.head g).account = some a → resSum (t.parties g) ≤ (s.head g).cap) : t.OwedAt g := by
  intro a e
  rcases head with closed | ⟨account, cap, -⟩
  · rw [closed] at e
    cases e
  · have before := account.symm.trans e
    rw [cap]
    exact ⟨State.NoVenueShed.same (o a before).1 channels, room a before⟩

theorem State.OwedAt.same (o : s.OwedAt g) (same : s.SameAt t g) : t.OwedAt g :=
  o.of_room same.head same.channels fun a e => by
    rw [same.parties]
    exact (o a e).2

/-- A recompute of a head whose account is due brings it in order (R46). -/
theorem State.OwedAt.recompute (o : s.OwedAt g) : (s.recompute g).BilledAt g := by
  cases e : (s.head g).account with
  | none =>
    rw [State.recompute_of_closed e]
    exact .of_closed e
  | some a =>
    obtain ⟨clean, room⟩ := o a e
    intro b e'
    rw [State.recompute_head_self e] at e'
    cases e'
    have true_ := s.recomputed_true g clean
    rw [State.recompute_head_self e, State.recompute_parties]
    exact ⟨true_.congr (s.recompute_channels g) (s.recompute_parties g g) (by rw [State.recompute_head_self e]),
      State.recomputed_committed_le a room, room⟩

/-- A recompute of one head changes nothing that another's account is made of. -/
theorem State.recompute_sameAt (s : State) (ne : g ≠ h) : s.SameAt (s.recompute h) g where
  head := by
    rw [s.recompute_head_of_ne ne]
    exact .refl _
  parties := s.recompute_parties h g
  channels := .of_eq (s.recompute_channels h)

theorem State.OwedAt.recompute_any (o : s.OwedAt g) (h : HeadId) : (s.recompute h).OwedAt g := by
  by_cases e : g = h
  · subst e
    exact o.recompute.owed
  · exact o.same (s.recompute_sameAt e)

theorem State.BilledAt.recompute_any (b : s.BilledAt g) (h : HeadId) : (s.recompute h).BilledAt g := by
  by_cases e : g = h
  · subst e
    exact b.owed.recompute
  · exact b.same (s.recompute_sameAt e)

end

/-! ## Every head's account -/

/-- Every head's account is in order but for those of some heads, which are due for a recompute. -/
def State.Booked (s : State) (owed : HeadId → Prop) : Prop := ∀ g, s.OwedAt g ∧ (¬ owed g → s.BilledAt g)

/-- No head is due. -/
def NoHead (_ : HeadId) : Prop := False

theorem State.booked_noHead {s : State} : s.Booked NoHead ↔ s.AirtimeInv :=
  ⟨fun b g => (b g).2 id, fun inv g => ⟨(State.airtimeInv_iff.1 inv g).owed, fun _ => inv g⟩⟩

/-- Nothing that any account is made of has changed. -/
def State.Still (s t : State) : Prop := ∀ g, s.SameAt t g

theorem State.Still.trans {s t u : State} (h : s.Still t) (k : t.Still u) : s.Still u := fun g => (h g).trans (k g)

theorem State.parties_congr {s t : State} (stations : t.stations = s.stations) (holds : t.holds = s.holds) (g : HeadId) :
    t.parties g = s.parties g := by
  rw [State.parties, State.parties, State.holdsAt, State.holdsAt, stations, holds]

theorem State.Still.of_heads {s t : State} (heads : ∀ g, (s.head g).BillSame (t.head g)) (stations : t.stations = s.stations)
    (holds : t.holds = s.holds) (channels : s.ChannelsSame t) : s.Still t := fun g =>
  ⟨heads g, State.parties_congr stations holds g, channels⟩

theorem State.Still.of_eq {s t : State} (heads : t.heads = s.heads) (stations : t.stations = s.stations)
    (holds : t.holds = s.holds) (channels : t.channels = s.channels) : s.Still t :=
  .of_heads (fun g => by rw [State.head_congr heads g]; exact .refl _) stations holds (.of_eq channels)

theorem State.Still.refl (s : State) : s.Still s := .of_eq rfl rfl rfl rfl

/-- A head record written with its account closed or as it was. -/
theorem State.Still.setHead {s : State} {h : HeadId} {x : Head} (e : (s.head h).BillSame x) : s.Still (s.setHead h x) := by
  refine .of_heads (fun g => ?_) rfl rfl (.of_eq rfl)
  rw [State.head_setHead]
  split
  · next at_ => rw [at_]; exact e
  · exact .refl _

/-- A channel's record written with the same to bill. -/
theorem State.Still.setChannel {s : State} {c : Chan} {x : Channel} (e : x.billed = (s.channel c).billed) :
    s.Still (s.setChannel c x) := by
  refine .of_heads (fun g => .refl _) rfl rfl fun d => ?_
  simp only [State.channel, State.setChannel, Fin.getElem_fin, Vector.getElem_set]
  split
  · next at_ =>
    have same : c = d := Fin.ext at_
    subst same
    exact e
  · rfl

theorem State.still_linkWork : LinkWork State.Still where
  refl := .refl
  trans h k := h.trans k
  flush s := by rw [State.flush_eq]; exact .of_eq rfl rfl rfl rfl
  reply _ _ _ _ _ := .of_eq rfl rfl rfl rfl
  take e := by
    obtain ⟨-, ⟨-, rfl⟩ | ⟨g, rest, -, -, -, -, rfl⟩⟩ := State.takeRequest_eq_some e
    · exact .refl _
    · exact .of_eq rfl rfl rfl rfl

section
variable {s t : State} {owed : HeadId → Prop} (b : s.Booked owed)
include b

theorem State.Booked.mono {wider : HeadId → Prop} (sub : ∀ g, owed g → wider g) : s.Booked wider :=
  fun g => ⟨(b g).1, fun n => (b g).2 fun m => n (sub g m)⟩

theorem State.Booked.still (same : s.Still t) : t.Booked owed :=
  fun g => ⟨(b g).1.same (same g), fun n => ((b g).2 n).same (same g)⟩

/-- Work that touches what the accounts of heads that are due are made of. -/
theorem State.Booked.change (others : ∀ g, ¬ owed g → s.SameAt t g) (due : ∀ g, owed g → t.OwedAt g) : t.Booked owed := by
  intro g
  by_cases m : owed g
  · exact ⟨due g m, fun n => absurd m n⟩
  · exact ⟨(b g).1.same (others g m), fun _ => ((b g).2 m).same (others g m)⟩

/-- Work on stations and holds at heads that are due, which keeps the reservations within the caps. -/
theorem State.Booked.records (heads : t.heads = s.heads) (channels : t.channels = s.channels)
    (others : ∀ g, ¬ owed g → t.parties g = s.parties g)
    (room : ∀ g a, owed g → (s.head g).account = some a → resSum (t.parties g) ≤ (s.head g).cap) : t.Booked owed := by
  have head : ∀ g, (s.head g).BillSame (t.head g) := fun g => by rw [State.head_congr heads g]; exact .refl _
  exact b.change (fun g n => ⟨head g, others g n, .of_eq channels⟩)
    fun g m => (b g).1.of_room (head g) (.of_eq channels) fun a => room g a m

/-- Reservations never above those before are within the caps. -/
theorem State.Booked.records_le (heads : t.heads = s.heads) (channels : t.channels = s.channels)
    (others : ∀ g, ¬ owed g → t.parties g = s.parties g) (le : ∀ g, owed g → resSum (t.parties g) ≤ resSum (s.parties g)) :
    t.Booked owed :=
  b.records heads channels others fun g a m e => (le g m).trans ((b g).1 a e).2

/-- A recompute settles what its head is due. -/
theorem State.Booked.recompute (h : HeadId) : (s.recompute h).Booked fun g => owed g ∧ g ≠ h := by
  refine fun g => ⟨(b g).1.recompute_any h, fun n => ?_⟩
  by_cases e : g = h
  · subst e
    exact (b g).1.recompute
  · exact ((b g).2 fun m => n ⟨m, e⟩).recompute_any h

/-- A recompute of the one head that is due leaves none due. -/
theorem State.Booked.recompute_last {h : HeadId} {rest : HeadId → Prop} (only : ∀ g, owed g → g = h ∨ rest g) :
    (s.recompute h).Booked rest :=
  (b.recompute h).mono fun g m => (only g m.1).resolve_left m.2

theorem State.Booked.airtime (none_ : ∀ g, ¬ owed g) : s.AirtimeInv := fun g => (b g).2 (none_ g)

end

/-! ## Members as parties -/

/-- A station as a party at a head, if it is a member there (R42). -/
def Station.partyAt (g : HeadId) (st : Station) : Option Party :=
  if st.current = some g then some ⟨st.res, st.chans, st.rate⟩ else none

theorem State.memberParties_eq_filterMap (s : State) (g : HeadId) :
    s.memberParties g = s.stations.filterMap fun p => p.2.partyAt g := by
  unfold State.memberParties
  induction s.stations with
  | nil => rfl
  | cons p l ih =>
    by_cases own : p.2.current = some g
    · simp only [List.filter_cons, own, beq_self_eq_true, if_true, List.map_cons, List.filterMap_cons, Station.partyAt, ih]
    · simp only [List.filter_cons, beq_eq_false_iff_ne.2 own, Bool.false_eq_true, if_false, List.filterMap_cons,
        Station.partyAt, own, ih]

/-- A record written that counts as the one before leaves the list of what the records count as. -/
theorem Table.filterMap_put {α β : Type} {t : Table α} (w : Table.wf t) {i : Nat} {x : α} {f : α → Option β}
    (same : f x = (Table.get t i).bind f) : ((Table.put t i x).filterMap fun p => f p.2) = t.filterMap fun p => f p.2 := by
  induction t with
  | nil => simp_all [Table.put, Table.get]
  | cons a rest ih =>
    obtain ⟨j, y⟩ := a
    have tail : Table.wf rest := (List.pairwise_cons.1 w).2
    have below := (List.pairwise_cons.1 w).1
    simp only [Table.put]
    split
    · next lt =>
      have vacant : Table.get ((j, y) :: rest) i = none := by
        cases e : Table.get ((j, y) :: rest) i with
        | none => rfl
        | some z =>
          rcases List.mem_cons.1 (Table.get_eq_some_mem e) with at_ | mem
          · cases at_
            omega
          · have := below i (List.mem_map_of_mem mem)
            omega
      rw [vacant, Option.bind_none] at same
      rw [List.filterMap_cons, same]
    · split
      · next eq =>
        have old : Table.get ((j, y) :: rest) i = some y := by rw [Table.get, if_pos eq.symm]
        rw [old, Option.bind_some] at same
        rw [List.filterMap_cons, List.filterMap_cons, same]
      · next ne =>
        have old : Table.get ((j, y) :: rest) i = Table.get rest i := by rw [Table.get, if_neg (fun e => ne e.symm)]
        rw [old] at same
        rw [List.filterMap_cons, List.filterMap_cons, ih tail same]

theorem Table.filterMap_drop {α β : Type} {t : Table α} (w : Table.wf t) {i : Nat} {f : α → Option β}
    (none_ : (Table.get t i).bind f = none) : ((Table.drop t i).filterMap fun p => f p.2) = t.filterMap fun p => f p.2 := by
  rw [Table.drop, List.filterMap_filter]
  refine List.filterMap_congr fun p mem => ?_
  split
  · rfl
  · next at_ =>
    have here : Table.get t p.1 = some p.2 := Table.get_of_mem w mem
    have own : p.1 = i := by simpa using at_
    rw [own] at here
    rw [here, Option.bind_some] at none_
    exact none_.symm

section
variable {s : State} (w : Table.wf s.stations)
include w

/-- A station's record written that is the same party at a head leaves the parties there. -/
theorem State.parties_setStation_of_partyAt {i : Nat} {x : Station} {g : HeadId}
    (same : x.partyAt g = (s.station i).bind (Station.partyAt g)) : (s.setStation i x).parties g = s.parties g := by
  have members : (s.setStation i x).memberParties g = s.memberParties g := by
    rw [State.memberParties_eq_filterMap, State.memberParties_eq_filterMap]
    exact Table.filterMap_put w same
  rw [State.parties_eq, State.parties_eq, members]
  rfl

end

/-- A station's record changed into the same party everywhere leaves the parties. -/
theorem State.updateStation_still (s : State) {i : Nat} {f : Station → Station} (same : ∀ st g, (f st).partyAt g = st.partyAt g) :
    s.Still (s.updateStation i f) := by
  refine fun g => ⟨.refl _, ?_, .of_eq rfl⟩
  have members : (s.updateStation i f).memberParties g = s.memberParties g := by
    rw [State.memberParties_eq_filterMap, State.memberParties_eq_filterMap]
    show (Table.update s.stations i f).filterMap _ = _
    rw [Table.update, List.filterMap_map]
    refine List.filterMap_congr fun p _ => ?_
    simp only [Function.comp]
    split
    · exact same p.2 g
    · rfl
  rw [State.parties_eq, State.parties_eq, members]
  rfl

end Sys2Proof.Machine

/-!
PROOF LAYER. Accounts under the work on stations and holds: which heads each operation leaves due for a recompute, and that it
keeps the reservations within the caps (R51, R52, R61).
-/
namespace Sys2Proof.Machine

/-! ## Where stations and holds are -/

/-- The heads a station is at: its current head and its target (R19). -/
def State.stance (s : State) (i : Nat) : Option (Option HeadId × Option HeadId) :=
  (s.station i).map fun st => (st.current, st.target)

/-- A station is at a head, as a member or on its way to it: a change of its channel set concerns the head's account (R38). -/
def State.Reaches (s : State) (i : Nat) (g : HeadId) : Prop := ∃ p, s.stance i = some p ∧ (p.1 = some g ∨ p.2 = some g)

/-- Every hold is that of a station on its way from its source to its target (R61). -/
def State.Aimed (s : State) : Prop := ∀ x ∈ s.holds, s.stance x.station = some (some x.source, some x.target)

section
variable {s t : State}

theorem State.stance_congr (e : t.stations = s.stations) : t.stance = s.stance := by
  funext i
  rw [State.stance, State.station, e]
  rfl

theorem State.stance_of_station {i : Nat} {st : Station} (e : s.station i = some st) : s.stance i = some (st.current, st.target) := by
  rw [State.stance, e]; rfl

theorem State.Reaches.congr {i : Nat} {g : HeadId} (e : t.stance i = s.stance i) : t.Reaches i g ↔ s.Reaches i g := by
  rw [State.Reaches, State.Reaches, e]

theorem State.Aimed.congr (aimed : s.Aimed) (stance : ∀ i, t.stance i = s.stance i)
    (holds : ∀ x ∈ t.holds, ∃ y ∈ s.holds, y.station = x.station ∧ y.source = x.source ∧ y.target = x.target) : t.Aimed := by
  intro x mem
  obtain ⟨y, old, station, source, target⟩ := holds x mem
  rw [stance, ← station, ← source, ← target]
  exact aimed y old

theorem State.reaches_of_headOf {i : Nat} {g : HeadId} (e : s.headOf i = some g) : s.Reaches i g := by
  obtain ⟨st, at_, cur⟩ := Option.bind_eq_some_iff.1 e
  exact ⟨_, State.stance_of_station at_, .inl cur⟩

theorem State.headOf_eq_of_stance {i : Nat} (e : t.stance i = s.stance i) : t.headOf i = s.headOf i := by
  have : ∀ u : State, u.headOf i = (u.stance i).bind Prod.fst := fun u => by
    rw [State.headOf, State.stance]
    cases u.station i <;> rfl
  rw [this, this, e]

theorem State.MovesLaw.aimed (law : s.MovesLaw) : s.Aimed := by
  intro x mem
  obtain ⟨-, st, e, -, source, target, -⟩ := (law.shapes x.station).placed.hold x mem rfl
  rw [State.stance_of_station e, source, target]

end

/-! ## A station's record written -/

/-- What a record at an index adds to the reservations at a head; nothing where none stands. -/
def State.resAt (s : State) (i : Nat) (g : HeadId) : Nat := ((s.station i).map (Station.resAt g)).getD 0

theorem State.resSum_setStation_any {s : State} (w : Table.wf s.stations) (i : Nat) (x : Station) (g : HeadId) :
    resSum ((s.setStation i x).parties g) + s.resAt i g = resSum (s.parties g) + x.resAt g := by
  have total := Table.sum_put w i x (Station.resAt g)
  have old : ((Table.get s.stations i).map (Station.resAt g)).getD 0 = s.resAt i g := rfl
  rw [State.resSum_parties, State.resSum_parties]
  have holds : (s.setStation i x).holdsAt g = s.holdsAt g := rfl
  have stations : (s.setStation i x).stations = Table.put s.stations i x := rfl
  rw [holds, stations]
  omega

section
variable {s : State} {owed : HeadId → Prop} (b : s.Booked owed) (w : Table.wf s.stations)
include b w

/-- A station's record written. Heads where it is another party than it was are due; there the reservations stay within the cap. -/
theorem State.Booked.setStation {i : Nat} {x : Station}
    (others : ∀ g, ¬ owed g → x.partyAt g = (s.station i).bind (Station.partyAt g))
    (room : ∀ g a, owed g → (s.head g).account = some a →
      resSum (s.parties g) + x.resAt g ≤ (s.head g).cap + s.resAt i g) : (s.setStation i x).Booked owed := by
  refine b.records rfl rfl (fun g n => State.parties_setStation_of_partyAt w (others g n)) fun g a m e => ?_
  have := State.resSum_setStation_any w i x g
  have := room g a m e
  omega

/-- A station's record written that asks for no more at any head. -/
theorem State.Booked.setStation_le {i : Nat} {x : Station}
    (others : ∀ g, ¬ owed g → x.partyAt g = (s.station i).bind (Station.partyAt g))
    (le : ∀ g, owed g → x.resAt g ≤ s.resAt i g) : (s.setStation i x).Booked owed := by
  refine b.setStation w others fun g a m e => ?_
  have := le g m
  have := ((b g).1 a e).2
  omega

theorem State.Booked.updateStation_le {i : Nat} {f : Station → Station}
    (others : ∀ st g, s.station i = some st → ¬ owed g → (f st).partyAt g = st.partyAt g)
    (le : ∀ st g, s.station i = some st → owed g → (f st).resAt g ≤ st.resAt g) : (s.updateStation i f).Booked owed := by
  cases e : s.station i with
  | none =>
    have same : (s.updateStation i f).stations = s.stations := by
      show Table.update s.stations i f = s.stations
      unfold Table.update
      refine (List.map_congr_left fun p mem => ?_).trans (List.map_id _)
      have other : p.1 ≠ i := by
        rintro rfl
        have := Table.get_of_mem w mem
        rw [State.station] at e
        rw [e] at this
        cases this
      rw [if_neg other]
      rfl
    exact b.still (.of_eq rfl same rfl rfl)
  | some st =>
    rw [State.updateStation_eq_setStation w e]
    refine b.setStation_le w (fun g n => ?_) fun g m => ?_
    · rw [e]
      exact others st g e n
    · rw [State.resAt, e]
      exact le st g e m

end

/-! ## Reservations -/

theorem Station.partyAt_of_ne {st : Station} {g : HeadId} (n : st.current ≠ some g) : st.partyAt g = none := if_neg n

theorem Station.resAt_of_ne {st : Station} {g : HeadId} (n : st.current ≠ some g) : st.resAt g = 0 := if_neg n

theorem Station.resAt_of_eq {st : Station} {g : HeadId} (e : st.current = some g) : st.resAt g = st.res := if_pos e

theorem Station.partyAt_congr {x y : Station} (current : y.current = x.current) (res : y.res = x.res) (chans : y.chans = x.chans)
    (rate : y.rate = x.rate) (g : HeadId) : y.partyAt g = x.partyAt g := by
  rw [Station.partyAt, Station.partyAt, current, res, chans, rate]

/-- What a reservation set toward its goal leaves of the record. -/
theorem State.towards_kept (s : State) (h : HeadId) (st : Station) (goal : Nat) :
    (s.towards h st goal).current = st.current ∧ (s.towards h st goal).target = st.target
      ∧ (s.towards h st goal).chans = st.chans ∧ (s.towards h st goal).rate = st.rate := by
  unfold State.towards
  repeat' split
  all_goals exact ⟨rfl, rfl, rfl, rfl⟩

/-- A reservation is raised only where the reservations stay within the cap (R51). -/
theorem State.towards_room (s : State) (h : HeadId) (st : Station) (goal : Nat) (room : resSum (s.parties h) ≤ (s.head h).cap) :
    resSum (s.parties h) + (s.towards h st goal).res ≤ (s.head h).cap + st.res := by
  unfold State.towards
  repeat' split
  all_goals
    dsimp only
    omega

theorem State.stance_setReservation (s : State) (i j : Nat) : (s.setReservation i).stance j = s.stance j := by
  unfold State.setReservation
  split
  · rfl
  · next st e =>
    split
    · rfl
    · next h _ =>
      rw [State.stance, State.station_setStation]
      split
      · next at_ =>
        obtain ⟨current, target, -⟩ := s.towards_kept h st (s.tierValue st)
        subst at_
        rw [State.stance_of_station e]
        simp only [Option.map_some, current, target]
      · rfl

theorem State.setReservation_of_no_head {s : State} {i : Nat} (e : s.headOf i = none) : s.setReservation i = s := by
  unfold State.setReservation
  split
  · rfl
  · next st at_ =>
    rw [State.headOf, at_, Option.bind_some] at e
    simp only [e]

theorem State.setReservation_of_head {s : State} {i : Nat} {st : Station} {h : HeadId} (e : s.station i = some st)
    (cur : st.current = some h) : s.setReservation i = s.setStation i (s.towards h st (s.tierValue st)) := by
  simp only [State.setReservation, e, cur]

section
variable {s : State} {owed : HeadId → Prop} (b : s.Booked owed) (w : Table.wf s.stations)
include b w

/-- A station's reservation set toward its tier value, where its head is due (R51, R52). -/
theorem State.Booked.setReservation {i : Nat} (cover : ∀ h, s.headOf i = some h → owed h) : (s.setReservation i).Booked owed := by
  cases head : s.headOf i with
  | none =>
    rw [State.setReservation_of_no_head head]
    exact b
  | some h =>
    obtain ⟨st, e, cur⟩ := Option.bind_eq_some_iff.1 head
    rw [State.setReservation_of_head e cur]
    obtain ⟨current, -⟩ := s.towards_kept h st (s.tierValue st)
    have away : ∀ g, g ≠ h → st.current ≠ some g := fun g ne at_ => ne (Option.some.inj (at_.symm.trans cur))
    refine b.setStation w (fun g n => ?_) fun g a m acc => ?_
    · have ne : g ≠ h := fun at_ => n (at_ ▸ cover h head)
      rw [e, Option.bind_some, Station.partyAt_of_ne (away g ne), Station.partyAt_of_ne]
      rw [current]
      exact away g ne
    · have room := ((b g).1 a acc).2
      rw [State.resAt, e, Option.map_some, Option.getD_some]
      by_cases at_ : g = h
      · subst at_
        rw [Station.resAt_of_eq cur, Station.resAt_of_eq (current.trans cur)]
        exact s.towards_room g st _ room
      · rw [Station.resAt_of_ne (away g at_), Station.resAt_of_ne (current ▸ away g at_)]
        exact room

/-- A station's reservation settled, with the recompute its change calls for (R51, R52). -/
theorem State.Booked.settle (i : Nat) : (s.settle i).Booked owed := by
  cases head : s.headOf i with
  | none =>
    rw [State.settle, State.setReservation_of_no_head head, if_pos rfl]
    exact b
  | some h =>
    obtain ⟨st, e, cur⟩ := Option.bind_eq_some_iff.1 head
    have raised : (s.setReservation i).Booked fun g => owed g ∨ g = h :=
      (b.mono fun _ => .inl).setReservation w fun g at_ => .inr (Option.some.inj (at_.symm.trans head))
    have headAfter : (s.setReservation i).headOf i = some h := (s.headOf_setReservation i i).trans head
    unfold State.settle
    dsimp only
    split
    · next same =>
      rw [State.setReservation_of_head e cur] at same ⊢
      rw [State.station_setStation, if_pos rfl, e, Option.map_some, Option.map_some] at same
      obtain ⟨current, -, chans, rate⟩ := s.towards_kept h st (s.tierValue st)
      refine b.setStation_le w (fun g _ => ?_) fun g _ => ?_
      · rw [e]
        exact Station.partyAt_congr current (Option.some.inj same) chans rate g
      · rw [State.resAt, e, Option.map_some, Option.getD_some, Station.resAt, Station.resAt, current, Option.some.inj same]
    · rw [State.recomputeOf, headAfter]
      exact raised.recompute_last fun g m => m.symm

end

/-! ## Holds -/

theorem State.parties_of_holdsAt {s t : State} {g : HeadId} (e : t.holdsAt g = s.holdsAt g) (stations : t.stations = s.stations) :
    t.parties g = s.parties g := by
  rw [State.parties, State.parties, e, stations]

section
variable {s : State} {owed : HeadId → Prop} (b : s.Booked owed)
include b

/-- A hold taken from the list, where its target is due (R61). -/
theorem State.Booked.dropHold {i : Nat} (cover : ∀ x ∈ s.holds, x.station = i → owed x.target) : (s.dropHold i).Booked owed := by
  refine b.records_le rfl rfl (fun g n => State.parties_of_holdsAt ?_ rfl) fun g _ => ?_
  · show (s.holds.filter _).filter _ = s.holds.filter _
    rw [List.filter_filter]
    refine List.filter_congr fun x mem => ?_
    by_cases at_ : x.target = g
    · have other : x.station ≠ i := fun own => n (at_ ▸ cover x mem own)
      simp [at_, other]
    · simp [at_]
  · rw [State.resSum_parties, State.resSum_parties]
    have fewer : (((s.dropHold i).holdsAt g).map Hold.res).Sublist ((s.holdsAt g).map Hold.res) :=
      (List.Sublist.filter _ List.filter_sublist).map _
    exact Nat.add_le_add_left (fewer.sum_le_sum fun _ _ => Nat.zero_le _) _

/-- A hold's channel set changed, where its target is due (R38). -/
theorem State.Booked.updateHold {i : Nat} {f : Hold → Hold} (cover : ∀ x ∈ s.holds, x.station = i → owed x.target)
    (target : ∀ x, (f x).target = x.target) (res : ∀ x, (f x).res = x.res) : (s.updateHold i f).Booked owed := by
  have at_ : ∀ g, (s.updateHold i f).holdsAt g = (s.holdsAt g).map fun x => if x.station = i then f x else x := by
    intro g
    show (s.holds.map _).filter _ = _
    rw [List.filter_map]
    congr 1
    refine List.filter_congr fun x _ => ?_
    simp only [Function.comp]
    split
    · rw [target]
    · rfl
  refine b.records_le rfl rfl (fun g n => State.parties_of_holdsAt ?_ rfl) fun g _ => ?_
  · rw [at_]
    refine (List.map_congr_left fun x mem => ?_).trans (List.map_id _)
    have ⟨held, own⟩ := List.mem_filter.1 mem
    have other : x.station ≠ i := fun same => n (of_decide_eq_true own ▸ cover x held same)
    rw [if_neg other]
    rfl
  · rw [State.resSum_parties, State.resSum_parties, at_, List.map_map]
    refine Nat.add_le_add_left (le_of_eq ?_) _
    congr 1
    refine List.map_congr_left fun x _ => ?_
    simp only [Function.comp]
    split
    · exact res x
    · rfl

end

/-! ## Channel sets kept, and the recomputes after -/

section
variable {s : State} {owed : HeadId → Prop} (b : s.Booked owed) (w : Table.wf s.stations)
include b w

/-- A station's channel set kept to some channels, its hold's following, where the heads it is at are due (R38). -/
theorem State.Booked.keepChans (aimed : s.Aimed) {i : Nat} (cover : ∀ g, s.Reaches i g → owed g) (keep : ChanSet) :
    (s.keepChans i keep).Booked owed := by
  have kept : (s.updateStation i fun st => { st with chans := st.chans &&& keep }).Booked owed := by
    refine b.updateStation_le w (fun st g e n => ?_) fun st g _ _ => le_of_eq rfl
    have away : st.current ≠ some g := fun cur => n (cover g ⟨_, State.stance_of_station e, .inl cur⟩)
    rw [Station.partyAt_of_ne away]
    exact Station.partyAt_of_ne away
  exact kept.updateHold (fun x mem own => cover _ ⟨(some x.source, some x.target), own ▸ aimed x mem, .inr rfl⟩)
    (fun _ => rfl) fun _ => rfl

theorem State.Booked.trim (aimed : s.Aimed) {i : Nat} (cover : ∀ g, s.Reaches i g → owed g) : (s.trim i).Booked owed := by
  unfold State.trim
  split
  · exact b
  · exact b.keepChans w aimed cover _

end

theorem State.recomputeOf_stations (s : State) (i : Nat) : (s.recomputeOf i).stations = s.stations := by
  unfold State.recomputeOf
  split
  · rfl
  · exact s.recompute_stations _

/-- The recomputes of a station's heads settle what they are due (R38, log 49). -/
theorem State.Booked.recomputeBoth {s : State} {owed rest : HeadId → Prop} (b : s.Booked owed) {i : Nat}
    (only : ∀ g, owed g → s.Reaches i g ∨ rest g) : (s.recomputeBoth i).Booked rest := by
  have own : (s.recomputeOf i).Booked fun g => owed g ∧ s.headOf i ≠ some g := by
    unfold State.recomputeOf
    split
    · next e => exact b.mono fun g m => ⟨m, by rw [e]; simp⟩
    · next h e =>
      refine (b.recompute h).mono fun g ⟨m, ne⟩ => ⟨m, fun at_ => ne ?_⟩
      rw [e] at at_
      exact (Option.some.inj at_).symm
  have target : ((s.recomputeOf i).station i).bind Station.target = (s.stance i).bind Prod.snd := by
    rw [State.station, s.recomputeOf_stations, State.stance, State.station]
    cases Table.get s.stations i <;> rfl
  have left : ∀ g, owed g ∧ s.headOf i ≠ some g → (s.stance i).bind Prod.snd = some g ∨ rest g := by
    rintro g ⟨m, away⟩
    rcases only g m with ⟨p, e, cur | tgt⟩ | r
    · refine absurd ?_ away
      obtain ⟨st, at_, rfl⟩ := Option.map_eq_some_iff.1 e
      exact Option.bind_eq_some_iff.2 ⟨st, at_, cur⟩
    · exact .inl (by rw [e]; exact tgt)
    · exact .inr r
  unfold State.recomputeBoth State.recomputeTarget
  rw [target]
  split
  · next e => exact own.mono fun g m => (left g m).resolve_left (by rw [e]; simp)
  · next h e =>
    refine own.recompute_last fun g m => (left g m).imp_left fun at_ => ?_
    rw [e] at at_
    exact (Option.some.inj at_).symm

theorem State.stance_keepChans (s : State) (i : Nat) (keep : ChanSet) (j : Nat) : (s.keepChans i keep).stance j = s.stance j := by
  rw [State.stance, s.keepChans_station, State.stance]
  split
  · cases s.station j <;> rfl
  · rfl

theorem State.stance_trim (s : State) (i j : Nat) : (s.trim i).stance j = s.stance j := by
  unfold State.trim
  split
  · rfl
  · exact s.stance_keepChans ..

end Sys2Proof.Machine

/-!
PROOF LAYER. Accounts under the work on stations: joining and leaving heads, handovers, bindings, and the loss of a head (R6, R15,
R23-R38, R61-R84, R96-R101, R125-R134).
-/
namespace Sys2Proof.Machine

/-! ## Work that no account is made of -/

section
variable (s : State)

theorem State.send_still (h : HeadId) (f : LinkFrame) : s.Still (s.send h f) := .of_eq rfl rfl rfl rfl
theorem State.note_still (n : Notice) : s.Still (s.note n) := .of_eq rfl rfl rfl rfl
theorem State.discard_still (l : LinkId) : s.Still (s.discard l) := .of_eq rfl rfl rfl rfl
theorem State.expireAt_still (due : Micros) : s.Still (s.expireAt due) := .of_eq rfl rfl rfl rfl

theorem State.cancel_still (x : Hold) : s.Still (s.cancel x) := by
  unfold State.cancel
  split
  · exact .refl s
  · exact s.send_still _ _

theorem State.noteHostEnd_still (x : Hold) (k : RoamEnd) : s.Still (s.noteHostEnd x k) := by
  unfold State.noteHostEnd
  split
  · exact s.note_still _
  · exact .refl s

/-- A drain check closes an account or leaves it (R15). -/
theorem State.drainCheck_still (h : HeadId) : s.Still (s.drainCheck h) := by
  unfold State.drainCheck
  split
  · exact (State.Still.setHead (.inl rfl)).trans (State.note_still _ _)
  · exact .refl s

/-- The pass side of an unbinding leaves every station the same party (R96). -/
theorem State.unbindPass_still (p : Nat) (after : PassState) : s.Still (s.unbindPass p after) := by
  unfold State.unbindPass
  split
  · exact .refl s
  · next q _ =>
    have passes : s.Still ((s.setPass p { q with station := none, state := after }).censusMove q.cached (some q.state)
      (some after)) := .of_eq rfl rfl rfl rfl
    dsimp only
    split
    · exact passes
    · exact passes.trans (State.updateStation_still _ fun _ _ => rfl)

end

section
variable {s : State} {owed : HeadId → Prop} (b : s.Booked owed)
include b

theorem State.Booked.send (h : HeadId) (f : LinkFrame) : (s.send h f).Booked owed := b.still (s.send_still h f)
theorem State.Booked.note (n : Notice) : (s.note n).Booked owed := b.still (s.note_still n)
theorem State.Booked.drainCheck (h : HeadId) : (s.drainCheck h).Booked owed := b.still (s.drainCheck_still h)
theorem State.Booked.noteHostEnd (x : Hold) (k : RoamEnd) : (s.noteHostEnd x k).Booked owed := b.still (s.noteHostEnd_still x k)
theorem State.Booked.cancel (x : Hold) : (s.cancel x).Booked owed := b.still (s.cancel_still x)

theorem State.Booked.updateStation {i : Nat} {f : Station → Station} (same : ∀ st g, (f st).partyAt g = st.partyAt g) :
    (s.updateStation i f).Booked owed := b.still (s.updateStation_still same)

/-! ## Joining a head -/

/-- A member that joins a head with room for its reservation leaves that head due, and the one it leaves (R24-R26). -/
theorem State.Booked.join (w : Table.wf s.stations) {i : Nat} {x : Station} {h : HeadId} (cur : x.current = some h)
    (due : owed h) (left : ∀ st g, s.station i = some st → st.current = some g → owed g)
    (room : resSum (s.parties h) + x.res ≤ (s.head h).cap) : (s.setStation i x).Booked owed := by
  refine b.setStation w (fun g n => ?_) fun g a m e => ?_
  · have away : x.current ≠ some g := fun at_ => n (Option.some.inj (cur.symm.trans at_) ▸ due)
    rw [Station.partyAt_of_ne away]
    cases e : s.station i with
    | none => rfl
    | some st => exact (Station.partyAt_of_ne fun at_ => n (left st g e at_)).symm
  · by_cases at_ : g = h
    · subst at_
      rw [Station.resAt_of_eq cur]
      omega
    · rw [Station.resAt_of_ne fun at' => at_ (Option.some.inj (at'.symm.trans cur))]
      have := ((b g).1 a e).2
      omega

theorem State.Booked.associate (w : Table.wf s.stations) (h : HeadId) (addr : StationAddress) (rssi : Int) :
    (s.associate h addr rssi).Booked owed := by
  unfold State.associate
  split
  · exact b.send h _
  · next i free =>
    split
    · exact b.send h _
    · split
      · next fits =>
        obtain ⟨-, vacant, -⟩ := (Table.lowestFree_eq_some w).1 free
        have vacant : s.station i = none := vacant
        refine State.Booked.send ?_ h _
        refine State.Booked.recompute_last (h := h) (owed := fun g => g = h ∨ owed g) ?_ fun g m => m
        exact (b.mono fun _ => .inr).join w rfl (.inl rfl) (fun st g e => by rw [vacant] at e; cases e)
          (of_decide_eq_true fits)
      · exact b.send h _

theorem State.Booked.returnStation (w : Table.wf s.stations) {i : Nat} {st : Station} (e : s.station i = some st)
    (away : st.current = none) (h : HeadId) (rssi : Int) : (s.returnStation h i st rssi).Booked owed := by
  unfold State.returnStation
  split
  · exact b.send h _
  · split
    · next fits =>
      have joined : ((s.setStation i { st.arrive h rssi s.nowMs with
          state := st.standing, res := s.unbound, lapse := none }).recompute h).Booked owed := by
        refine State.Booked.recompute_last (h := h) (owed := fun g => g = h ∨ owed g) ?_ fun g m => m
        refine (b.mono fun _ => .inr).join w rfl (.inl rfl) (fun st' g e' cur => ?_) (of_decide_eq_true fits)
        cases e.symm.trans e'
        rw [away] at cur
        cases cur
      dsimp only
      split
      · refine (joined.settle ?_ i).send h _
        rw [State.recompute_stations]
        exact Table.wf_put w _ _
      · exact joined.send h _
    · exact b.send h _

theorem State.Booked.directMove (w : Table.wf s.stations) {i : Nat} {st : Station} (e : s.station i = some st) {g : HeadId}
    (cur : st.current = some g) (h : HeadId) (rssi : Int) : (s.directMove g h i st rssi).Booked owed := by
  unfold State.directMove
  split
  · exact b.send h _
  · split
    · next fits =>
      have moved : (s.setStation i (st.arrive h rssi s.nowMs)).Booked fun k => k = g ∨ k = h ∨ owed k := by
        refine (b.mono fun _ m => .inr (.inr m)).join w rfl (.inr (.inl rfl)) (fun st' k e' at_ => ?_)
          (of_decide_eq_true fits)
        cases e.symm.trans e'
        exact .inl (Option.some.inj (at_.symm.trans cur))
      exact ((((moved.send g _).send h _).recompute_last fun _ m => m).recompute_last fun _ m => m).drainCheck g
    · exact b.send h _

/-! ## Handovers -/

/-- A hold placed at a head with room for its reservation leaves that head due (R61, R69). -/
theorem State.Booked.addHold {x : Hold} (due : owed x.target) (room : resSum (s.parties x.target) + x.res ≤ (s.head x.target).cap) :
    State.Booked { s with holds := s.holds ++ [x] } owed := by
  have at_ : ∀ g, State.holdsAt { s with holds := s.holds ++ [x] } g = s.holdsAt g ++ if x.target = g then [x] else [] := by
    intro g
    show (s.holds ++ [x]).filter _ = _
    rw [List.filter_append]
    congr 1
    by_cases c : x.target = g
    · simp [c]
    · simp [c]
  refine b.records rfl rfl (fun g n => State.parties_of_holdsAt ?_ rfl) fun g a m e => ?_
  · rw [at_, if_neg fun c : x.target = g => n (c ▸ due), List.append_nil]
  · have total := State.resSum_parties s g
    rw [State.resSum_parties, at_]
    have stations : State.stations { s with holds := s.holds ++ [x] } = s.stations := rfl
    rw [stations]
    split
    · next c =>
      rw [List.map_append, List.sum_append]
      simp only [List.map_cons, List.map_nil, List.sum_cons, List.sum_nil]
      rw [c] at room
      omega
    · rw [List.append_nil, ← total]
      exact ((b g).1 a e).2

omit b in
/-- A hold admitted has room by its reservation alone (R45, R58). -/
theorem State.room_of_admitsHold {g : HeadId} {p : Party} (fits : s.admitsHold g p = true) :
    resSum (s.parties g) + p.res ≤ (s.head g).cap := by
  unfold State.admitsHold at fits
  split at fits
  · cases fits
  · obtain ⟨-, le⟩ := Bool.and_eq_true_iff.1 fits
    have le := of_decide_eq_true le
    have part : resSum (s.parties g ++ [p]) ≤ (s.head g).cap :=
      (Nat.le_add_right _ _).trans le
    simpa [resSum] using part

theorem State.Booked.startHandover (w : Table.wf s.stations) {i : Nat} {st : Station} (e : s.station i = some st) (here : HeadId)
    {target : HeadId} {rssi : Int} (fits : s.admitsHold target ⟨st.res, st.chans, rateClass rssi⟩ = true) (o : RoamOrigin) :
    (s.startHandover i st here target rssi o).Booked owed := by
  have moving : (s.setStation i { st with state := .moving, target := some target }).Booked owed :=
    b.setStation_le w (fun g _ => by rw [e]; rfl) fun g _ => by rw [State.resAt, e]; exact le_of_eq rfl
  have same : (s.setStation i { st with state := .moving, target := some target }).parties target = s.parties target :=
    State.parties_setStation (x := { st with state := .moving, target := some target }) w e rfl rfl rfl rfl target
  have room := State.room_of_admitsHold fits
  unfold State.startHandover
  dsimp only
  refine State.Booked.send ?_ target _
  refine State.Booked.recompute_last (h := target) (owed := fun g => g = target ∨ owed g) ?_ fun g m => m
  exact (moving.mono fun _ => .inr).addHold (x := ⟨i, here, target, st.res, st.chans, rssi, rateClass rssi, o, s.now + ms 50⟩)
    (.inl rfl) (by rw [same]; exact room)

/-- A hold released leaves its target's account in order (R73-R78). -/
theorem State.Booked.releaseHold (aimed : s.Aimed) {x : Hold} (mem : x ∈ s.holds) : (s.releaseHold x).Booked owed := by
  unfold State.releaseHold
  refine State.Booked.drainCheck ?_ x.target
  refine State.Booked.recompute_last (h := x.target) (owed := fun g => g = x.target ∨ owed g) ?_ fun g m => m
  refine (b.mono fun _ => .inr).dropHold fun y held own => .inl ?_
  have there := (aimed y held).symm.trans (own ▸ aimed x mem)
  simpa using (Prod.mk.inj (Option.some.inj there)).2

theorem State.Booked.undoHandover (aimed : s.Aimed) {x : Hold} (mem : x ∈ s.holds) (k : RoamEnd) :
    (s.undoHandover x k).Booked owed :=
  ((b.releaseHold aimed mem).updateStation (i := x.station) (f := fun st => st.returned s.nowMs) fun _ _ => rfl).noteHostEnd x k

/-- A station that lapses leaves its head due (R28). -/
theorem State.Booked.lapse (w : Table.wf s.stations) {i : Nat} (cover : ∀ g, s.headOf i = some g → owed g) :
    (s.lapse i).Booked owed := by
  refine b.updateStation_le w (fun st g e n => ?_) fun st g e _ => Nat.zero_le _
  refine (Station.partyAt_of_ne fun cur => n (cover g ?_)).symm
  rw [State.headOf, e]
  exact cur

end

end Sys2Proof.Machine

/-!
PROOF LAYER. Accounts under the loss and vacating of stations, the completion of handovers, bindings, and the loss of a head (R6,
R16, R28, R30, R71, R72, R76-R78, R96-R101, R114, R128-R131).
-/
namespace Sys2Proof.Machine

/-! ## Where stations stay -/

section
variable (s : State)

theorem State.stance_updateStation {i : Nat} {f : Station → Station}
    (same : ∀ st, (f st).current = st.current ∧ (f st).target = st.target) (j : Nat) :
    (s.updateStation i f).stance j = s.stance j := by
  rw [State.stance, State.station_updateStation, State.stance]
  split
  · rw [Option.map_map]
    refine congrArg (fun k => (s.station j).map k) (funext fun st => ?_)
    obtain ⟨current, target⟩ := same st
    simp only [Function.comp, current, target]
  · rfl

theorem State.stance_unbindPass (p : Nat) (after : PassState) (j : Nat) : (s.unbindPass p after).stance j = s.stance j := by
  unfold State.unbindPass
  split
  · rfl
  · dsimp only
    split
    · rfl
    · exact State.stance_updateStation _ (f := fun st => { st with pass := none }) (fun _ => ⟨rfl, rfl⟩) j

theorem State.stance_freePass (st : Station) (j : Nat) : (s.freePass st).stance j = s.stance j := by
  unfold State.freePass
  split
  · rfl
  · exact s.stance_unbindPass _ _ j

theorem State.cancel_holds (x : Hold) : (s.cancel x).holds = s.holds := by
  unfold State.cancel
  split <;> rfl

theorem State.unbindPass_wf (w : Table.wf s.stations) (p : Nat) (after : PassState) : Table.wf (s.unbindPass p after).stations := by
  unfold State.unbindPass
  split
  · exact w
  · dsimp only
    split
    · exact w
    · next i _ => exact Table.wf_update w i fun st => { st with pass := none }

theorem State.freePass_wf (w : Table.wf s.stations) (st : Station) : Table.wf (s.freePass st).stations := by
  unfold State.freePass
  split
  · exact w
  · exact s.unbindPass_wf w _ _

theorem State.stance_endHandover (i : Nat) (tell : Bool) (j : Nat) : (s.endHandover i tell).stance j = s.stance j := by
  refine congrFun (State.stance_congr ?_) j
  unfold State.endHandover
  split
  · rfl
  · rw [State.abortDeparture, State.noteHostEnd_stations, State.releaseHold_stations]
    split
    · exact s.cancel_stations _
    · rfl

end

/-! ## Loss and departure of a station -/

section
variable {s : State} {owed : HeadId → Prop} (b : s.Booked owed)
include b

theorem State.Booked.freePass (st : Station) : (s.freePass st).Booked owed := by
  unfold State.freePass
  split
  · exact b
  · exact b.still (s.unbindPass_still _ _)

/-- A hold released once CANCEL is sent to its target. -/
theorem State.Booked.releaseCancelled (aimed : s.Aimed) {x : Hold} (mem : x ∈ s.holds) :
    ((s.cancel x).releaseHold x).Booked owed := by
  have holds := s.cancel_holds x
  refine (b.cancel x).releaseHold (aimed.congr (congrFun (State.stance_congr (s.cancel_stations x))) fun y held => ?_)
    (by rw [holds]; exact mem)
  exact ⟨y, holds ▸ held, rfl, rfl, rfl⟩

theorem State.Booked.endHandover (aimed : s.Aimed) (i : Nat) (tell : Bool) : (s.endHandover i tell).Booked owed := by
  unfold State.endHandover
  split
  · exact b
  · next x e =>
    have mem : x ∈ s.holds := List.mem_of_find?_eq_some e
    unfold State.abortDeparture
    refine State.Booked.noteHostEnd ?_ x .aborted
    split
    · exact b.releaseCancelled aimed mem
    · exact b.releaseHold aimed mem

/-- A record vacated, at a head that is due (R30). -/
theorem State.Booked.dropStation (w : Table.wf s.stations) {i : Nat} (cover : ∀ g, s.headOf i = some g → owed g) :
    State.Booked { s with stations := Table.drop s.stations i } owed := by
  refine b.records_le rfl rfl (fun g n => ?_) fun g _ => ?_
  · rw [State.parties_eq, State.parties_eq]
    congr 1
    rw [State.memberParties_eq_filterMap, State.memberParties_eq_filterMap]
    refine Table.filterMap_drop w ?_
    cases e : Table.get s.stations i with
    | none => rfl
    | some st =>
      refine Station.partyAt_of_ne fun cur => n (cover g ?_)
      rw [State.headOf, State.station, e]
      exact cur
  · rw [State.resSum_parties, State.resSum_parties]
    have fewer : ((Table.drop s.stations i).map fun p => p.2.resAt g).Sublist (s.stations.map fun p => p.2.resAt g) :=
      List.filter_sublist.map _
    exact Nat.add_le_add_right (fewer.sum_le_sum fun _ _ => Nat.zero_le _) _

theorem State.Booked.leaveHead (w : Table.wf s.stations) {i : Nat} {st : Station} (cover : s.headOf i = st.current) (tell : Bool) :
    (s.leaveHead i st tell).Booked owed := by
  unfold State.leaveHead
  split
  · next away => exact b.dropStation w fun g e => by rw [cover, away] at e; cases e
  · next h cur =>
    dsimp only
    refine State.Booked.drainCheck ?_ h
    refine State.Booked.recompute_last (h := h) (owed := fun g => g = h ∨ owed g) ?_ fun g m => m
    have only : ∀ g, s.headOf i = some g → g = h ∨ owed g := fun g e =>
      .inl (Option.some.inj (e.symm.trans (cover.trans cur)))
    split
    · exact ((b.mono fun _ => .inr).send h _).dropStation w only
    · exact (b.mono fun _ => .inr).dropStation w only

theorem State.Booked.vacate (law : s.MovesLaw) (i : Nat) (tellHead tellTarget : Bool) :
    (s.vacate i tellHead tellTarget).Booked owed := by
  cases e : s.station i with
  | none =>
    rw [State.vacate_of_vacant e]
    exact b
  | some st =>
    rw [State.vacate_eq e]
    have kept := (s.endHandover_keeps i tellTarget).wf law.seating.wf
    refine State.Booked.leaveHead ((b.endHandover law.aimed i tellTarget).freePass st) ?_ ?_ tellHead
    · exact State.freePass_wf _ kept st
    · rw [State.headOf_eq_of_stance ((State.stance_freePass _ st i).trans (s.stance_endHandover i tellTarget i)), State.headOf, e]
      rfl

/-- A member lost leaves its head due, and no other (R28, R76). -/
theorem State.Booked.loseMember (law : s.MovesLaw) {i : Nat} (cover : ∀ g, s.headOf i = some g → owed g) :
    (s.loseMember i).Booked owed := by
  unfold State.loseMember
  split
  · next x some_ =>
    obtain ⟨mem, rfl⟩ := (State.holdOf_eq_some law.seating.nodup).1 some_
    have released := b.releaseCancelled law.aimed mem
    have same : ((s.cancel x).releaseHold x).stations = s.stations := (State.releaseHold_stations _ x).trans (s.cancel_stations x)
    refine (released.lapse (by rw [same]; exact law.seating.wf) fun g e => cover g ?_).noteHostEnd x .aborted
    rw [← e, State.headOf_eq_of_stance (congrFun (State.stance_congr same) x.station)]
  · exact b.lapse law.seating.wf cover

/-! ## A handover completed -/

omit b in
/-- A hold dropped frees its reservation at its target (R61, R72). -/
theorem State.resSum_dropHold {x : Hold} (mem : x ∈ s.holds) :
    resSum ((s.dropHold x.station).parties x.target) + x.res ≤ resSum (s.parties x.target) := by
  rw [State.resSum_parties, State.resSum_parties]
  have stations : (s.dropHold x.station).stations = s.stations := rfl
  have holds : (s.dropHold x.station).holdsAt x.target = (s.holdsAt x.target).filter fun y => y.station != x.station := by
    show (s.holds.filter _).filter _ = (s.holds.filter _).filter _
    rw [List.filter_filter, List.filter_filter]
    exact List.filter_congr fun y _ => Bool.and_comm _ _
  have here : x ∈ s.holdsAt x.target := List.mem_filter.2 ⟨mem, by simp⟩
  have split : ∀ l : List Hold, x ∈ l →
      ((l.filter fun y => y.station != x.station).map Hold.res).sum + x.res ≤ (l.map Hold.res).sum := by
    intro l
    induction l with
    | nil => intro m; cases m
    | cons y l ih =>
      intro m
      have fewer : ((l.filter fun y => y.station != x.station).map Hold.res).sum ≤ (l.map Hold.res).sum :=
        (List.filter_sublist.map Hold.res).sum_le_sum fun _ _ => Nat.zero_le _
      rw [List.map_cons, List.sum_cons, List.filter_cons]
      split
      · next other =>
        rcases List.mem_cons.1 m with rfl | m
        · simp at other
        · have := ih m
          rw [List.map_cons, List.sum_cons]
          omega
      · rcases List.mem_cons.1 m with rfl | m
        · omega
        · have := ih m
          omega
  rw [stations, holds, Nat.add_assoc]
  exact Nat.add_le_add_left (split _ here) _

/-- A handover completed: the station takes the airtime its hold kept at the target (R72). -/
theorem State.Booked.land (law : s.MovesLaw) {i : Nat} {st : Station} (e : s.station i = some st) {x : Hold} (mem : x ∈ s.holds)
    (own : x.station = i) : (s.land i st x).Booked owed := by
  subst own
  have cur : st.current = some x.source := by
    have := (law.aimed x mem).symm.trans (State.stance_of_station e)
    simpa using (Prod.mk.inj (Option.some.inj this)).1.symm
  have sole : ∀ y ∈ s.holds, y.station = x.station → y.target = x.target := fun y held same => by
    have := (law.aimed y held).symm.trans (same ▸ law.aimed x mem)
    simpa using (Prod.mk.inj (Option.some.inj this)).2
  have freed : ((s.send x.source (.release st.addr)).dropHold x.station).Booked
      fun g => g = x.source ∨ g = x.target ∨ owed g :=
    ((b.mono fun _ m => .inr (.inr m)).send _ _).dropHold fun y held same => .inr (.inl (sole y held same))
  have joined : (((s.send x.source (.release st.addr)).setStation x.station (st.landed x s.nowMs)).dropHold x.station).Booked
      fun g => g = x.source ∨ g = x.target ∨ owed g := by
    by_cases open_ : ((s.send x.source (.release st.addr)).head x.target).account.isSome = true
    · obtain ⟨a, acc⟩ := Option.isSome_iff_exists.1 open_
      refine freed.join (i := x.station) (x := st.landed x s.nowMs) law.seating.wf rfl (.inr (.inl rfl)) (fun st' g e' at_ => ?_) ?_
      · cases e.symm.trans e'
        exact .inl (Option.some.inj (at_.symm.trans cur))
      · exact (State.resSum_dropHold (s := s) mem).trans ((b x.target).1 a acc).2
    · have closed : (s.head x.target).account = none := Option.not_isSome_iff_eq_none.1 open_
      refine freed.setStation (i := x.station) (x := st.landed x s.nowMs) law.seating.wf (fun g n => ?_) fun g a _ acc => ?_
      · have away : (st.landed x s.nowMs).current ≠ some g := fun at_ => n (.inr (.inl (Option.some.inj at_).symm))
        have left : st.current ≠ some g := fun at_ => n (.inl (Option.some.inj (at_.symm.trans cur)))
        rw [Station.partyAt_of_ne away]
        exact ((congrArg (fun o => o.bind (Station.partyAt g)) e).trans (Station.partyAt_of_ne left)).symm
      · have ne : g ≠ x.target := fun same => by
          rw [same] at acc
          cases closed.symm.trans acc
        have away : (st.landed x s.nowMs).current ≠ some g := fun at_ => ne (Option.some.inj at_).symm
        rw [Station.resAt_of_ne away]
        have := ((freed g).1 a acc).2
        omega
  refine (State.Booked.drainCheck ?_ x.source).note _
  refine State.Booked.settle ((joined.recompute_last fun _ m => m).recompute_last fun _ m => m) ?_ x.station
  rw [State.recompute_stations, State.recompute_stations]
  exact Table.wf_put law.seating.wf _ _

end

end Sys2Proof.Machine

/-!
PROOF LAYER. Accounts under bindings, weighings and subscriptions, and the loss of a head (R6, R16, R33-R38, R65-R69, R81,
R91-R101, R114, R125-R134).
-/
namespace Sys2Proof.Machine

/-! ## Bindings -/

section
variable {s : State} {owed : HeadId → Prop} (b : s.Booked owed)
include b

/-- A station's record written that is the same party everywhere. -/
theorem State.Booked.rewrite (w : Table.wf s.stations) {i : Nat} {st x : Station} (e : s.station i = some st)
    (same : ∀ g, x.partyAt g = st.partyAt g) (res : ∀ g, x.resAt g = st.resAt g) : (s.setStation i x).Booked owed :=
  b.setStation_le w (fun g _ => by rw [e]; exact same g) fun g _ => by
    rw [State.resAt, e, res g]
    exact le_of_eq rfl

theorem State.Booked.bindStation (w : Table.wf s.stations) {i : Nat} {st : Station} (e : s.station i = some st) (p : Nat) :
    (s.bindStation i p st).Booked owed :=
  (b.rewrite w e (x := { st with state := .seated, pass := some p }) (fun _ => rfl) fun _ => rfl).settle
    (Table.wf_put w i { st with state := .seated, pass := some p }) i

theorem State.Booked.bind (w : Table.wf s.stations) {i : Nat} {st : Station} (e : s.station i = some st) (p : Nat) (q : Pass) :
    (s.bind i p st q).Booked owed :=
  State.Booked.bindStation (s := (s.setPass p { q with state := .seated, station := some i }).censusMove q.cached
    (some .admitted) (some .seated)) (b.still (.of_eq rfl rfl rfl rfl)) w e p

/-- A LAPSED station is at no head, so its trim concerns no account (R131). -/
theorem State.Booked.transfer (law : s.MovesLaw) {i : Nat} {st : Station} (e : s.station i = some st) {holder : Nat} {x : Station}
    (other : holder ≠ i) (there : s.station holder = some x) (gone : x.state = .lapsed) (p : Nat) (q : Pass) :
    (s.transfer i p holder st q).Booked owed := by
  set u := (s.setPass p { q with station := some i }).updateStation holder fun y => { y with pass := none } with u_eq
  have cleared : u.Booked owed :=
    State.Booked.updateStation (s := s.setPass p { q with station := some i }) (b.still (.of_eq rfl rfl rfl rfl)) fun _ _ => rfl
  have stance : ∀ j, u.stance j = s.stance j :=
    State.stance_updateStation (s.setPass p { q with station := some i }) (f := fun y => { y with pass := none })
      fun _ => ⟨rfl, rfl⟩
  have placed := (law.shapes holder).placed.stands x there
  have nowhere : ∀ g, ¬ u.Reaches holder g := by
    rintro g ⟨r, at_, cur⟩
    rw [stance, State.stance_of_station there, placed.lapsed.2 gone,
      Option.not_isSome_iff_eq_none.1 fun c => absurd (gone.symm.trans (placed.moving.1 c)) (by decide)] at at_
    cases at_
    simp at cur
  have wf : Table.wf u.stations := Table.wf_update law.seating.wf holder fun y => { y with pass := none }
  have aimed : u.Aimed := law.aimed.congr stance fun y m => ⟨y, m, rfl, rfl, rfl⟩
  have kept : (u.trim holder).station i = some st := by
    rw [State.trim_station, u_eq, State.station_updateStation, if_neg (Ne.symm other)]
    refine (congrArg (Option.map _) e).trans ?_
    rw [Option.map_some, if_neg (Ne.symm other)]
  exact (cleared.trim wf aimed fun g r => absurd r (nowhere g)).bindStation
    (((State.Keeps.refl u).trim holder).wf wf) kept p

theorem State.Booked.suspectIf (p : Nat) (q : Pass) (r : Bool) (c : SuspectCause) : (s.suspectIf p q r c).Booked owed := by
  unfold State.suspectIf
  split <;> exact b.still (.of_eq rfl rfl rfl rfl)

theorem State.Booked.conflict (p : Nat) (q : Pass) : (s.conflict p q).Booked owed := by
  unfold State.conflict
  dsimp only
  split
  · exact b.suspectIf _ _ _ _
  · exact b

theorem State.Booked.bindRequest (law : s.MovesLaw) {i : Nat} {st : Station} (e : s.station i = some st) (h : HeadId)
    (m : PassNumber) : (s.bindRequest h m i st).Booked owed := by
  unfold State.bindRequest
  dsimp only
  split
  · exact b.send h _
  · split
    · exact b.send h _
    · next p _ =>
      split
      · exact b.send h _
      · next q _ =>
        split
        case h_4 =>
          split
          · exact b.send h _
          · exact (b.bind law.seating.wf e p q).send h _
        case h_5 =>
          split
          · exact b.send h _
          · split
            · exact b.send h _
            · next other =>
              split
              · exact b.send h _
              · next holder bound =>
                split
                · next gone =>
                  obtain ⟨x, there, lapsed⟩ := Option.map_eq_some_iff.1 gone
                  exact (b.transfer law e (fun same => other (same ▸ bound)) there lapsed p q).send h _
                · exact (b.conflict p q).send h _
        all_goals exact b.send h _

/-! ## Stations brought into line -/

/-- A station's channel set trimmed and its heads recomputed (R38). -/
theorem State.Booked.trimBoth (w : Table.wf s.stations) (aimed : s.Aimed) {i : Nat} {rest : HeadId → Prop}
    (only : ∀ g, owed g → s.Reaches i g ∨ rest g) : ((s.trim i).recomputeBoth i).Booked rest := by
  have due : s.Booked fun g => s.Reaches i g ∨ rest g := b.mono only
  refine (due.trim w aimed fun _ => .inl).recomputeBoth fun g m => ?_
  rw [State.Reaches.congr (s.stance_trim i i)]
  exact m

theorem State.Booked.bringIntoLine (w : Table.wf s.stations) (aimed : s.Aimed) (i : Nat) : (s.bringIntoLine i).Booked owed := by
  have reserved : (s.setReservation i).Booked fun g => s.headOf i = some g ∨ owed g :=
    (b.mono fun _ => .inr).setReservation w fun _ => .inl
  have wf : Table.wf (s.setReservation i).stations := ((State.Keeps.refl s).setReservation i).wf w
  unfold State.bringIntoLine
  dsimp only
  split
  · refine reserved.trimBoth wf (aimed.congr (s.stance_setReservation i) fun x m => ⟨x, ?_, rfl, rfl, rfl⟩) fun g m => ?_
    · rw [s.setReservation_holds i] at m
      exact m
    · refine m.imp_left fun head => ?_
      rw [State.Reaches.congr (s.stance_setReservation i i)]
      exact State.reaches_of_headOf head
  · unfold State.recomputeOf
    rw [s.headOf_setReservation]
    split
    · next none_ => exact reserved.mono fun g m => m.resolve_left (by rw [none_]; simp)
    · next h some_ =>
      refine reserved.recompute_last fun g m => m.imp_left fun at_ => ?_
      rw [some_] at at_
      exact (Option.some.inj at_).symm

/-- A station that an unbinding leaves ASSOC if it was SEATED (R97). -/
def Station.unseated (st : Station) : Station := { st with state := if st.state = .seated then .assoc else st.state }

omit b in
theorem State.unbindStation_eq (i : Nat) :
    s.unbindStation i = (((s.updateStation i Station.unseated).setReservation i).trim i).recomputeBoth i := rfl

theorem State.Booked.unbindStation (w : Table.wf s.stations) (aimed : s.Aimed) (i : Nat) : (s.unbindStation i).Booked owed := by
  rw [State.unbindStation_eq]
  have stance := s.stance_updateStation (i := i) (f := Station.unseated) fun _ => ⟨rfl, rfl⟩
  have wf : Table.wf (s.updateStation i Station.unseated).stations := Table.wf_update w i Station.unseated
  have free : (s.updateStation i Station.unseated).Booked owed := b.updateStation fun _ _ => rfl
  have holds : (s.updateStation i Station.unseated).holds = s.holds := rfl
  generalize s.updateStation i Station.unseated = u at stance wf free holds
  have reserved : (u.setReservation i).Booked fun g => u.headOf i = some g ∨ owed g :=
    (free.mono fun _ => .inr).setReservation wf fun _ => .inl
  refine reserved.trimBoth (((State.Keeps.refl u).setReservation i).wf wf) (aimed.congr (fun j => ?_) fun x m => ?_) fun g m => ?_
  · rw [u.stance_setReservation, stance]
  · rw [u.setReservation_holds i, holds] at m
    exact ⟨x, m, rfl, rfl, rfl⟩
  · refine m.imp_left fun head => ?_
    rw [State.Reaches.congr (u.stance_setReservation i i)]
    exact State.reaches_of_headOf head

theorem State.Booked.unbind (w : Table.wf s.stations) (aimed : s.Aimed) (p : Nat) (after : PassState) :
    (s.unbind p after).Booked owed := by
  have freed := b.still (s.unbindPass_still p after)
  unfold State.unbind
  split
  · exact freed
  · refine freed.unbindStation (s.unbindPass_wf w p after) (aimed.congr (s.stance_unbindPass p after) fun x m => ?_) _
    have holds : (s.unbindPass p after).holds = s.holds := by
      unfold State.unbindPass
      repeat' split
      all_goals rfl
    exact ⟨x, holds ▸ m, rfl, rfl, rfl⟩

theorem State.Booked.unbindRequest (w : Table.wf s.stations) (aimed : s.Aimed) (h : HeadId) (i : Nat) (st : Station) :
    (s.unbindRequest h i st).Booked owed := by
  unfold State.unbindRequest
  split
  · exact b.send h _
  · exact (b.unbind w aimed _ _).send h _

/-- A pass amended, and its station brought into line (R100, R101). -/
theorem State.Booked.amend (w : Table.wf s.stations) (aimed : s.Aimed) (p : Nat) (q : Pass) (tier : Tier)
    (seat : Option (BitVec 16)) (declared : Option ZoneId) : (s.amend p q tier seat declared).Booked owed := by
  unfold State.amend
  dsimp only
  generalize t_eq : (s.setPass p { q with tier := tier, seat := seat, declared := declared, cached := s.cachedZone seat declared }
    ).rezoneCounts q.state q.cached (s.cachedZone seat declared) = t
  obtain ⟨heads, stations, holds, channels⟩ : t.heads = s.heads ∧ t.stations = s.stations ∧ t.holds = s.holds
      ∧ t.channels = s.channels := by
    rw [← t_eq]
    unfold State.rezoneCounts
    split <;> exact ⟨rfl, rfl, rfl, rfl⟩
  have written : t.Booked owed := b.still (.of_eq heads stations holds channels)
  have wf : Table.wf t.stations := by rw [stations]; exact w
  split
  · split
    · exact written.settle wf _
    · exact written.bringIntoLine wf (aimed.congr (congrFun (State.stance_congr stations))
        fun x m => ⟨x, holds ▸ m, rfl, rfl, rfl⟩) _
  · exact written

theorem State.Booked.visitPass (w : Table.wf s.stations) (aimed : s.Aimed) (p : Nat) : (s.visitPass p).Booked owed := by
  unfold State.visitPass
  split
  · exact b
  · next q _ =>
    have shape := s.visitZone_eq p q
    generalize s.visitZone p q = u at shape
    have zoned : u.Booked owed := by
      rw [shape]
      exact b.still (.of_eq rfl rfl rfl rfl)
    have wf : Table.wf u.stations := by rw [shape]; exact w
    have aim : u.Aimed := by rw [shape]; exact aimed
    unfold State.visitStation
    split
    · split
      · exact State.Booked.still (zoned.trimBoth wf aim fun _ => .inr) (.of_eq rfl rfl rfl rfl)
      · exact zoned
    · exact zoned

theorem State.Booked.advanceCursor : s.advanceCursor.Booked owed := by
  unfold State.advanceCursor
  dsimp only
  repeat' split
  all_goals exact b.still (.of_eq rfl rfl rfl rfl)

theorem State.Booked.scan (w : Table.wf s.stations) (aimed : s.Aimed) (p gate : Nat) (q : Pass) (dir : ScanDirection) :
    (s.scan p gate q dir).state.Booked owed := by
  have admitted : ∀ x, (s.admitPass p gate x).Booked owed := fun x => b.still (.of_eq rfl rfl rfl rfl)
  have entered : (s.scanIn p gate q).1.Booked owed := by
    unfold State.scanIn
    split
    · exact admitted _
    · split
      · exact admitted _
      · exact b
    · exact b.suspectIf _ _ _ _
    · exact b.suspectIf _ _ _ _
    · exact b
  have stamped : ((s.unbind p .out).updatePass p fun x => { x with lastGate := some gate }).Booked owed :=
    (b.unbind w aimed p .out).still (.of_eq rfl rfl rfl rfl)
  have left_ : (s.scanOut p gate q).1.Booked owed := by
    unfold State.scanOut
    split
    · exact b.suspectIf _ _ _ _
    · exact b.suspectIf _ _ _ _
    · exact stamped
    · exact stamped
    · exact b
  unfold State.scan
  cases dir with
  | into => dsimp only; split <;> exact entered
  | outOf => dsimp only; split <;> exact left_

theorem State.Booked.loadEntries (es : List PassEntry) : (s.loadEntries es).1.Booked owed := by
  induction es generalizing s with
  | nil => exact b
  | cons e es ih =>
    refine ih (s := (s.loadEntry e).1) ?_
    unfold State.loadEntry
    repeat' split
    all_goals exact b

/-! ## Weighings and subscriptions -/

theorem State.Booked.refuseRoam (i : Nat) : (s.refuseRoam i).Booked owed := b.updateStation fun _ _ => rfl

theorem State.Booked.tryCandidate (w : Table.wf s.stations) {i : Nat} {st : Station} (e : s.station i = some st) (here : HeadId)
    (c : HeadId × Int) (o : RoamOrigin) : (s.tryCandidate i st here c o).Booked owed := by
  unfold State.tryCandidate
  split
  · next fits => exact b.startHandover w e here fits o
  · exact b.refuseRoam i

theorem State.Booked.weigh (w : Table.wf s.stations) (i : Nat) : (s.weigh i).Booked owed := by
  unfold State.weigh
  split
  · exact b
  · next st e =>
    have tried : ∀ here, (match s.bestCandidate st here with
        | none => s
        | some c =>
          if (s.head here).state = HeadState.draining then s.tryCandidate i st here c RoamOrigin.drain
          else if s.passesTests st here c then s.tryCandidate i st here c RoamOrigin.report
          else s).Booked owed := by
      intro here
      split
      · exact b
      · split
        · exact b.tryCandidate w e _ _ _
        · split
          · exact b.tryCandidate w e _ _ _
          · exact b
    split
    · exact tried _
    · exact tried _
    · exact b

theorem State.Booked.takeRssi (w : Table.wf s.stations) {i : Nat} {st : Station} (e : s.station i = some st) {h : HeadId}
    (cur : st.current = some h) (rssi : Int) : (s.takeRssi h i st rssi).Booked owed := by
  rw [State.takeRssi_eq w e]
  dsimp only
  have away : ∀ g, g ≠ h → st.current ≠ some g := fun g ne at_ => ne (Option.some.inj (at_.symm.trans cur))
  split
  · next same =>
    exact b.rewrite w e (fun g => by rw [Station.partyAt, Station.partyAt, same]) fun _ => rfl
  · refine State.Booked.recompute_last (h := h) (owed := fun g => g = h ∨ owed g) ?_ fun g m => m
    refine (b.mono fun _ => .inr).setStation_le w (fun g n => ?_) fun g _ => ?_
    · have ne : g ≠ h := fun same => n (.inl same)
      rw [e, Option.bind_some, Station.partyAt_of_ne (away g ne)]
      exact Station.partyAt_of_ne (away g ne)
    · rw [State.resAt, e]
      exact le_of_eq rfl

theorem State.Booked.report (law : s.MovesLaw) {i : Nat} {st : Station} (e : s.station i = some st) {h : HeadId}
    (cur : st.current = some h) (rssi : Int) (cands : List (Nat × Int)) : (s.report h rssi cands i st).Booked owed := by
  have stored := b.takeRssi law.seating.wf e cur rssi
  have wf : Table.wf (s.takeRssi h i st rssi).stations := by
    have written := Table.wf_update law.seating.wf i fun x => { x with rssi := clampRssi rssi, rate := rateClass rssi }
    unfold State.takeRssi
    dsimp only
    split
    · exact written
    · rw [State.recompute_stations]
      exact written
  unfold State.report
  dsimp only
  split
  · exact (stored.updateStation (i := i) (f := fun x => { x with candidates := reportCandidates cands }) fun _ _ => rfl).weigh
      (Table.wf_update wf i fun x => { x with candidates := reportCandidates cands }) i
  · exact stored

/-- A channel subscribed changes the station's party at its head alone (R36). -/
theorem State.Booked.subscribe (w : Table.wf s.stations) {i : Nat} {st : Station} (e : s.station i = some st) {h : HeadId}
    (cur : st.current = some h) (chans : ChanSet) : ((s.setStation i { st with chans := chans }).recompute h).Booked owed := by
  refine State.Booked.recompute_last (h := h) (owed := fun g => g = h ∨ owed g) ?_ fun g m => m
  refine (b.mono fun _ => .inr).setStation_le w (fun g n => ?_) fun g _ => ?_
  · have away : st.current ≠ some g := fun at_ => n (.inl (Option.some.inj (at_.symm.trans cur)))
    rw [e, Option.bind_some, Station.partyAt_of_ne away]
    exact Station.partyAt_of_ne away
  · rw [State.resAt, e]
    exact le_of_eq rfl

theorem State.Booked.joinChan (w : Table.wf s.stations) {i : Nat} {st : Station} (e : s.station i = some st) {h : HeadId}
    (cur : st.current = some h) (chan : Nat) : (s.join h chan i st).Booked owed := by
  unfold State.join
  dsimp only
  split
  · split
    · exact b.send h _
    · split
      · exact b.send h _
      · split
        · exact b.send h _
        · exact (b.subscribe w e cur _).send h _
  · exact b.send h _

theorem State.Booked.leave (w : Table.wf s.stations) (aimed : s.Aimed) (h : HeadId) (chan i : Nat) (st : Station) :
    (s.leave h chan i st).Booked owed := by
  unfold State.leave
  dsimp only
  refine State.Booked.send ?_ h _
  split
  · split
    · refine ((b.mono (wider := fun g => s.Reaches i g ∨ owed g) fun _ => .inr).keepChans w aimed (fun _ => .inl)
        _).recomputeBoth fun g m => ?_
      rw [State.Reaches.congr (s.stance_keepChans i _ i)]
      exact m
    · exact b
  · exact b

theorem State.Booked.lateAnswer (h : HeadId) (addr : StationAddress) (i : Nat) : (s.lateAnswer h addr i).Booked owed :=
  (b.still (.setHead (h := h) (x := { s.head h with late := count16 (s.head h).late }) (.refl _))).send h _

theorem State.Booked.moveTo (w : Table.wf s.stations) {i : Nat} {st : Station} (e : s.station i = some st) (here h : HeadId) :
    (s.moveTo i st here h).state.Booked owed := by
  unfold State.moveTo
  split
  · exact b
  · next c named =>
    have target : c.1 = h := by simpa using List.find?_some named
    split
    · split
      · next fits =>
        refine b.startHandover w e here ?_ .host
        rw [← target]
        exact fits
      · exact b.refuseRoam i
    · exact b

theorem State.Booked.moveChecks (w : Table.wf s.stations) (i : Nat) (h : HeadId) : (s.moveChecks i h).state.Booked owed := by
  unfold State.moveChecks
  split
  · exact b
  · split
    · exact b
    · next st e =>
      split
      · exact b
      · exact b.moveTo w e _ _
      · exact b.moveTo w e _ _
      · exact b

end

end Sys2Proof.Machine

/-!
PROOF LAYER. Accounts under the work on heads and settings: the loss of a head, limits, an account opened, the window timer, and
the trims of ROAM-SET (R6, R14, R16, R17, R44, R53, R54, R60).
-/
namespace Sys2Proof.Machine

/-! ## The loss of a head -/

theorem State.headOf_updateStation (s : State) (i : Nat) {f : Station → Station} (same : ∀ st, (f st).current = st.current)
    (j : Nat) : (s.updateStation i f).headOf j = s.headOf j := by
  rw [State.headOf, State.station_updateStation, State.headOf]
  split
  · cases s.station j with
    | none => rfl
    | some st => exact same st
  · rfl

/-- A station that lapses is a member of no head; the others stay where they are (R28). -/
theorem State.headOf_of_lapse {s : State} {i j : Nat} {g : HeadId} (e : (s.lapse i).headOf j = some g) : s.headOf j = some g := by
  rw [State.headOf, State.lapse, State.station_updateStation] at e
  split at e
  · cases at_ : s.station j with
    | none => rw [at_] at e; cases e
    | some st => rw [at_] at e; cases e
  · exact e

/-- On the way through the loss of a head: its own account alone is due, and every member and hold that stands stood before. -/
structure State.Losing (s u : State) (h : HeadId) : Prop where
  booked : u.Booked (· = h)
  wf     : Table.wf u.stations
  holds  : ∀ x ∈ u.holds, x ∈ s.holds
  heads  : ∀ i g, u.headOf i = some g → s.headOf i = some g

section
variable {s u : State} {h : HeadId} (k : s.Losing u h)
include k

theorem State.Losing.still {t : State} (same : u.Still t) (stations : t.stations = u.stations) (holds : t.holds = u.holds) :
    s.Losing t h where
  booked := k.booked.still same
  wf := by rw [stations]; exact k.wf
  holds x m := k.holds x (holds ▸ m)
  heads i g e := k.heads i g (by rw [← e, State.headOf_eq_of_stance (congrFun (State.stance_congr stations) i)])

theorem State.Losing.lapse {i : Nat} (own : ∀ g, s.headOf i = some g → g = h) : s.Losing (u.lapse i) h where
  booked := k.booked.lapse k.wf fun g e => own g (k.heads i g e)
  wf := by rw [State.lapse_stations]; exact Table.wf_change k.wf _
  holds := k.holds
  heads j g e := k.heads j g (State.headOf_of_lapse e)

theorem State.Losing.cancel (x : Hold) : s.Losing (u.cancel x) h :=
  k.still (u.cancel_still x) (u.cancel_stations x) (u.cancel_holds x)

theorem State.Losing.noteHostEnd (x : Hold) (r : RoamEnd) : s.Losing (u.noteHostEnd x r) h :=
  k.still (u.noteHostEnd_still x r) (by simp) (by simp)

theorem State.Losing.abortTargetLost (aimed : s.Aimed) {x : Hold} (mem : x ∈ s.holds) (target : x.target = h) :
    s.Losing (u.abortTargetLost x) h := by
  have dropped : (u.dropHold x.station).Booked (· = h) := k.booked.dropHold fun y held own => by
    have same := (aimed y (k.holds y held)).symm.trans (own ▸ aimed x mem)
    rw [← target]
    simpa using (Prod.mk.inj (Option.some.inj same)).2
  refine State.Losing.noteHostEnd ⟨dropped.updateStation (i := x.station) (f := fun st => st.returned u.nowMs)
    fun _ _ => rfl, Table.wf_update k.wf x.station fun st => st.returned u.nowMs, fun y m => ?_,
    fun i g e => ?_⟩ x .aborted
  · exact k.holds y (List.mem_of_mem_filter m)
  · exact k.heads i g (by
      rw [← e]
      exact (State.headOf_updateStation (u.dropHold x.station) x.station (f := fun st => st.returned u.nowMs)
        (fun _ => rfl) i).symm)

theorem State.Losing.releaseHold (aimed : s.Aimed) {x : Hold} (mem : x ∈ s.holds) : s.Losing (u.releaseHold x) h where
  booked := by
    unfold State.releaseHold
    refine State.Booked.drainCheck ?_ x.target
    refine State.Booked.recompute_last (h := x.target) (owed := fun g => g = x.target ∨ g = h) ?_ fun g m => m
    refine (k.booked.mono fun _ => .inr).dropHold fun y held own => .inl ?_
    have same := (aimed y (k.holds y held)).symm.trans (own ▸ aimed x mem)
    simpa using (Prod.mk.inj (Option.some.inj same)).2
  wf := by rw [State.releaseHold_stations]; exact k.wf
  holds y m := k.holds y (by
    rw [State.releaseHold, State.drainCheck_holds, State.recompute_holds] at m
    exact List.mem_of_mem_filter m)
  heads i g e := k.heads i g (by rw [← e, State.headOf_eq_of_stance (congrFun (State.stance_congr (u.releaseHold_stations x)) i)])

theorem State.Losing.abortSourceLost (aimed : s.Aimed) {x : Hold} (mem : x ∈ s.holds) (source : x.source = h) :
    s.Losing (u.abortSourceLost x) h := by
  refine State.Losing.noteHostEnd (State.Losing.lapse ((k.cancel x).releaseHold aimed mem) fun g e => ?_) x .aborted
  obtain ⟨st, at_, cur⟩ := Option.bind_eq_some_iff.1 e
  have same := (aimed x mem).symm.trans (State.stance_of_station at_)
  rw [← source]
  exact (Option.some.inj ((Prod.mk.inj (Option.some.inj same)).1.trans cur)).symm

end

/-- The holds picked stand, and satisfy the condition. -/
theorem State.mem_holdsPicked {s : State} {pick : Hold → Bool} {x : Hold} (m : x ∈ s.holdsPicked pick) :
    x ∈ s.holds ∧ pick x = true := by
  obtain ⟨p, -, e⟩ := List.mem_filterMap.1 m
  obtain ⟨found, picked⟩ := Option.filter_eq_some_iff.1 e
  exact ⟨List.mem_of_find?_eq_some found, picked⟩

/-- The loss of a head closes its account and leaves every other in order (R6, R16). -/
theorem State.Booked.loseHead {s : State} {h : HeadId} (b : s.Booked NoHead) (w : Table.wf s.stations) (aimed : s.Aimed) :
    (s.loseHead h).Booked NoHead := by
  have start : s.Losing s h := ⟨b.mono fun _ => False.elim, w, fun _ m => m, fun _ _ e => e⟩
  have idle : s.Losing (s.loseIdleMembers h) h := by
    unfold State.loseIdleMembers
    refine List.foldlRecOn (motive := fun u => s.Losing u h) _ _ start fun u k i m => k.lapse fun g e => ?_
    obtain ⟨st, at_, cur⟩ := (State.mem_members w).1 (List.mem_of_mem_filter m)
    rw [State.headOf, at_] at e
    exact Option.some.inj (e.symm.trans cur)
  unfold State.loseHead
  dsimp only
  have turned : s.Losing (((s.loseIdleMembers h).holdsPicked fun x => x.target == h).foldl State.abortTargetLost
      (s.loseIdleMembers h)) h := by
    refine List.foldlRecOn (motive := fun u => s.Losing u h) _ _ idle fun u k x m => ?_
    obtain ⟨held, target⟩ := State.mem_holdsPicked m
    exact k.abortTargetLost aimed (idle.holds x held) (by simpa using target)
  generalize ((s.loseIdleMembers h).holdsPicked fun x => x.target == h).foldl State.abortTargetLost (s.loseIdleMembers h) = v
    at turned
  have gone : s.Losing ((v.holdsPicked fun x => x.source == h).foldl State.abortSourceLost v) h := by
    refine List.foldlRecOn (motive := fun u => s.Losing u h) _ _ turned fun u k x m => ?_
    obtain ⟨held, source⟩ := State.mem_holdsPicked m
    exact k.abortSourceLost aimed (turned.holds x held) (by simpa using source)
  generalize (v.holdsPicked fun x => x.source == h).foldl State.abortSourceLost v = t at gone
  have closed : t.Still (t.setHead h (t.head h).closed) := .setHead (.inl rfl)
  refine fun g => ⟨(gone.booked g).1.same (closed g), fun _ => ?_⟩
  by_cases e : g = h
  · subst e
    exact .of_closed (by rw [State.head_setHead_self]; rfl)
  · exact ((gone.booked g).2 e).same (closed g)

/-! ## Trims of every station -/

section
variable {s : State} {owed : HeadId → Prop} (b : s.Booked owed)
include b

theorem State.Booked.recomputeList (hs : List HeadId) : (s.recomputeList hs).Booked fun g => owed g ∧ g ∉ hs := by
  unfold State.recomputeList
  induction hs generalizing s owed with
  | nil => exact b.mono fun g m => ⟨m, List.not_mem_nil⟩
  | cons h hs ih =>
    rw [List.foldl_cons]
    exact (ih (b.recompute h)).mono fun g ⟨⟨m, ne⟩, n⟩ => ⟨m, fun c => (List.mem_cons.1 c).elim ne n⟩

theorem State.Booked.trimAll (w : Table.wf s.stations) (aimed : s.Aimed) : s.trimAll.Booked owed := by
  unfold State.trimAll
  dsimp only
  generalize crowded_eq : (s.stations.map Prod.fst).filter s.overSubscribed = crowded
  generalize heads_eq : (crowded.flatMap fun i => ((s.station i).map Station.concerned).getD []) = heads
  have concerned : ∀ i ∈ crowded, ∀ g, s.Reaches i g → g ∈ heads := by
    rintro i m g ⟨p, e, at_⟩
    obtain ⟨st, here, rfl⟩ := Option.map_eq_some_iff.1 e
    rw [← heads_eq, List.mem_flatMap]
    refine ⟨i, m, ?_⟩
    rw [here, Option.map_some, Option.getD_some, Station.concerned, List.mem_append, Option.mem_toList, Option.mem_toList]
    exact at_
  have trimmed : (crowded.foldl State.trim s).Booked (fun g => g ∈ heads ∨ owed g)
      ∧ Table.wf (crowded.foldl State.trim s).stations ∧ (crowded.foldl State.trim s).Aimed
      ∧ ∀ i, (crowded.foldl State.trim s).stance i = s.stance i := by
    refine List.foldlRecOn (motive := fun u : State => u.Booked (fun g => g ∈ heads ∨ owed g) ∧ Table.wf u.stations ∧ u.Aimed
      ∧ ∀ i, u.stance i = s.stance i) _ _ ⟨b.mono fun _ => .inr, w, aimed, fun _ => rfl⟩ ?_
    rintro u ⟨bu, wu, au, same⟩ i m
    refine ⟨bu.trim wu au fun g r => .inl (concerned i m g ((State.Reaches.congr (same i)).1 r)),
      ((State.Keeps.refl u).trim i).wf wu, au.congr (u.stance_trim i) fun x held => ?_, fun j => (u.stance_trim i j).trans (same j)⟩
    rw [u.trim_holds] at held
    obtain ⟨y, old, rfl⟩ := List.mem_map.1 held
    refine ⟨y, old, ?_⟩
    split <;> exact ⟨rfl, rfl, rfl⟩
  refine (trimmed.1.recomputeList _).mono fun g ⟨m, n⟩ => m.resolve_left fun mem => n ?_
  exact List.mem_filter.2 ⟨List.mem_finRange g, by simpa using mem⟩

end

/-! ## An account written -/

section
variable {s : State} {owed : HeadId → Prop} {h : HeadId}

/-- Of all that accounts are made of, an account written changes itself alone. -/
theorem State.setAccount_sameAt (s : State) {g : HeadId} (ne : g ≠ h) (r : Account × List Notice) : s.SameAt (s.setAccount h r) g where
  head := by
    rw [State.setAccount, State.head_noteAll, State.head_setHead_of_ne _ _ ne]
    exact .refl _
  parties := State.parties_congr (t := s.setAccount h r) rfl rfl g
  channels := .of_eq (t := s.setAccount h r) rfl

theorem State.setAccount_head (s : State) (h : HeadId) (r : Account × List Notice) :
    (s.setAccount h r).head h = { s.head h with account := some r.1 } := by
  rw [State.setAccount, State.head_noteAll, State.head_setHead_self]

theorem State.billedAt_setAccount {r : Account × List Notice} (true_ : s.AccountTrue h r.1) (within : r.1.committed ≤ (s.head h).cap)
    (room : resSum (s.parties h) ≤ (s.head h).cap) : (s.setAccount h r).BilledAt h := by
  have head := s.setAccount_head h r
  intro a e
  rw [head] at e ⊢
  cases e
  exact ⟨true_.same (.of_eq (t := s.setAccount h r) rfl) (State.parties_congr (t := s.setAccount h r) rfl rfl h) (by rw [head]), within,
    room⟩

theorem State.Booked.setAccount (b : s.Booked owed) {r : Account × List Notice} (true_ : s.AccountTrue h r.1)
    (within : r.1.committed ≤ (s.head h).cap) (room : resSum (s.parties h) ≤ (s.head h).cap) : (s.setAccount h r).Booked owed := by
  have billed := State.billedAt_setAccount true_ within room
  intro g
  by_cases e : g = h
  · subst e
    exact ⟨billed.owed, fun _ => billed⟩
  · exact ⟨(b g).1.same (s.setAccount_sameAt e r), fun n => ((b g).2 n).same (s.setAccount_sameAt e r)⟩

/-! ## The restore -/

/-- An account with one channel's entry made COUNTED (R54). -/
def Account.countAt (a : Account) (c : Chan) (k cost : Nat) : Account :=
  { a with entries := a.entries.set c (.counted k cost), committed := a.committed + cost }

theorem Account.countAt_get (a : Account) (c d : Chan) (k cost : Nat) :
    (a.countAt c k cost).entries[d] = if d = c then .counted k cost else a.entries[d] := by
  simp only [Account.countAt, Fin.getElem_fin, Vector.getElem_set, Fin.ext_iff, eq_comm]

theorem Account.shedAt_countAt {a : Account} {c : Chan} {k cost : Nat} (was : a.entries[c] = .shed k cost) :
    (a.countAt c k cost).shedAt c k cost = a := by
  have entries : (a.entries.set c (.counted k cost)).set c (.shed k cost) = a.entries := by
    rw [Vector.set_set]
    refine Vector.ext fun j lt => ?_
    rw [Vector.getElem_set]
    split
    · next at_ =>
      subst at_
      exact was.symm
    · rfl
  unfold Account.countAt Account.shedAt
  dsimp only
  rw [entries, Nat.add_sub_cancel]

/-- A channel restored below the venue level puts its cost in the committed total (R45, R54). -/
theorem State.AccountTrue.countAt {a : Account} (t : s.AccountTrue h a) {c : Chan} {k cost : Nat}
    (was : a.entries[c] = .shed k cost) : s.AccountTrue h (a.countAt c k cost) := by
  obtain ⟨entries, committed, venue, shed⟩ := t
  have below : s.atVenue c = false := by
    cases at_ : s.atVenue c with
    | false => rfl
    | true => exact absurd was (shed c at_ k cost)
  have now : (a.countAt c k cost).entries[c] = .counted k cost := by rw [Account.countAt_get, if_pos rfl]
  refine ⟨fun d => ?_, ?_, ?_, fun d v k' cost' => ?_⟩
  · rw [Account.countAt_get]
    split
    · next e =>
      subst e
      have true_ := entries d
      rw [was] at true_
      exact true_.counted
    · exact entries d
  · have total := s.committedOf_shedAt (s.parties h) (a.countAt c k cost) below now
    rw [Account.shedAt_countAt was, ← committed] at total
    exact total.symm
  · have total := s.venueOf_shedAt (a.countAt c k cost) (c := c) (k := k) (cost := cost) below
    rw [Account.shedAt_countAt was, ← venue] at total
    exact total
  · rw [Account.countAt_get]
    split
    · simp
    · exact shed d v k' cost'

/-- One channel's turn in the restore: it is SHED and fits, and is restored; else nothing happens (R54). -/
theorem restoreOne_cases (h : HeadId) (cap : Nat) (r : Account × List Notice) (c : Chan) :
    (∃ k cost, r.1.entries[c] = .shed k cost ∧ r.1.committed + cost ≤ cap
        ∧ restoreOne h cap r c = (r.1.countAt c k cost, r.2 ++ [.restored h c cost]))
      ∨ (∀ k cost, r.1.entries[c] = .shed k cost → cap < r.1.committed + cost) ∧ restoreOne h cap r c = r := by
  unfold restoreOne
  split
  · next k cost e =>
    split
    · next fits => exact .inl ⟨k, cost, e, fits, rfl⟩
    · next poor =>
      refine .inr ⟨fun k' cost' e' => ?_, rfl⟩
      cases e.symm.trans e'
      omega
  · next n => exact .inr ⟨fun k cost e => absurd e (n k cost), rfl⟩

theorem State.Booked.restoreShed (b : s.Booked owed) (n : ¬ owed h) : (s.restoreShed h).Booked owed := by
  unfold State.restoreShed
  split
  · exact b
  · next a e =>
    obtain ⟨true_, within, room⟩ := (b h).2 n a e
    have kept : ∀ cs : List Chan, s.AccountTrue h (cs.foldl (restoreOne h (s.head h).cap) (a, [])).1
        ∧ (cs.foldl (restoreOne h (s.head h).cap) (a, [])).1.committed ≤ (s.head h).cap := by
      intro cs
      refine List.foldlRecOn (motive := fun r : Account × List Notice => s.AccountTrue h r.1 ∧ r.1.committed ≤ (s.head h).cap)
        _ _ ⟨true_, within⟩ ?_
      rintro r ⟨tr, le⟩ c -
      obtain ⟨k, cost, was, fits, eq⟩ | ⟨-, eq⟩ := restoreOne_cases h (s.head h).cap r c
      · rw [eq]
        exact ⟨tr.countAt was, fits⟩
      · rw [eq]
        exact ⟨tr, le⟩
    exact b.setAccount (kept _).1 (kept _).2 room

/-! ## The window, limits and opening of an account -/

/-- An account's window timer is no part of what makes it true (R44). -/
theorem State.Booked.restartWindow (b : s.Booked owed) (n : ¬ owed h) {a : Account} (e : (s.head h).account = some a)
    (due : Micros) : (s.setHead h { s.head h with account := some { a with window := due } }).Booked owed := by
  obtain ⟨true_, within, room⟩ := (b h).2 n a e
  exact State.Booked.still (b.setAccount (r := ({ a with window := due }, [])) true_ within room)
    (.of_eq rfl rfl rfl rfl)

/-- The limits of a head written over reservations that are within them (R17). -/
theorem State.Booked.setLimits (b : s.Booked owed) {cap : Nat} (room : resSum (s.parties h) ≤ cap) (floor : Nat) :
    ((s.setHead h { s.head h with cap := cap, floor := floor }).recompute h).Booked owed := by
  refine State.Booked.recompute_last (h := h) (owed := fun g => g = h ∨ owed g) ?_ fun g m => m
  have others : ∀ g, g ≠ h → s.SameAt (s.setHead h { s.head h with cap := cap, floor := floor }) g := fun g ne =>
    ⟨by rw [State.head_setHead_of_ne _ _ ne]; exact .refl _, State.parties_congr (s := s) rfl rfl g, .of_eq (s := s) rfl⟩
  refine (b.mono fun _ => .inr).change (fun g n => others g fun e => n (.inl e)) fun g _ => ?_
  by_cases e : g = h
  · subst e
    intro a acc
    rw [State.head_setHead_self] at acc ⊢
    exact ⟨State.NoVenueShed.same ((b g).1 a acc).1 (.of_eq (s := s) rfl), room⟩
  · exact (b g).1.same (others g e)

/-- No one is at a head that does not serve (R21, R61). -/
theorem State.MovesLaw.parties_of_idle (law : s.MovesLaw) (idle : (s.head h).serving = false) : s.parties h = [] := by
  have members : (s.stations.filter fun p => p.2.current == some h) = [] := by
    refine List.filter_eq_nil_iff.2 fun p mem cur => ?_
    have serving := law.seating.members p.1 p.2 h (Table.get_of_mem law.seating.wf mem) (by simpa using cur)
    rw [idle] at serving
    cases serving
  have holds : s.holdsAt h = [] := by
    refine List.filter_eq_nil_iff.2 fun x mem target => ?_
    have serving := law.seating.targets x mem
    have same : x.target = h := by simpa using target
    rw [same, idle] at serving
    cases serving
  rw [State.parties, members, holds]
  rfl

/-- An account opens true at a head with no members and no holds (R44). -/
theorem State.Booked.openAccount (b : s.Booked owed) (empty : s.parties h = []) : (s.openAccount h).Booked owed := by
  have none_ : ∀ c : Chan, (Vector.replicate 8 Entry.notCounted)[c] = .notCounted := fun c => by simp
  have true_ : s.AccountTrue h ⟨Vector.replicate 8 .notCounted, 0, 0, s.now + ms 100⟩ := by
    refine ⟨fun c => ?_, ?_, ?_, fun c _ k cost => ?_⟩
    · rw [none_, empty]
      unfold EntryTrue
      split
      · next e => cases e
      · rfl
    · simp only [empty, State.committedOf, none_, Entry.countedCost]
      simp [resSum]
    · simp only [State.venueOf, none_, Entry.countedCost]
      simp
    · rw [none_]
      simp
  exact State.Booked.still (b.setAccount (h := h) (r := (⟨Vector.replicate 8 .notCounted, 0, 0, s.now + ms 100⟩, [])) true_
    (Nat.zero_le _) (by rw [empty]; exact Nat.zero_le _)) (.of_eq rfl rfl rfl rfl)

end

end Sys2Proof.Machine

/-!
PROOF LAYER. Accounts under the work of the Cue Controller and the Playout Unit: a channel that starts, stops or moves to or from
the venue level (R56, R57), and all else, which no account is made of.
-/
namespace Sys2Proof.Machine

/-! ## The current level -/

theorem find?_eq_some_iff_max {l : List Level} (down : l.Pairwise (· > ·)) {p : Level → Bool} {a : Level} :
    l.find? p = some a ↔ a ∈ l ∧ p a = true ∧ ∀ b ∈ l, p b = true → b ≤ a := by
  induction l with
  | nil => simp
  | cons x l ih =>
    obtain ⟨below, rest⟩ := List.pairwise_cons.1 down
    rw [List.find?_cons]
    split
    · next px =>
      constructor
      · rintro ⟨⟩
        refine ⟨List.mem_cons_self, px, fun b m _ => ?_⟩
        rcases List.mem_cons.1 m with rfl | m
        · exact le_refl _
        · exact le_of_lt (below b m)
      · rintro ⟨m, -, max⟩
        rcases List.mem_cons.1 m with rfl | m
        · rfl
        · exact absurd (max x List.mem_cons_self px) (not_le_of_gt (below a m))
    · next px =>
      rw [ih rest]
      constructor
      · rintro ⟨m, pa, max⟩
        refine ⟨List.mem_cons_of_mem _ m, pa, fun b mb pb => ?_⟩
        rcases List.mem_cons.1 mb with rfl | mb
        · rw [px] at pb; cases pb
        · exact max b mb pb
      · rintro ⟨m, pa, max⟩
        rcases List.mem_cons.1 m with rfl | m
        · rw [px] at pa; cases pa
        · exact ⟨m, pa, fun b mb => max b (List.mem_cons_of_mem _ mb)⟩

theorem mem_levelsDown (l : Level) : l ∈ levelsDown := by
  fin_cases l <;> decide

/-- The current level is the highest with an entry in service (R45, R159). -/
theorem Channel.currentLevel_eq_some {x : Channel} {l : Level} :
    x.currentLevel = some l ↔ (x.entry l).isSome ∧ ∀ j, (x.entry j).isSome → j ≤ l := by
  rw [Channel.currentLevel, find?_eq_some_iff_max (by decide)]
  exact ⟨fun ⟨_, here, max⟩ => ⟨here, fun j => max j (mem_levelsDown j)⟩,
    fun ⟨here, max⟩ => ⟨mem_levelsDown l, here, fun j _ => max j⟩⟩

/-- Channels with entries in service at the same levels have the same current level. -/
theorem Channel.currentLevel_congr {x y : Channel} (same : ∀ j, (y.entry j).isSome = (x.entry j).isSome) :
    y.currentLevel = x.currentLevel := by
  unfold Channel.currentLevel
  exact congrArg (fun p => levelsDown.find? p) (funext same)

/-- Channels at the same level with the same setup are the same to every account. -/
theorem Channel.billed_congr {x y : Channel} (level : y.currentLevel = x.currentLevel) (pace : y.pace = x.pace)
    (rated : y.rated = x.rated) : y.billed = x.billed := by
  simp only [Channel.billed, Channel.running, level, pace, rated]

theorem Channel.entry_set (x : Channel) (l j : Level) (e : Option InService) :
    Channel.entry { x with inService := x.inService.set l e } j = if j = l then e else x.entry j := by
  simp only [Channel.entry, Fin.getElem_fin, Vector.getElem_set, Fin.ext_iff, eq_comm]

/-- An entry written over one that stands moves no level. -/
theorem Channel.currentLevel_rewrite {x : Channel} {l : Level} {e : InService} (here : (x.entry l).isSome) :
    Channel.currentLevel { x with inService := x.inService.set l (some e) } = x.currentLevel := by
  refine Channel.currentLevel_congr fun j => ?_
  rw [Channel.entry_set]
  split
  · next at_ => rw [at_, here]; rfl
  · rfl

/-- A pending entry that starts above every in-service one is the current one (R177, R178). -/
theorem Channel.currentLevel_promote {x : Channel} {l : Level} {p : Pending} (top : x.above l = true) :
    (x.promote l p).currentLevel = some l := by
  have entry : ∀ j, (x.promote l p).entry j = if j = l then some ⟨p.clip, p.base, p.count, p.loop, p.base⟩ else x.entry j :=
    fun j => x.readLost.entry_set l j _
  refine Channel.currentLevel_eq_some.2 ⟨by rw [entry, if_pos rfl]; rfl, fun j e => ?_⟩
  rw [entry] at e
  split at e
  · next at_ => exact le_of_eq at_
  · obtain ⟨m, level⟩ : ∃ m, x.currentLevel = some m := by
      cases none_ : x.currentLevel with
      | some m => exact ⟨m, rfl⟩
      | none => exact absurd e (by simpa using List.find?_eq_none.1 none_ j (mem_levelsDown j))
    have le := (Channel.currentLevel_eq_some.1 level).2 j e
    unfold Channel.above at top
    rw [level] at top
    exact le_of_lt (lt_of_le_of_lt le (of_decide_eq_true top))

/-- The pending entry chosen is above every in-service one (R179). -/
theorem Channel.above_of_nextPending {x : Channel} {l : Level} {p : Pending} (e : x.nextPending = some (l, p)) : x.above l = true := by
  unfold Channel.nextPending at e
  obtain ⟨m, -, at_⟩ := List.exists_of_findSome?_eq_some e
  split at at_
  · cases at_
  · split at at_
    · next starts =>
      cases at_
      exact (Bool.and_eq_true_iff.1 starts).2
    · cases at_

/-! ## A channel as it was -/

theorem State.channel_setChannel (s : State) (c d : Chan) (x : Channel) :
    (s.setChannel c x).channel d = if d = c then x else s.channel d := by
  simp only [State.channel, State.setChannel, Fin.getElem_fin, Vector.getElem_set, Fin.ext_iff, eq_comm]

/-- The accounts are in order as if a channel's record were another: the one it was before it changed. -/
def State.BilledAs (s : State) (c : Chan) (x : Channel) (g : HeadId) : Prop := (s.setChannel c x).BilledAt g

/-- A channel's record changed: the accounts are in order as if it had not. -/
theorem State.AirtimeInv.billedAs {s t : State} (inv : s.AirtimeInv) {c : Chan} {x : Channel} (was : x.billed = (s.channel c).billed)
    (others : ∀ d, d ≠ c → (t.channel d).billed = (s.channel d).billed) (stations : t.stations = s.stations)
    (holds : t.holds = s.holds) (heads : t.heads = s.heads) (g : HeadId) : t.BilledAs c x g := by
  refine (State.airtimeInv_iff.1 inv g).same ⟨?_, State.parties_congr stations holds g, fun d => ?_⟩
  · have same : (t.setChannel c x).head g = s.head g := State.head_congr heads g
    rw [same]
    exact .refl _
  · rw [State.channel_setChannel]
    split
    · next at_ => rw [at_, was]
    · next ne => exact others d ne

section
variable {s t : State} {c : Chan} {x : Channel} {g h : HeadId}

/-- What makes an entry true knows no level (R43). -/
theorem EntryTrue.of_running {x y : Channel} (running : y.running = x.running) (pace : y.pace = x.pace) (rated : y.rated = x.rated)
    {ps : List Party} {floor : Nat} {c : Chan} {e : Entry} (true_ : EntryTrue x ps floor c e) : EntryTrue y ps floor c e := by
  simpa only [EntryTrue, running, pace, rated] using true_

theorem State.BilledAs.frame (b : s.BilledAs c x g) (head : t.head g = s.head g) (stations : t.stations = s.stations)
    (holds : t.holds = s.holds) (channels : t.channels = s.channels) : t.BilledAs c x g := by
  refine State.BilledAt.same (s := s.setChannel c x) b ⟨?_, State.parties_congr stations holds g, fun d => ?_⟩
  · have same : (t.setChannel c x).head g = (s.setChannel c x).head g := head
    rw [same]
    exact .refl _
  · rw [State.channel_setChannel, State.channel_setChannel]
    split
    · rfl
    · rw [State.channel, channels]; rfl

/-- Work head by head: each head's turn brings its own account in order and leaves the others. -/
theorem State.foldl_heads {f : State → HeadId → State} (turn : ∀ u h, State.channels u = s.channels → State.BilledAs u c x h → (f u h).BilledAt h)
    (others : ∀ u h g, g ≠ h → State.head (f u h) g = State.head u g)
    (rest : ∀ u h, State.stations (f u h) = State.stations u ∧ State.holds (f u h) = State.holds u
      ∧ State.channels (f u h) = State.channels u) (b : ∀ g, s.BilledAs c x g) :
    ((List.finRange 96).foldl f s).AirtimeInv := by
  have key : ∀ (l : List HeadId) (u : State), l.Nodup → u.channels = s.channels → (∀ g ∈ l, u.BilledAs c x g) → (∀ g, g ∉ l → u.BilledAt g) →
      ∀ g, (l.foldl f u).BilledAt g := by
    intro l
    induction l with
    | nil => exact fun u _ _ _ done g => done g List.not_mem_nil
    | cons h l ih =>
      intro u nodup same todo done g
      obtain ⟨new, nodup⟩ := List.nodup_cons.1 nodup
      obtain ⟨stations, holds, channels⟩ := rest u h
      refine ih (f u h) nodup (channels.trans same) (fun k m => ?_) (fun k n => ?_) g
      · have ne : k ≠ h := fun e => new (e ▸ m)
        exact (todo k (List.mem_cons_of_mem _ m)).frame (others u h k ne) stations holds channels
      · by_cases e : k = h
        · subst e
          exact turn u k same (todo k List.mem_cons_self)
        · refine (done k fun m => (List.mem_cons.1 m).elim e n).same ⟨?_, State.parties_congr stations holds k, .of_eq channels⟩
          rw [others u h k e]
          exact .refl _
  exact key _ s (List.nodup_finRange 96) rfl (fun g _ => b g) fun g n => absurd (List.mem_finRange g) n

/-! ## A move to or from the venue level -/

theorem State.atVenue_setChannel (s : State) (c d : Chan) (x : Channel) :
    (s.setChannel c x).atVenue d = if d = c then x.currentLevel == some venueLevel else s.atVenue d := by
  rw [State.atVenue, State.channel_setChannel]
  split <;> rfl

/-- The totals when a channel's entry costs nothing, or its level is the same. -/
theorem State.committedOf_setChannel {ps : List Party} {es : Vector Entry 8}
    (free : es[c].countedCost = 0 ∨ (x.currentLevel == some venueLevel) = s.atVenue c) :
    (s.setChannel c x).committedOf ps es = s.committedOf ps es := by
  unfold State.committedOf
  congr 2
  refine List.map_congr_left fun d _ => ?_
  rw [State.atVenue_setChannel]
  by_cases at_ : d = c
  · subst at_
    rw [if_pos rfl]
    rcases free with zero | same
    · rw [zero]
      simp
    · rw [same]
  · rw [if_neg at_]

theorem State.venueOf_setChannel {es : Vector Entry 8}
    (free : es[c].countedCost = 0 ∨ (x.currentLevel == some venueLevel) = s.atVenue c) :
    (s.setChannel c x).venueOf es = s.venueOf es := by
  unfold State.venueOf
  congr 1
  refine List.map_congr_left fun d _ => ?_
  rw [State.atVenue_setChannel]
  by_cases at_ : d = c
  · subst at_
    rw [if_pos rfl]
    rcases free with zero | same
    · rw [zero]
      simp
    · rw [same]
  · rw [if_neg at_]

/-- A RUN channel has moved level: from `x` to what it is, its setup kept (R57). -/
structure State.Moved (s : State) (c : Chan) (x : Channel) : Prop where
  running : (s.channel c).running = x.running
  pace    : (s.channel c).pace = x.pace
  rated   : (s.channel c).rated = x.rated

/-- Where the moved channel is NOT COUNTED its move changes no account. -/
theorem State.Moved.billedAt_of_free (m : s.Moved c x) (b : s.BilledAs c x h)
    (free : ∀ a, (s.head h).account = some a → a.entries[c] = .notCounted) : s.BilledAt h := by
  intro a e
  obtain ⟨⟨entries, committed, venue, shed⟩, within, room⟩ := b a e
  have none_ := free a e
  have zero : a.entries[c].countedCost = 0 := by rw [none_]; rfl
  refine ⟨⟨fun d => ?_, ?_, ?_, fun d v k cost at_ => ?_⟩, within, room⟩
  · have true_ := entries d
    rw [State.channel_setChannel] at true_
    split at true_
    · next same =>
      rw [same] at true_ ⊢
      exact true_.of_running m.running m.pace m.rated
    · exact true_
  · rw [committed, State.committedOf_setChannel (.inl zero)]
    rfl
  · rw [venue, State.venueOf_setChannel (.inl zero)]
  · by_cases same : d = c
    · rw [same, none_] at at_
      cases at_
    · exact shed d (by rw [State.atVenue_setChannel, if_neg same]; exact v) k cost at_

/-- The entries of an account true of the channel as it was are what R43 says of it as it is: their truth knows no level. -/
theorem State.Moved.entries (m : s.Moved c x) {a : Account} (true_ : (s.setChannel c x).AccountTrue h a) (d : Chan) :
    EntryTrue (s.channel d) (s.parties h) (s.head h).floor d a.entries[d] := by
  obtain ⟨entries, -, -, -⟩ := true_
  have true_ := entries d
  rw [State.channel_setChannel] at true_
  split at true_
  · next same =>
    rw [same] at true_ ⊢
    exact true_.of_running m.running m.pace m.rated
  · exact true_

theorem State.Moved.congr (m : s.Moved c x) (channels : t.channels = s.channels) : t.Moved c x := by
  have same : t.channel c = s.channel c := by rw [State.channel, channels]; rfl
  exact ⟨by rw [same]; exact m.running, by rw [same]; exact m.pace, by rw [same]; exact m.rated⟩

theorem State.atVenue_congr (channels : t.channels = s.channels) (d : Chan) : t.atVenue d = s.atVenue d := by
  rw [State.atVenue, State.channel, channels]
  rfl

/-- The committed total without the cost of a channel that has come to the venue level (R45, R57). -/
theorem State.committedOf_toVenue (low : (x.currentLevel == some venueLevel) = false) (high : s.atVenue c = true) (ps : List Party)
    (es : Vector Entry 8) (e : Entry) :
    s.committedOf ps (es.set c e) + es[c].countedCost = (s.setChannel c x).committedOf ps es := by
  unfold State.committedOf
  rw [sum_finRange_of_removed (fun d => if (s.setChannel c x).atVenue d then 0 else es[d].countedCost)
    (fun d => if s.atVenue d then 0 else (es.set c e)[d].countedCost) c es[c].countedCost]
  · exact Nat.add_assoc ..
  · simp only [State.atVenue_setChannel, if_true, low, high, Bool.false_eq_true, if_false, Nat.zero_add]
  · intro d ne
    rw [State.atVenue_setChannel, if_neg ne]
    have other : (es.set c e)[d] = es[d] := by
      simp only [Fin.getElem_fin, Vector.getElem_set, if_neg fun at_ => ne (Fin.ext at_).symm]
    rw [other]

theorem State.toVenueAt_cases (s : State) (c : Chan) (h : HeadId) : State.toVenueAt c s h = s ∨ ∃ r, State.toVenueAt c s h = s.setAccount h r := by
  unfold State.toVenueAt
  repeat' split
  · exact .inl rfl
  · exact .inl rfl
  · exact .inr ⟨_, rfl⟩
  · exact .inr ⟨_, rfl⟩

theorem State.fromVenueAt_cases (s : State) (c : Chan) (h : HeadId) :
    State.fromVenueAt c s h = s ∨ ∃ r, State.fromVenueAt c s h = s.setAccount h r := by
  unfold State.fromVenueAt
  repeat' split
  · exact .inl rfl
  · exact .inr ⟨_, rfl⟩
  · exact .inl rfl

/-- One head's turn as a channel comes to the venue level: its entry is COUNTED, and its cost is out of the committed total (R57). -/
theorem State.billedAt_toVenueAt (m : s.Moved c x) (low : (x.currentLevel == some venueLevel) = false) (high : s.atVenue c = true)
    (b : s.BilledAs c x h) : (State.toVenueAt c s h).BilledAt h := by
  cases e : (s.head h).account with
  | none =>
    have idle : State.toVenueAt c s h = s := by simp only [State.toVenueAt, e]
    rw [idle]
    exact .of_closed e
  | some a =>
    obtain ⟨true_, within, room⟩ := b a e
    have entries := m.entries true_
    obtain ⟨-, committed, -, shed⟩ := true_
    have stays : ∀ d, d ≠ c → s.atVenue d = true → ∀ k cost, a.entries[d] ≠ .shed k cost := fun d ne v =>
      shed d (by rw [State.atVenue_setChannel, if_neg ne]; exact v)
    have less : ∀ es : Entry, s.committedOf (s.parties h) (a.entries.set c es) ≤ (s.head h).cap := fun es => by
      have total := State.committedOf_toVenue low high (s.parties h) a.entries es
      have before : a.committed = (s.setChannel c x).committedOf (s.parties h) a.entries := committed
      have le : a.committed ≤ (s.head h).cap := within
      omega
    unfold State.toVenueAt
    rw [e]
    dsimp only
    split
    · next none_ =>
      refine m.billedAt_of_free b fun a' e' => ?_
      cases e.symm.trans e'
      exact none_
    · next k cost counted =>
      refine State.billedAt_setAccount ⟨entries, rfl, rfl, fun d v k' cost' => ?_⟩ ?_ room
      · by_cases same : d = c
        · rw [same]
          show a.entries[c] ≠ _
          rw [counted]
          simp
        · exact stays d same v k' cost'
      · have same : a.entries.set c (.counted k cost) = a.entries := by
          rw [← counted]
          exact Vector.set_getElem_self _
        have := less (.counted k cost)
        rw [same] at this
        exact this
    · next k cost was =>
      have get : ∀ d : Chan, (a.entries.set c (.counted k cost))[d] = if d = c then .counted k cost else a.entries[d] := fun d => by
        simp only [Fin.getElem_fin, Vector.getElem_set, Fin.ext_iff, eq_comm]
      refine State.billedAt_setAccount ⟨fun d => ?_, rfl, rfl, fun d v k' cost' => ?_⟩ (less _) room
      · show EntryTrue _ _ _ d (a.entries.set c (.counted k cost))[d]
        rw [get]
        split
        · next same =>
          subst same
          have shed := entries d
          rw [was] at shed
          exact shed.counted
        · exact entries d
      · show (a.entries.set c (.counted k cost))[d] ≠ _
        rw [get]
        split
        · simp
        · next ne => exact stays d ne v k' cost'

/-- One head's turn as a channel leaves the venue level: where it is COUNTED its cost is in the committed total, and the shedding rule
runs (R57). -/
theorem State.billedAt_fromVenueAt (m : s.Moved c x) (high : (x.currentLevel == some venueLevel) = true)
    (low : s.atVenue c = false) (b : s.BilledAs c x h) : (State.fromVenueAt c s h).BilledAt h := by
  cases e : (s.head h).account with
  | none =>
    have idle : State.fromVenueAt c s h = s := by simp only [State.fromVenueAt, e]
    rw [idle]
    exact .of_closed e
  | some a =>
    obtain ⟨true_, within, room⟩ := b a e
    have entries := m.entries true_
    obtain ⟨-, -, -, shed⟩ := true_
    have notShed : ∀ k cost, a.entries[c] ≠ .shed k cost := shed c (by rw [State.atVenue_setChannel, if_pos rfl]; exact high)
    unfold State.fromVenueAt
    rw [e]
    dsimp only
    split
    · have summed : s.AccountTrue h (s.resum (s.parties h) a) := by
        refine ⟨entries, rfl, rfl, fun d v => shed d ?_⟩
        have ne : d ≠ c := fun same => by rw [same, low] at v; cases v
        rw [State.atVenue_setChannel, if_neg ne]
        exact v
      refine State.billedAt_setAccount ?_ ?_ room
      · exact State.shedLoop_induct (fun b _ => s.AccountTrue h b) (fun _ _ _ _ _ t below counted => t.shedAt below counted) _ _ _
          summed
      · exact State.shedLoop_committed_le room 8 _ _ rfl (s.sheddableCount_le _)
    · next n =>
      refine m.billedAt_of_free b fun a' e' => ?_
      cases e.symm.trans e'
      cases entry : a.entries[c] with
      | notCounted => rfl
      | counted k cost => exact absurd entry (n k cost)
      | shed k cost => exact absurd entry (notShed k cost)

/-- The report of a RUN channel's move of level leaves every account in order (R56, R57). -/
theorem State.airtimeInv_reportLevel {before after : Level} (m : s.Moved c x) (was : x.currentLevel = some before)
    (is : (s.channel c).currentLevel = some after) (b : ∀ g, s.BilledAs c x g) : (s.reportLevel c before after).AirtimeInv := by
  have high : s.atVenue c = decide (after = venueLevel) := by rw [State.atVenue, is]; rfl
  have low : (x.currentLevel == some venueLevel) = decide (before = venueLevel) := by rw [was]; rfl
  have alike : decide (before = venueLevel) = decide (after = venueLevel) → s.AirtimeInv := fun same g => by
    refine State.BilledAt.same (s := s.setChannel c x) (b g) ⟨.refl _, State.parties_congr (t := s) rfl rfl g, fun d => ?_⟩
    rw [State.channel_setChannel]
    split
    · next at_ =>
      subst at_
      have venue : ((s.channel d).currentLevel == some venueLevel) = (x.currentLevel == some venueLevel) :=
        high.trans (same.symm.trans low.symm)
      simp only [Channel.billed, m.running, m.pace, m.rated, venue]
    · rfl
  unfold State.reportLevel
  split
  · next from_ =>
    split
    · next to_ => exact alike (by rw [decide_eq_true from_, decide_eq_true to_])
    · next to_ =>
      refine State.foldl_heads (fun u k channels bu => ?_) (fun u k g ne => ?_) (fun u k => ?_) b
      · exact State.billedAt_fromVenueAt (m.congr channels) (by rw [low]; exact decide_eq_true from_)
          (by rw [State.atVenue_congr channels, high]; exact decide_eq_false to_) bu
      · rcases u.fromVenueAt_cases c k with e | ⟨r, e⟩ <;> rw [e]
        rw [State.setAccount, State.head_noteAll, State.head_setHead_of_ne _ _ ne]
      · rcases u.fromVenueAt_cases c k with e | ⟨r, e⟩ <;> rw [e] <;> exact ⟨rfl, rfl, rfl⟩
  · next from_ =>
    split
    · next to_ =>
      refine State.foldl_heads (fun u k channels bu => ?_) (fun u k g ne => ?_) (fun u k => ?_) b
      · exact State.billedAt_toVenueAt (m.congr channels) (by rw [low]; exact decide_eq_false from_)
          (by rw [State.atVenue_congr channels, high]; exact decide_eq_true to_) bu
      · rcases u.toVenueAt_cases c k with e | ⟨r, e⟩ <;> rw [e]
        rw [State.setAccount, State.head_noteAll, State.head_setHead_of_ne _ _ ne]
      · rcases u.toVenueAt_cases c k with e | ⟨r, e⟩ <;> rw [e] <;> exact ⟨rfl, rfl, rfl⟩
    · next to_ => exact alike (by rw [decide_eq_false from_, decide_eq_false to_])

/-- A channel that starts or stops has every head recomputed, which leaves every account in order (R56). -/
theorem State.airtimeInv_recomputeAll (idle : x.running = false ∨ (s.channel c).running = false) (b : ∀ g, s.BilledAs c x g) :
    s.recomputeAll.AirtimeInv := by
  have owed : ∀ g, s.OwedAt g := by
    intro g a e
    obtain ⟨⟨entries, -, -, shed⟩, -, room⟩ := b g a e
    refine ⟨fun d v k cost at_ => ?_, room⟩
    by_cases same : d = c
    · subst same
      rcases idle with was | is
      · have true_ := entries d
        rw [State.channel_setChannel, if_pos rfl, at_] at true_
        unfold EntryTrue at true_
        rw [was] at true_
        cases true_
      · have none_ : (s.channel d).currentLevel = none := Option.not_isSome_iff_eq_none.1 (by
          have : (s.channel d).currentLevel.isSome = false := is
          simp [this])
        rw [State.atVenue, none_] at v
        cases v
    · exact shed d (by rw [State.atVenue_setChannel, if_neg same]; exact v) k cost at_
  have due : s.Booked fun _ => True := fun g => ⟨owed g, fun n => absurd trivial n⟩
  exact (due.recomputeList (List.finRange 96)).airtime fun g m => m.2 (List.mem_finRange g)

end

end Sys2Proof.Machine

/-!
PROOF LAYER. Accounts under the ingest and playout commands (R56, R57): one lemma for each operation of the Cue Controller, the
Playout Unit, the Clip Store and the Ingest Unit.
-/
namespace Sys2Proof.Machine

/-- Every open account is true and within its cap: the law to be kept, under one name. -/
structure State.Billed (s : State) : Prop where
  airtime : s.AirtimeInv

theorem State.AirtimeInv.still {s t : State} (inv : s.AirtimeInv) (same : s.Still t) : t.AirtimeInv :=
  State.booked_noHead.1 ((State.booked_noHead.2 inv).still same)

theorem State.Billed.still {s t : State} (inv : s.Billed) (same : s.Still t) : t.Billed := ⟨inv.airtime.still same⟩

theorem State.Billed.foldl {β : Type} {s : State} (inv : s.Billed) {f : State → β → State}
    (each : ∀ u b, State.Billed u → (f u b).Billed) (l : List β) : (l.foldl f s).Billed :=
  List.foldlRecOn (motive := State.Billed) l f inv fun u b x _ => each u x b

/-- The report of a RUN channel's move of level, and the recompute of a channel that starts or stops (R56, R57). -/
theorem State.billed_reportLevel {s : State} {c : Chan} {x : Channel} {before after : Level} (m : s.Moved c x)
    (was : x.currentLevel = some before) (is : (s.channel c).currentLevel = some after) (b : ∀ g, s.BilledAs c x g) :
    (s.reportLevel c before after).Billed := ⟨State.airtimeInv_reportLevel m was is b⟩

theorem State.billed_recomputeAll {s : State} {c : Chan} {x : Channel} (idle : x.running = false ∨ (s.channel c).running = false)
    (b : ∀ g, s.BilledAs c x g) : s.recomputeAll.Billed := ⟨State.airtimeInv_recomputeAll idle b⟩

section
variable {s : State} (inv : s.Billed)
include inv

/-! ## The Cue Controller -/

theorem State.Billed.updateClip (i : Nat) (f : Clip → Clip) : (s.updateClip i f).Billed := inv.still (.of_eq rfl rfl rfl rfl)
theorem State.Billed.use (i : Nat) : (s.use i).Billed := inv.updateClip i _
theorem State.Billed.unuse (i : Nat) : (s.unuse i).Billed := inv.updateClip i _
theorem State.Billed.note (n : Notice) : (s.note n).Billed := inv.still (s.note_still n)

theorem State.Billed.setChannel {c : Chan} {x : Channel} (e : x.billed = (s.channel c).billed) :
    (s.setChannel c x).Billed := inv.still (.setChannel e)

/-- A pending entry that starts above every in-service one (R178). -/
theorem State.Billed.startEntry {c : Chan} {l : Level} {p : Pending} (top : (s.channel c).above l = true) :
    (s.startEntry c l p).Billed := by
  have level : ((s.channel c).promote l p).currentLevel = some l := Channel.currentLevel_promote top
  have before : ∀ y, ∀ g, (s.setChannel c y).BilledAs c (s.channel c) g := fun y =>
    inv.airtime.billedAs rfl (fun d ne => by rw [State.channel_setChannel, if_neg ne]) rfl rfl rfl
  unfold State.startEntry
  dsimp only
  split
  · next idle =>
    exact State.billed_recomputeAll (.inl (by rw [Channel.running, idle]; rfl)) (before _)
  · next m run =>
    have now : (s.setChannel c ((s.channel c).promote l p)).channel c = (s.channel c).promote l p := by
      rw [State.channel_setChannel, if_pos rfl]
    have moved : ((s.setChannel c ((s.channel c).promote l p)).reportLevel c m l).Billed := by
      refine State.billed_reportLevel ⟨?_, ?_, ?_⟩ run (by rw [now]; exact level) (before _)
      · rw [now, Channel.running, Channel.running, level, run]
        rfl
      · rw [now]; rfl
      · rw [now]; rfl
    split
    · exact moved
    · exact moved.note _

theorem State.Billed.makePending (c : Chan) (l : Level) (p : Pending) : (s.makePending c l p).Billed := by
  unfold State.makePending
  dsimp only
  split
  · exact (inv.use _).setChannel rfl
  · exact ((inv.use _).unuse _).setChannel rfl

omit inv in
/-- An entry made pending leaves the entries in service (R177). -/
theorem State.above_makePending (c : Chan) (l : Level) (p : Pending) (j : Level) :
    ((s.makePending c l p).channel c).above j = (s.channel c).above j := by
  unfold State.makePending
  dsimp only
  split <;>
  · rw [State.channel_setChannel, if_pos rfl]
    rfl

theorem State.Billed.requestEntry (c : Chan) (l : Level) (p : Pending) : (s.requestEntry c l p).Billed := by
  have made := inv.makePending c l p
  unfold State.requestEntry
  dsimp only
  split
  · next starts =>
    refine made.startEntry ?_
    rw [State.above_makePending]
    exact (Bool.and_eq_true_iff.1 starts).2
  · exact made

theorem State.Billed.weighPending (c : Chan) : (s.weighPending c).Billed := by
  unfold State.weighPending
  split
  · exact inv
  · next e => exact inv.startEntry (Channel.above_of_nextPending e)

theorem State.Billed.autoCue (i : Nat) (p : Program) : (s.autoCue i p).Billed :=
  inv.foldl (fun _ c iu => iu.requestEntry c _ _) _

omit inv in
/-- The choice after a channel's current entry has gone: the accounts are still those of the channel as it was (R179). -/
theorem State.billed_choose {c : Chan} {x : Channel} {before : Level} (was : x.currentLevel = some before)
    (pace : (s.channel c).pace = x.pace) (rated : (s.channel c).rated = x.rated) (b : ∀ g, s.BilledAs c x g) :
    (s.choose c before).Billed := by
  have still : ∀ y g, (s.setChannel c y).BilledAs c x g := fun y g => by
    refine State.BilledAt.same (s := s.setChannel c x) (b g) ⟨.refl _, State.parties_congr rfl rfl g, fun d => ?_⟩
    by_cases at_ : d = c <;> simp only [State.channel_setChannel, at_, if_true, if_false]
  have moves : ∀ (y : Channel) (l : Level), y.currentLevel = some l → y.pace = (s.channel c).pace → y.rated = (s.channel c).rated →
      ((s.setChannel c y).reportLevel c before l).Billed := by
    intro y l level p r
    have now : (s.setChannel c y).channel c = y := by rw [State.channel_setChannel, if_pos rfl]
    refine State.billed_reportLevel ⟨?_, ?_, ?_⟩ was (by rw [now]; exact level) (still y)
    · rw [now, Channel.running, Channel.running, level, was]
      rfl
    · rw [now, p, pace]
    · rw [now, r, rated]
  unfold State.choose
  dsimp only
  split
  · next l p next => exact moves _ l (Channel.currentLevel_promote (Channel.above_of_nextPending next)) rfl rfl
  · split
    · next m run => exact moves _ m run rfl rfl
    · next idle =>
      refine State.billed_recomputeAll (.inr ?_) (still _)
      rw [State.channel_setChannel, if_pos rfl, Channel.running]
      exact congrArg Option.isSome idle

end

/-! ## STOP -/

/-- What a STOP of some levels has done so far: the channel has lost its in-service entries there, and no account is made of anything
else it has done (R183). -/
structure State.Stopped (s u : State) (c : Chan) (ls : List Level) : Prop where
  entries : ∀ j, (u.channel c).entry j = if j ∈ ls then none else (s.channel c).entry j
  setup   : (u.channel c).pace = (s.channel c).pace ∧ (u.channel c).rated = (s.channel c).rated
  others  : ∀ d, d ≠ c → u.channel d = s.channel d
  rest    : u.stations = s.stations ∧ u.holds = s.holds ∧ u.heads = s.heads

theorem State.Stopped.refl (s : State) (c : Chan) : s.Stopped s c [] where
  entries j := by simp
  setup := ⟨rfl, rfl⟩
  others _ _ := rfl
  rest := ⟨rfl, rfl, rfl⟩

theorem State.unuse_channel (s : State) (i : Nat) (c : Chan) : (s.unuse i).channel c = s.channel c := rfl

theorem State.Stopped.stopLevel {s u : State} {c : Chan} {ls : List Level} (k : s.Stopped u c ls) (l : Level) :
    s.Stopped (State.stopLevel c u l) c (ls ++ [l]) := by
  obtain ⟨entries, ⟨pace, rated⟩, others, stations, holds, heads⟩ := k
  have shape : ∃ v : State, (v.channels = u.channels ∧ v.stations = u.stations ∧ v.holds = u.holds ∧ v.heads = u.heads)
      ∧ State.stopLevel c u l = v.setChannel c { u.channel c with
          inService := (u.channel c).inService.set l none, pending := (u.channel c).pending.set l none } := by
    unfold State.stopLevel
    dsimp only
    refine ⟨_, ?_, rfl⟩
    repeat' split
    all_goals exact ⟨rfl, rfl, rfl, rfl⟩
  obtain ⟨v, ⟨channels, vStations, vHolds, vHeads⟩, eq⟩ := shape
  rw [eq]
  have now : ∀ y, (v.setChannel c y).channel c = y := fun y => by rw [State.channel_setChannel, if_pos rfl]
  refine ⟨fun j => ?_, ⟨by rw [now]; exact pace, by rw [now]; exact rated⟩, fun d ne => ?_, vStations.trans stations, vHolds.trans holds,
    vHeads.trans heads⟩
  · have gone := (u.channel c).entry_set l j none
    have here : Channel.entry { u.channel c with
        inService := (u.channel c).inService.set l none, pending := (u.channel c).pending.set l none } j
        = if j = l then none else (u.channel c).entry j := gone
    rw [now, here, entries]
    by_cases at_ : j = l
    · simp [at_]
    · simp [at_]
  · rw [State.channel_setChannel, if_neg ne, State.channel, channels]
    exact others d ne

theorem State.Stopped.stopLevels (s : State) (c : Chan) (ls : List Level) : s.Stopped (ls.foldl (State.stopLevel c) s) c ls := by
  have key : ∀ (todo past : List Level) (u : State), s.Stopped u c past →
      s.Stopped (todo.foldl (State.stopLevel c) u) c (past ++ todo) := by
    intro todo
    induction todo with
    | nil => intro past u k; rw [List.append_nil]; exact k
    | cons l todo ih =>
      intro past u k
      have := ih (past ++ [l]) (State.stopLevel c u l) (k.stopLevel l)
      rwa [List.append_assoc, List.singleton_append] at this
  exact key ls [] s (.refl s c)

section
variable {s : State} (inv : s.Billed)
include inv

/-- STOP of some levels: where the current entry stays the accounts are untouched, and else the choice is made (R179, R183). -/
theorem State.Billed.stopLevels (c : Chan) (levels : LevelSet) : (s.stopLevels c levels).state.Billed := by
  unfold State.stopLevels
  dsimp only
  generalize (List.finRange 5).filter (fun l : Level => levels.getLsbD l.val) = ls
  obtain ⟨entries, ⟨pace, rated⟩, others, stations, holds, heads⟩ := State.Stopped.stopLevels s c ls
  have untouched : ((ls.foldl (State.stopLevel c) s).channel c).currentLevel = (s.channel c).currentLevel →
      (ls.foldl (State.stopLevel c) s).Billed := fun level => by
    refine inv.still (.of_heads (fun g => by rw [State.head_congr heads g]; exact .refl _) stations holds fun d => ?_)
    by_cases at_ : d = c
    · rw [at_]
      exact Channel.billed_congr level pace rated
    · rw [others d at_]
  split
  · next idle =>
    refine untouched (idle ▸ ?_)
    have none_ : ∀ j, ((s.channel c).entry j).isSome = false := fun j => by
      simpa using List.find?_eq_none.1 idle j (mem_levelsDown j)
    refine List.find?_eq_none.2 fun j _ => ?_
    rw [entries]
    split
    · simp
    · simpa using none_ j
  · next m run =>
    split
    · next gone =>
      exact State.billed_choose run pace rated (inv.airtime.billedAs rfl (fun d ne => by rw [others d ne]) stations holds heads)
    · next stays =>
      refine untouched (run ▸ ?_)
      obtain ⟨here, max⟩ := Channel.currentLevel_eq_some.1 run
      refine Channel.currentLevel_eq_some.2 ⟨by rw [entries, if_neg stays]; exact here, fun j e => max j ?_⟩
      rw [entries] at e
      split at e
      · cases e
      · exact e

/-! ## The Playout Unit -/

theorem State.Billed.grant : s.grant.Billed := by
  unfold State.grant
  repeat' split
  all_goals exact inv.still (.of_eq rfl rfl rfl rfl)

theorem State.Billed.requestRead (c : Chan) (l : Level) (i n : Nat) : (s.requestRead c l i n).Billed :=
  ((inv.use i).setChannel (c := c) (x := { s.channel c with read := some ⟨i, n, l, true⟩ }) rfl).grant

theorem State.Billed.deliver (c : Chan) (f : Nat → LinkFrame) : (s.deliver c f).Billed := by
  refine inv.foldl (fun u h iu => ?_) _
  unfold State.deliverAt
  split
  · exact iu
  · exact iu.still (u.send_still _ _)

theorem State.Billed.underrun (c : Chan) (index : Nat) : (s.underrun c index).Billed := by
  have sent := inv.deliver c fun rate => .filler c index rate
  unfold State.underrun
  dsimp only
  generalize (s.deliver c fun rate => LinkFrame.filler c index rate) = t at sent
  exact sent.setChannel rfl

/-- The current entry ended (R169, R179). -/
theorem State.Billed.endEntry {c : Chan} {l : Level} (run : (s.channel c).currentLevel = some l) (e : InService) :
    (s.endEntry c l e).Billed := by
  unfold State.endEntry
  dsimp only
  refine State.Billed.note ?_ _
  refine State.billed_choose run ?_ ?_ (inv.airtime.billedAs rfl (fun d ne => ?_) rfl rfl rfl)
  · rw [State.unuse_channel, State.channel_setChannel, if_pos rfl]
  · rw [State.unuse_channel, State.channel_setChannel, if_pos rfl]
  · rw [State.unuse_channel, State.channel_setChannel, if_neg ne]

theorem State.Billed.serveAt (c : Chan) (l : Level) (e : InService) (k : Clip) {f : State → State}
    (atEnd : (f s).Billed) : (s.serveAt c l e k f).Billed := by
  unfold State.serveAt
  split
  · exact inv.requestRead ..
  · split
    · exact atEnd
    · exact inv.underrun c _

theorem State.Billed.atEntryEnd {c : Chan} {l : Level} (run : (s.channel c).currentLevel = some l) (e : InService) (k : Clip) :
    (State.atEntryEnd c l e k s).Billed := by
  unfold State.atEntryEnd
  split
  · have level : Channel.currentLevel { s.channel c with
        inService := (s.channel c).inService.set l (some { e with cursor := e.base }) } = some l :=
      (Channel.currentLevel_rewrite (Channel.currentLevel_eq_some.1 run).1).trans run
    have looped := inv.setChannel (c := c) (x := { s.channel c with
      inService := (s.channel c).inService.set l (some { e with cursor := e.base }) })
      (Channel.billed_congr (level.trans run.symm) rfl rfl)
    refine looped.serveAt c l _ k (looped.endEntry ?_ _)
    rw [State.channel_setChannel, if_pos rfl]
    exact level
  · exact inv.endEntry run e

theorem State.Billed.serveCurrent (c : Chan) : (s.serveCurrent c).Billed := by
  unfold State.serveCurrent
  split
  · exact inv
  · next l run =>
    repeat' split
    · exact inv
    · exact inv
    · exact inv.atEntryEnd run ..
    · exact inv.serveAt _ _ _ _ (inv.atEntryEnd run ..)

omit inv in
theorem State.deliver_channels (s : State) (c : Chan) (f : Nat → LinkFrame) : (s.deliver c f).channels = s.channels := by
  unfold State.deliver
  refine List.foldlRecOn (motive := fun u : State => u.channels = s.channels) _ _ rfl fun u e h _ => ?_
  unfold State.deliverAt
  split <;> exact e

theorem State.Billed.deliverSegment (c : Chan) (r : Read) : (s.deliverSegment c r).Billed := by
  unfold State.deliverSegment
  dsimp only
  split
  · next e _ here =>
    refine (inv.deliver ..).setChannel ?_
    have same : ∀ f, (s.deliver c f).channel c = s.channel c := fun f => by rw [State.channel, s.deliver_channels]; rfl
    rw [same]
    exact Channel.billed_congr (Channel.currentLevel_rewrite (by rw [here]; rfl)) rfl rfl
  · exact inv

/-! ## The Clip Store -/

theorem State.Billed.freeSlotList (xs : List Nat) : (s.freeSlotList xs).Billed := inv.still (.of_eq rfl rfl rfl rfl)
theorem State.Billed.tally (p : Port) (f : PortCounts → PortCounts) : (s.tally p f).Billed :=
  inv.still (.of_eq rfl rfl rfl rfl)
theorem State.Billed.updateIngest (p : Port) (f : IngestPort → IngestPort) : (s.updateIngest p f).Billed :=
  inv.still (.of_eq rfl rfl rfl rfl)
theorem State.Billed.dropUnplaced (p : Port) : (s.dropUnplaced p).Billed := inv.tally p _
theorem State.Billed.dropForeign (p : Port) : (s.dropForeign p).Billed := inv.tally p _
theorem State.Billed.dropDuplicate (p : Port) : (s.dropDuplicate p).Billed := inv.tally p _
theorem State.Billed.stopIfEmpty (k : Key) : (s.stopIfEmpty k).Billed := inv.still (.of_eq rfl rfl rfl rfl)
theorem State.Billed.fillSlot (slot : Nat) (payload : List Byte) : (s.fillSlot slot payload).Billed :=
  inv.still (.of_eq rfl rfl rfl rfl)

theorem State.Billed.vacateClip (i : Nat) : (s.vacateClip i).Billed := by
  unfold State.vacateClip
  split
  · exact inv
  · exact inv.still (.of_eq rfl rfl rfl rfl)

theorem State.Billed.evict (b : Bool) : (s.evict b).Billed := by
  unfold State.evict
  split
  · exact inv
  · exact (inv.vacateClip _).note _

theorem State.Billed.roomForSlot : s.roomForSlot.Billed := by
  unfold State.roomForSlot
  split
  · exact inv
  · exact inv.evict _

theorem State.Billed.roomForClip : s.roomForClip.Billed := by
  unfold State.roomForClip
  split
  · exact inv
  · exact inv.evict _

theorem State.Billed.releaseAt (p : Port) (pick : HeldSegment → Bool) (f : Nat → PortCounts → PortCounts) :
    (s.releaseAt p pick f).Billed := (inv.updateIngest p _).freeSlotList _

theorem State.Billed.release (k : Key) (pick : HeldSegment → Bool) : (s.release k pick).Billed :=
  ((inv.releaseAt ..).releaseAt ..).stopIfEmpty k

theorem State.Billed.releaseKey (k : Key) : (s.releaseKey k).Billed := inv.release k _

theorem State.Billed.damage (i : Nat) (k : Clip) (d : DamageCause) : (s.damage i k d).Billed :=
  ((inv.updateClip i _).releaseKey _).note _

theorem State.Billed.readyTest (i : Nat) : (s.readyTest i).Billed := by
  unfold State.readyTest
  repeat' split
  · exact inv
  · exact ((inv.updateClip i _).releaseKey _).note _
  · exact inv

theorem State.Billed.drain (i n : Nat) : (State.drain i n s).Billed := by
  induction n generalizing s with
  | zero => exact inv
  | succ n ih =>
    unfold State.drain
    repeat' split
    · exact inv
    · exact inv
    · exact ih ((inv.updateClip i _).updateIngest _ _)

theorem State.Billed.settleClip (i : Nat) : (s.settleClip i).Billed := by
  unfold State.settleClip
  dsimp only
  split
  · exact inv.drain ..
  · exact ((((inv.drain ..).releaseAt ..).releaseAt ..).stopIfEmpty _).readyTest i

/-! ## The Ingest Unit -/

theorem State.Billed.cannotHold (p : Port) (k : Key) (x : Option (Nat × Clip)) (d : DamageCause) :
    (s.cannotHold p k x d).Billed := by
  unfold State.cannotHold
  split
  · exact (inv.dropUnplaced p).damage ..
  · exact ((inv.dropUnplaced p).releaseKey k).note _

theorem State.Billed.hold (p : Port) (f : SegmentFrame) (x : Option (Nat × Clip)) : (s.hold p f x).Billed := by
  unfold State.hold
  dsimp only
  repeat' split
  · exact inv.cannotHold ..
  · exact inv.roomForSlot.cannotHold ..
  · exact inv.roomForSlot.still (.of_eq rfl rfl rfl rfl)

theorem State.Billed.place (p : Port) (f : SegmentFrame) (i : Nat) (k : Clip) : (s.place p f i k).Billed := by
  have appended : (s.append p f i k).Billed := by
    unfold State.append
    dsimp only
    split
    · exact (inv.roomForSlot.dropUnplaced p).damage ..
    · exact ((inv.roomForSlot.fillSlot _ _).updateClip i _).settleClip i
  have early : (s.early p f i k).Billed := by
    unfold State.early
    repeat' split
    · exact inv.dropDuplicate p
    · exact inv.hold ..
    · exact (inv.dropUnplaced p).damage ..
  unfold State.place
  repeat' split
  · exact appended
  · exact inv.dropDuplicate p
  · exact inv.dropUnplaced p
  · exact early
  · exact early

theorem State.Billed.afterClose (p : Port) (f : SegmentFrame) (i : Nat) : (s.afterClose p f i).Billed := by
  unfold State.afterClose
  split
  · exact inv
  · refine State.Billed.readyTest ?_ i
    split
    · exact inv
    · exact inv.place ..

theorem State.Billed.closeAndPlace (p : Port) (f : SegmentFrame) (i : Nat) (k : Clip) :
    (s.closeAndPlace p f i k).Billed := by
  have conflict : (s.closeConflict p f i k).Billed := by
    unfold State.closeConflict
    refine State.Billed.damage ?_ i k _
    split
    · exact inv
    · exact inv.dropUnplaced p
  unfold State.closeAndPlace
  repeat' split
  · exact inv.afterClose ..
  · exact conflict
  · exact conflict
  · exact ((inv.updateClip i _).release ..).afterClose ..
  · exact inv
  · exact inv.place ..

theorem State.Billed.handleFrame (p : Port) (f : SegmentFrame) : (s.handleFrame p f).Billed := by
  unfold State.handleFrame
  repeat' split
  · exact inv.hold ..
  · exact inv.dropUnplaced p
  · exact inv
  · exact inv.dropUnplaced p
  · exact inv.dropForeign p
  · exact inv.closeAndPlace ..

theorem State.Billed.openFrame (p : Port) (f : SegmentFrame) : (s.openFrame p f).Billed := by
  unfold State.openFrame
  dsimp only
  split
  · refine State.Billed.note (State.Billed.releaseKey ?_ _) _
    exact inv.roomForClip.still (.of_eq rfl rfl rfl rfl)
  · next i _ =>
    have opened : (s.roomForClip.openClip i p f.key).Billed := inv.roomForClip.still (.of_eq rfl rfl rfl rfl)
    exact (opened.handleFrame p f).autoCue ..

theorem State.Billed.takeSegment (p : Port) (f : SegmentFrame) : (s.takeSegment p f).Billed := by
  have opened : (s.takeOpen p f).Billed := by
    unfold State.takeOpen
    split
    · exact inv.openFrame p f
    · repeat' split
      · exact inv.dropUnplaced p
      · exact inv.dropForeign p
      · exact inv.handleFrame p f
  unfold State.takeSegment
  repeat' split
  · exact inv.dropForeign p
  · exact opened
  · exact inv.handleFrame p f

theorem State.Billed.goodFrame (p : Port) (f : SegmentFrame) (b : Bool) : (s.goodFrame p f b).Billed := by
  unfold State.goodFrame
  dsimp only
  split
  · exact inv.tally p _
  · exact (inv.tally p _).takeSegment p _

theorem State.Billed.holdTimeout (k : Key) : (s.holdTimeout k).Billed := by
  unfold State.holdTimeout
  repeat' split
  · exact (inv.releaseKey k).note _
  · exact inv
  · exact inv.damage ..
  · exact inv

end

end Sys2Proof.Machine

/-!
PROOF LAYER. Every command keeps the open accounts true and within their caps (R45, R46): first those of the control link, the heads
and the settings, then those of stations and passes, then those of the replay blocks.
-/
namespace Sys2Proof.Machine

/-! ## Commands and the law -/

theorem State.Booked.billed {s : State} (b : s.Booked NoHead) : s.Billed := ⟨State.booked_noHead.1 b⟩

theorem State.Sound.booked {s : State} (h : s.Sound) : s.Booked NoHead := State.booked_noHead.2 h.airtime

theorem State.Sound.billed {s : State} (h : s.Sound) : s.Billed := ⟨h.airtime⟩

theorem State.billed_of_closed {s : State} (closed : ∀ g, (s.head g).account = none) : s.Billed :=
  ⟨fun g => State.BilledAt.of_closed (closed g)⟩

section
variable {s : State}

theorem State.Billed.done (b : s.Billed) : Gives State.Billed s.done := by
  rintro t ⟨⟩
  exact b.still (State.still_linkWork.flush s)

variable (h : s.Sound)
include h

theorem State.Sound.serveBilled (f : Req) (type : Byte) (work : State → Served) (wrong : State → Content)
    (each : ∀ u, u.Sound → (work u).state.Billed) : Gives State.Billed (.next (s.serve f type work wrong)) := by
  have replied : ∀ {u : State} c x, u.Billed → (u.reply type f.tag c x).flush.Billed := fun c x b =>
    b.still ((State.still_linkWork.reply _ _ _ c x).trans (State.still_linkWork.flush _))
  rintro t ⟨⟩
  unfold State.serve
  split
  · exact h.billed
  · next u e =>
    dsimp only
    split
    · exact replied _ _ (each u (h.takeRequest e))
    · exact replied _ _ (h.takeRequest e).billed

theorem State.Sound.handOnBilled (g : HeadId) {work : State → State} (done : (work s).Billed) :
    Gives State.Billed (s.handOn g work).done := by
  refine State.Billed.done ?_
  unfold State.handOn
  split
  · exact h.billed.still (s.discard_still _)
  · exact done

theorem State.Sound.forMemberBilled (g : HeadId) (a : StationAddress) {work : State → Nat → Station → State}
    (each : ∀ i st, s.station i = some st → st.current = some g → (work s i st).Billed) :
    Gives State.Billed (s.handOn g fun s => s.forMember g a (work s)).done := by
  refine h.handOnBilled g ?_
  unfold State.forMember
  split
  · exact h.billed
  · split
    · exact h.billed
    · next e =>
      split
      · next here => exact each _ _ e here
      · exact h.billed

/-- A request naming a head, worked on once the head's setup sequence is ended. -/
theorem State.Sound.serveHeadBilled (f : Req) (head : Nat) (type : Byte) {work : HeadId → State → Served} (wrong : State → Content)
    (each : ∀ u g, State.Sound u → (u.endSequence g).Booked NoHead → (u.endSequence g).MovesLaw →
      (work g (u.endSequence g)).state.Billed) :
    Gives State.Billed (.next (s.serve f type (fun u => u.withHead head work) wrong)) := by
  refine h.serveBilled f _ _ _ fun u v => ?_
  unfold State.withHead
  split
  · exact v.billed
  · next g _ =>
    exact each u g v (v.booked.still (.setHead (.inr ⟨rfl, rfl, rfl⟩)))
      (State.movesLaw_bowlLaw.quiet v.movesLaw (u.endSequence_quiet g))

end

/-! ## The control link and the part -/

section
variable {s : State} (h : s.Sound) (f : Req)
include h

theorem execTransactionBegin_billed : Gives State.Billed (execTransactionBegin s) := by
  rintro t ⟨⟩
  split
  · exact h.billed
  · exact h.billed.still (.of_eq rfl rfl rfl rfl)

theorem execTransactionEnd_billed (bytes : List Byte) : Gives State.Billed (execTransactionEnd bytes s) := by
  have stored : ∀ (t : State) (b : List Byte), t.Still (t.storeFrame b) := by
    intro t b
    unfold State.storeFrame
    repeat' split
    all_goals exact .of_eq rfl rfl rfl rfl
  rintro t ⟨⟩
  split
  · exact h.billed
  · refine h.billed.still (State.Still.trans ?_ (stored _ _))
    exact .of_eq rfl rfl rfl rfl

/-- A frame taken that is no request leaves the accounts (R188, R189). -/
theorem State.Sound.takeFrameBilled (pick : InFrame → Bool) {work : InFrame → State → State}
    (each : ∀ g t, State.Still t (work g t)) : (s.takeFrame pick work).Billed := by
  unfold State.takeFrame
  split
  · exact h.billed
  · next rest _ =>
    split
    · exact h.billed.still (State.Still.trans (t := { s with inbound := rest }) (.of_eq rfl rfl rfl rfl) (each _ _))
    · exact h.billed

theorem execBadFrame_billed : Gives State.Billed (execBadFrame s) := by
  rintro t ⟨⟩
  exact h.takeFrameBilled _ fun _ _ => .of_eq rfl rfl rfl rfl

theorem execUnknownRequestType_billed : Gives State.Billed (execUnknownRequestType s) := by
  rintro t ⟨⟩
  exact h.takeFrameBilled _ fun _ _ => .of_eq rfl rfl rfl rfl

theorem execHello_billed : Gives State.Billed (execHello f s) := h.serveBilled f _ _ _ fun _ v => v.billed

theorem execStart_billed : Gives State.Billed (execStart f s) := by
  refine h.serveBilled f _ _ _ fun u v => ?_
  split
  · exact v.billed.still (.of_eq rfl rfl rfl rfl)
  · exact v.billed

theorem execRestart_billed : Gives State.Billed (execRestart f s) :=
  h.serveBilled f _ _ _ fun u _ => State.billed_of_closed fun g => by
    rw [State.restarted_head]
    rfl

theorem execNoticeEnable_billed (andMask orMask : ClassSet) : Gives State.Billed (execNoticeEnable f andMask orMask s) :=
  h.serveBilled f _ _ _ fun _ v => v.billed.still (.of_eq rfl rfl rfl rfl)

theorem execTierSet_billed (row : TierRow) : Gives State.Billed (execTierSet f row s) := by
  refine h.serveBilled f _ _ _ fun u v => ?_
  repeat' split
  all_goals exact v.billed.still (.of_eq rfl rfl rfl rfl)

theorem execRoamSet_billed (a b c : Nat) (pub : ChanSet) : Gives State.Billed (execRoamSet f a b c pub s) := by
  refine h.serveBilled f _ _ _ fun u v => ?_
  split
  · have set_ : State.Booked { u with roam := ⟨a, b, c, pub⟩ } NoHead := v.booked.still (.of_eq rfl rfl rfl rfl)
    dsimp only
    split
    · exact set_.billed
    · exact (set_.trimAll v.movesLaw.seating.wf v.movesLaw.aimed).billed
  · exact v.billed

/-! ## Heads -/

omit h in
theorem State.Booked.setHead {owed : HeadId → Prop} (b : s.Booked owed) {g : HeadId} {x : Head}
    (account : x.account = (s.head g).account) (cap : x.cap = (s.head g).cap) (floor : x.floor = (s.head g).floor) :
    (s.setHead g x).Booked owed := b.still (.setHead (.inr ⟨account, cap, floor⟩))

omit h in
/-- A head lost, its record written first with its account as it was (R6, R16). -/
theorem State.Booked.lose (b : s.Booked NoHead) (law : s.MovesLaw) {g : HeadId} {x : Head} (same : (s.head g).BillSame x) :
    ((s.setHead g x).loseHead g).Booked NoHead :=
  State.Booked.loseHead (b.still (.setHead same)) law.seating.wf law.aimed

omit h in
theorem State.Booked.headFault (b : s.Booked NoHead) (law : s.MovesLaw) (g : HeadId) (r : FaultReason) :
    (s.headFault g r).Booked NoHead :=
  (b.lose law (x := { s.head g with state := .fault, startTimer := none, supervision := none }) (.inr ⟨rfl, rfl, rfl⟩)).note _

omit h in
theorem State.Booked.headToDark {owed : HeadId → Prop} (b : s.Booked owed) (g : HeadId) : (s.headToDark g).Booked owed := by
  unfold State.headToDark State.hearHead
  refine State.Booked.setHead ?_ rfl rfl rfl
  exact b.setHead rfl rfl rfl

theorem execAnnounce_billed (g : HeadId) : Gives State.Billed (execAnnounce g s) := by
  have lost : ((s.headFault g .restarted).setHead g { (s.headFault g .restarted).head g with miss := 0 }).Billed :=
    State.Booked.billed (State.Booked.setHead (h.booked.headFault h.movesLaw g .restarted) rfl rfl rfl)
  refine State.Billed.done ?_
  split
  · exact (h.booked.headToDark g).billed
  · exact State.Booked.billed (State.Booked.setHead h.booked rfl rfl rfl)
  · exact (h.booked.headToDark g).billed
  all_goals exact lost

theorem execHeartbeat_billed (g : HeadId) : Gives State.Billed (execHeartbeat g s) := by
  refine State.Billed.done ?_
  split
  · exact (h.booked.headToDark g).billed
  · exact (h.booked.headToDark g).billed
  all_goals exact State.Booked.billed (State.Booked.setHead h.booked rfl rfl rfl)

theorem execSupervisionTimerExpiry_billed (g : HeadId) : Gives State.Billed (execSupervisionTimerExpiry g s) := by
  refine State.Billed.done ?_
  split
  · exact h.billed
  · next due _ =>
    have b : (s.expireAt due).Booked NoHead := h.booked.still (s.expireAt_still due)
    have law : (s.expireAt due).MovesLaw := State.movesLaw_bowlLaw.quiet h.movesLaw rfl
    have faulted : ∀ (x : Head) (r : FaultReason), ((s.expireAt due).head g).BillSame x →
        (((s.expireAt due).setHead g x).headFault g r).Billed := fun x r same => by
      rw [State.headFault_setHead]
      exact ((b.lose law (x := { x with state := .fault, startTimer := none, supervision := none }) same).note _).billed
    unfold State.missHeartbeat
    dsimp only
    split
    · exact State.Booked.billed (State.Booked.setHead b rfl rfl rfl)
    · split
      · refine State.Booked.billed (State.Booked.setHead ?_ rfl rfl rfl)
        exact State.Booked.setHead b rfl rfl rfl
      · exact faulted _ _ (.inr ⟨rfl, rfl, rfl⟩)
      · exact faulted _ _ (.inr ⟨rfl, rfl, rfl⟩)
      · exact faulted _ _ (.inr ⟨rfl, rfl, rfl⟩)
      · exact State.Booked.billed (State.Booked.setHead b rfl rfl rfl)
      · exact State.Booked.billed (State.Booked.setHead b rfl rfl rfl)

theorem execStartTimerExpiry_billed (g : HeadId) : Gives State.Billed (execStartTimerExpiry g s) := by
  refine State.Billed.done ?_
  split
  · exact h.billed
  · next due _ =>
    have b : (s.expireAt due).Booked NoHead := h.booked.still (s.expireAt_still due)
    have law : (s.expireAt due).MovesLaw := State.movesLaw_bowlLaw.quiet h.movesLaw rfl
    dsimp only
    split
    · exact (b.headFault law g _).billed
    · exact State.Booked.billed (State.Booked.setHead b rfl rfl rfl)

theorem execSeatLinkFrameDiscarded_billed (l : LinkId) : Gives State.Billed (execSeatLinkFrameDiscarded l s) :=
  (h.billed.still (s.discard_still l)).done

theorem execSetupDone_billed (g : HeadId) : Gives State.Billed (execSetupDone g s) := by
  refine h.handOnBilled g ?_
  split
  · next starting =>
    have on : (s.setHead g { s.head g with state := .on, startTimer := none }).Booked NoHead :=
      h.booked.still (.setHead (.inr ⟨rfl, rfl, rfl⟩))
    have empty : (s.setHead g { s.head g with state := .on, startTimer := none }).parties g = [] :=
      h.movesLaw.parties_of_idle (by simp [Head.serving, starting])
    exact ((on.openAccount empty).note _).billed
  · exact h.billed

theorem execWindowTimerExpiry_billed (g : HeadId) : Gives State.Billed (execWindowTimerExpiry g s) := by
  refine State.Billed.done ?_
  split
  · exact h.billed
  · next a open_ =>
    have b : (s.expireAt a.window).Booked NoHead := h.booked.still (s.expireAt_still a.window)
    have law : (s.expireAt a.window).MovesLaw := State.movesLaw_bowlLaw.quiet h.movesLaw rfl
    have restarted := b.restartWindow (h := g) id open_ ((s.expireAt a.window).now + ms 100)
    have lawAfter : ((s.expireAt a.window).setHead g { (s.expireAt a.window).head g with
        account := some { a with window := (s.expireAt a.window).now + ms 100 } }).MovesLaw := law.setHead fun c => c
    dsimp only
    generalize (s.expireAt a.window).setHead g { (s.expireAt a.window).head g with
        account := some { a with window := (s.expireAt a.window).now + ms 100 } } = u at restarted lawAfter
    have retried : (u.retryCapped g).Booked NoHead := by
      unfold State.retryCapped
      refine (List.foldlRecOn (motive := fun v : State => v.Booked NoHead ∧ v.MovesLaw) _ State.settle ⟨restarted, lawAfter⟩ ?_).1
      rintro v ⟨bv, lv⟩ i -
      exact ⟨bv.settle lv.seating.wf i, lv.settle i⟩
    exact (retried.restoreShed id).billed

theorem execHeadSetupPart1_billed (head radio step : Nat) : Gives State.Billed (execHeadSetupPart1 f head radio step s) := by
  refine h.serveBilled f _ _ _ fun u v => ?_
  repeat' split
  · exact v.billed
  · exact v.billed
  · exact v.billed.still (.setHead (.inr ⟨rfl, rfl, rfl⟩))
  · exact v.billed

/-- A setup sequence is open only at a head that is not live, whose account is closed (R10, R44). -/
theorem execHeadSetupPart2_billed (head cap floor : Nat) : Gives State.Billed (execHeadSetupPart2 f head cap floor s) := by
  refine h.serveBilled f _ _ _ fun u v => ?_
  split
  · exact v.billed
  · next g _ =>
    split
    · exact v.billed
    · next first =>
      split
      · have order := v.heads g
        have notLive : (u.head g).live = false := by
          refine Bool.eq_false_of_not_eq_true fun live => ?_
          obtain ⟨-, -, -, -, -, -, -, -, -, -, -, idle⟩ := order
          have := idle live
          omega
        exact v.billed.still (.setHead (.inl (order.account_none notLive)))
      · exact v.billed

theorem execHeadSetupPart3_billed (head : Nat) (ns : List Nat) : Gives State.Billed (execHeadSetupPart3 f head ns s) := by
  refine h.serveBilled f _ _ _ fun u v => ?_
  repeat' split
  · exact v.billed
  · exact v.billed
  · exact v.billed
  · exact v.billed.still (.setHead (.inr ⟨rfl, rfl, rfl⟩))

theorem execHeadControlStart_billed (head : Nat) (known : Bool) : Gives State.Billed (execHeadControlStart f head known s) := by
  refine h.serveHeadBilled f head _ _ fun u g _ b _ => ?_
  split
  · unfold State.startHead
    dsimp only
    split
    · refine State.Booked.billed (State.Booked.send ?_ g _)
      exact State.Booked.setHead b rfl rfl rfl
    · exact b.billed
  · exact b.billed

theorem execHeadControlDrain_billed (head : Nat) (known : Bool) : Gives State.Billed (execHeadControlDrain f head known s) := by
  refine h.serveHeadBilled f head _ _ fun u g _ b law => ?_
  split
  · unfold State.drainHead
    split
    · generalize u.endSequence g = v at b law
      have draining : (v.setHead g { v.head g with state := .draining }).MovesLaw := law.setHead fun _ => rfl
      refine State.Booked.billed (State.Booked.drainCheck ?_ g)
      refine (List.foldlRecOn (motive := fun v : State => v.Booked NoHead ∧ v.MovesLaw) _ State.weigh ⟨?_, draining⟩ ?_).1
      · exact State.Booked.setHead b rfl rfl rfl
      · rintro w ⟨bw, lw⟩ i -
        exact ⟨bw.weigh lw.seating.wf i, lw.weigh i⟩
    · exact b.billed
  · exact b.billed

theorem execHeadControlStop_billed (head : Nat) (known : Bool) : Gives State.Billed (execHeadControlStop f head known s) := by
  refine h.serveHeadBilled f head _ _ fun u g _ b law => ?_
  split
  · unfold State.stopHead
    split
    · refine State.Booked.billed ?_
      exact State.Booked.lose b law (.inr ⟨rfl, rfl, rfl⟩)
    · exact b.billed
  · exact b.billed

theorem execHeadLimits_billed (head cap floor : Nat) : Gives State.Billed (execHeadLimits f head cap floor s) := by
  refine h.serveHeadBilled f head _ _ fun u g _ b _ => ?_
  split
  · split
    · next fits =>
      obtain ⟨-, room⟩ := Bool.and_eq_true_iff.1 fits
      exact (b.setLimits (of_decide_eq_true room) floor).billed
    · exact b.billed
  · exact b.billed

theorem execHeadQuery_billed (head : Nat) : Gives State.Billed (execHeadQuery f head s) :=
  h.serveHeadBilled f head _ _ fun _ _ _ b _ => b.billed

theorem execHeadStats_billed (head : Nat) : Gives State.Billed (execHeadStats f head s) :=
  h.serveHeadBilled f head _ _ fun _ _ _ b _ => b.billed

end

/-! ## Stations -/

section
variable {s : State} (h : s.Sound) (f : Req)
include h

theorem execAssocReq_billed (g : HeadId) (addr : StationAddress) (rssi : Int) : Gives State.Billed (execAssocReq g addr rssi s) := by
  have b := h.booked
  have wf := h.movesLaw.seating.wf
  refine State.Billed.done ?_
  split
  · refine State.Booked.billed ?_
    unfold State.assocRequest
    split
    · exact b.send g _
    · split
      · split
        · exact b.associate wf g addr rssi
        · exact b.send g _
      · split
        · exact b
        · next e =>
          split
          · exact b.send g _
          · split
            · exact b.send g _
            · split
              · split
                · next away => exact b.returnStation wf e away g rssi
                · next cur => exact b.directMove wf e cur g rssi
              · exact b.send g _
  · exact h.billed.still (s.discard_still _)

theorem execDisassoc_billed (g : HeadId) (addr : StationAddress) : Gives State.Billed (execDisassoc g addr s) := by
  refine h.handOnBilled g ?_
  repeat' split
  · exact h.billed
  · exact h.billed
  · exact (h.booked.vacate h.movesLaw _ _ _).billed
  · exact (h.booked.vacate h.movesLaw _ _ _).billed
  · exact h.billed

theorem execLost_billed (g : HeadId) (addr : StationAddress) : Gives State.Billed (execLost g addr s) := by
  refine h.forMemberBilled (work := fun s i _ => ((s.loseMember i).recompute g).drainCheck g) g addr fun i st e cur => ?_
  have lost : (s.loseMember i).Booked (· = g) := (h.booked.mono fun _ => False.elim).loseMember h.movesLaw fun k at_ => by
    rw [State.headOf, e] at at_
    exact Option.some.inj (at_.symm.trans cur)
  exact ((lost.recompute_last (rest := NoHead) fun k m => .inl m).drainCheck g).billed

theorem execStationReport_billed (g : HeadId) (addr : StationAddress) (rssi : Int) (cands : List (Nat × Int)) :
    Gives State.Billed (execStationReport g addr rssi cands s) := by
  unfold execStationReport
  split
  · exact (h.billed.still (s.discard_still _)).done
  · exact h.forMemberBilled (work := fun s => s.report g rssi cands) g addr fun i st e cur =>
      (h.booked.report h.movesLaw e cur rssi cands).billed

theorem execJoinReq_billed (g : HeadId) (addr : StationAddress) (chan : Nat) : Gives State.Billed (execJoinReq g addr chan s) :=
  h.forMemberBilled (work := fun s => s.join g chan) g addr fun _ _ e cur =>
    (h.booked.joinChan h.movesLaw.seating.wf e cur chan).billed

theorem execLeaveReq_billed (g : HeadId) (addr : StationAddress) (chan : Nat) : Gives State.Billed (execLeaveReq g addr chan s) :=
  h.forMemberBilled (work := fun s => s.leave g chan) g addr fun i st _ _ =>
    (h.booked.leave h.movesLaw.seating.wf h.movesLaw.aimed g chan i st).billed

theorem execBindReq_billed (g : HeadId) (addr : StationAddress) (m : PassNumber) : Gives State.Billed (execBindReq g addr m s) :=
  h.forMemberBilled (work := fun s => s.bindRequest g m) g addr fun _ _ e _ => (h.booked.bindRequest h.movesLaw e g m).billed

theorem execUnbindReq_billed (g : HeadId) (addr : StationAddress) : Gives State.Billed (execUnbindReq g addr s) :=
  h.forMemberBilled (work := fun s => s.unbindRequest g) g addr fun i st _ _ =>
    (h.booked.unbindRequest h.movesLaw.seating.wf h.movesLaw.aimed g i st).billed

theorem execReady_billed (g : HeadId) (addr : StationAddress) (i : Nat) : Gives State.Billed (execReady g addr i s) := by
  refine h.handOnBilled g ?_
  split
  · next e =>
    obtain ⟨mem, own⟩ := State.matched_hold e
    exact (h.booked.land h.movesLaw (State.matched_station e) mem own).billed
  · exact (h.booked.lateAnswer g addr i).billed

theorem execDecline_billed (g : HeadId) (addr : StationAddress) (i : Nat) : Gives State.Billed (execDecline g addr i s) := by
  refine h.handOnBilled g ?_
  split
  · next e => exact (h.booked.undoHandover h.movesLaw.aimed (State.matched_hold e).1 _).billed
  · exact (h.booked.lateAnswer g addr i).billed

theorem execHandoverTimerExpiry_billed (i : Nat) : Gives State.Billed (execHandoverTimerExpiry i s) := by
  refine State.Billed.done ?_
  split
  · exact h.billed
  · next x e =>
    have b : (s.expireAt x.due).Booked NoHead := h.booked.still (s.expireAt_still x.due)
    have holds : ((s.expireAt x.due).cancel x).holds = s.holds := (s.expireAt x.due).cancel_holds x
    have aimed : ((s.expireAt x.due).cancel x).Aimed :=
      h.movesLaw.aimed.congr (congrFun (State.stance_congr ((s.expireAt x.due).cancel_stations x)))
        fun y m => ⟨y, holds ▸ m, rfl, rfl, rfl⟩
    exact ((b.cancel x).undoHandover aimed (by rw [holds]; exact List.mem_of_find?_eq_some e) _).billed

theorem execLapseTimerExpiry_billed (i : Nat) : Gives State.Billed (execLapseTimerExpiry i s) := by
  refine State.Billed.done ?_
  split
  · exact h.billed
  · next due _ =>
    have b : (s.expireAt due).Booked NoHead := h.booked.still (s.expireAt_still due)
    have law : (s.expireAt due).MovesLaw := State.movesLaw_bowlLaw.quiet h.movesLaw rfl
    exact (b.vacate law i _ _).billed

theorem execStationQuery_billed (r : StationRef) : Gives State.Billed (execStationQuery f r s) := by
  refine h.serveBilled f _ _ _ fun u v => ?_
  repeat' split
  all_goals exact v.billed

theorem execStationMove_billed (i target : Nat) : Gives State.Billed (execStationMove f i target s) :=
  h.serveHeadBilled f target _ _ fun _ g _ b law => (b.moveChecks law.seating.wf i g).billed

theorem execStationEvict_billed (i : Nat) : Gives State.Billed (execStationEvict f i s) := by
  refine h.serveBilled f _ _ _ fun u v => ?_
  repeat' split
  · exact v.billed
  · exact (v.booked.vacate v.movesLaw _ _ _).billed
  · exact v.billed

/-! ## Passes and zones -/

theorem execPassLoad_billed (es : List PassEntry) : Gives State.Billed (execPassLoad f es s) := by
  refine h.serveBilled f _ _ _ fun u v => ?_
  split
  · exact (v.booked.loadEntries es).billed
  · exact v.billed

theorem execPassAmend_billed (m : PassNumber) (tier : Option Nat) (seat : Change (BitVec 16)) (declared : Change Nat) :
    Gives State.Billed (execPassAmend f m tier seat declared s) := by
  refine h.serveBilled f _ _ _ fun u v => ?_
  repeat' split
  · exact v.billed
  · exact v.billed
  · exact v.billed
  · exact (v.booked.amend v.movesLaw.seating.wf v.movesLaw.aimed _ _ _ _ _).billed
  · exact v.billed

theorem execPassVoid_billed (m : PassNumber) : Gives State.Billed (execPassVoid f m s) := by
  refine h.serveBilled f _ _ _ fun u v => ?_
  split
  · exact v.billed
  · exact (v.booked.unbind v.movesLaw.seating.wf v.movesLaw.aimed _ _).billed

theorem execPassDrop_billed (m : PassNumber) : Gives State.Billed (execPassDrop f m s) := by
  refine h.serveBilled f _ _ _ fun u v => ?_
  split
  · exact v.billed
  · exact (v.booked.unbind v.movesLaw.seating.wf v.movesLaw.aimed _ _).billed.still (.of_eq rfl rfl rfl rfl)

theorem execPassQuery_billed (r : PassRef) : Gives State.Billed (execPassQuery f r s) := by
  refine h.serveBilled f _ _ _ fun u v => ?_
  repeat' split
  all_goals exact v.billed

theorem execGateScan_billed (m : PassNumber) (gate : Nat) (dir : Option ScanDirection) :
    Gives State.Billed (execGateScan f m gate dir s) := by
  refine h.serveBilled f _ _ _ fun u v => ?_
  repeat' split
  · exact v.billed
  · exact v.billed
  · exact v.billed
  · exact v.billed
  · exact (v.booked.scan v.movesLaw.seating.wf v.movesLaw.aimed _ _ _ _).billed

theorem execZoneSet_billed (z : Nat) (d : Option ZoneSpec) : Gives State.Billed (execZoneSet f z d s) := by
  refine h.serveBilled f _ _ _ fun u v => ?_
  repeat' split
  all_goals exact v.billed.still (.of_eq rfl rfl rfl rfl)

theorem execZoneQuery_billed (z : Nat) : Gives State.Billed (execZoneQuery f z s) := by
  refine h.serveBilled f _ _ _ fun u v => ?_
  split <;> exact v.billed

theorem execCensusLatch_billed (zs : ZoneSet) : Gives State.Billed (execCensusLatch f zs s) :=
  h.serveBilled f _ _ _ fun _ v => v.billed.still (.of_eq rfl rfl rfl rfl)

theorem execCensusRead_billed (z : Nat) : Gives State.Billed (execCensusRead f z s) := by
  refine h.serveBilled f _ _ _ fun u v => ?_
  repeat' split
  all_goals exact v.billed.still (.of_eq rfl rfl rfl rfl)

theorem execRezoneVisit_billed : Gives State.Billed (execRezoneVisit s) := by
  refine State.Billed.done ?_
  split
  · exact (h.booked.visitPass h.movesLaw.seating.wf h.movesLaw.aimed _).advanceCursor.billed
  · exact h.billed

end

end Sys2Proof.Machine

/-!
PROOF LAYER. The commands of the replay blocks keep the open accounts true and within their caps (R45, R46), and with them every
command and every step does.
-/
namespace Sys2Proof.Machine

/-! ## A channel that is not RUN -/

theorem Channel.currentLevel_of_idle {x : Channel} (idle : x.running = false) : x.currentLevel = none := by
  simpa [Channel.running] using idle

theorem EntryTrue.iff_of_idle {x : Channel} (idle : x.running = false) {ps : List Party} {floor : Nat} {c : Chan} {e : Entry} :
    EntryTrue x ps floor c e ↔ e = .notCounted := by
  simp [EntryTrue, idle]

/-- A channel that is not RUN costs no account anything, whatever its setup (R43). -/
theorem State.Billed.setIdle {s : State} (b : s.Billed) {c : Chan} {x : Channel} (was : (s.channel c).running = false)
    (is : x.running = false) : (s.setChannel c x).Billed := by
  have sameLevel : (x.currentLevel == some venueLevel) = s.atVenue c := by
    rw [State.atVenue, Channel.currentLevel_of_idle was, Channel.currentLevel_of_idle is]
  have venue : ∀ d, (s.setChannel c x).atVenue d = s.atVenue d := fun d => by
    rw [State.atVenue_setChannel]
    split
    · next at_ => rw [at_, sameLevel]
    · rfl
  refine ⟨fun g a e => ?_⟩
  obtain ⟨⟨entries, committed, venueSum, shed⟩, within, room⟩ := b.airtime g a e
  refine ⟨⟨fun d => ?_, ?_, ?_, fun d at_ => shed d (venue d ▸ at_)⟩, within, room⟩
  · have true_ := entries d
    rw [State.channel_setChannel]
    split
    · next at_ =>
      rw [at_] at true_ ⊢
      rw [EntryTrue.iff_of_idle was] at true_
      exact (EntryTrue.iff_of_idle is).2 true_
    · exact true_
  · rw [committed, State.committedOf_setChannel (.inr sameLevel)]
    rfl
  · rw [venueSum, State.venueOf_setChannel (.inr sameLevel)]

/-! ## The replay commands -/

section
variable {s : State} (h : s.Sound) (f : Req)
include h

theorem execSegmentFrame_billed (p : Port) (bytes : List Byte) : Gives State.Billed (execSegmentFrame p bytes s) := by
  refine State.Billed.done ?_
  repeat' split
  · exact h.billed.tally p _
  · exact h.billed.goodFrame p _ _
  · exact h.billed.tally p _

theorem execHoldTimerExpiry_billed (k : Key) : Gives State.Billed (execHoldTimerExpiry k s) := by
  refine State.Billed.done ?_
  split
  · exact h.billed
  · exact (h.billed.still (s.expireAt_still _)).holdTimeout k

theorem execPaceTimerExpiry_billed (c : Chan) : Gives State.Billed (execPaceTimerExpiry c s) := by
  refine State.Billed.done ?_
  split
  · exact h.billed
  · next tm _ =>
    have b : (s.expireAt (tm.due (s.channel c).pace)).Billed := h.billed.still (s.expireAt_still _)
    dsimp only
    split
    · exact b.setChannel rfl
    · refine State.Billed.serveCurrent ?_ c
      exact b.setChannel rfl

theorem execReadCompletion_billed : Gives State.Billed (execReadCompletion s) := by
  have free : State.Billed { s with port := .free } := h.billed.still (.of_eq rfl rfl rfl rfl)
  refine State.Billed.done ?_
  split
  · exact h.billed
  · exact free.grant
  · next c _ =>
    dsimp only
    split
    · exact free.grant
    · next r _ =>
      have read : (({ s with port := .free }.unuse r.clip).setChannel c { s.channel c with read := none }).Billed :=
        (free.unuse r.clip).setChannel rfl
      refine State.Billed.grant ?_
      split
      · exact read.deliverSegment c r
      · exact read

theorem execIngestMode_billed (mode : Option IngestMode) (strict : Bool) : Gives State.Billed (execIngestMode f mode strict s) := by
  refine h.serveBilled f _ _ _ fun u v => ?_
  repeat' split
  · exact v.billed
  · exact v.billed
  · exact v.billed.still (.of_eq rfl rfl rfl rfl)

theorem execProgramSet_billed (program level : Nat) (auto : ChanSet) (loop : Bool) :
    Gives State.Billed (execProgramSet f program level auto loop s) := by
  refine h.serveBilled f _ _ _ fun u v => ?_
  repeat' split
  · exact v.billed
  · exact v.billed
  · exact v.billed.still (.of_eq rfl rfl rfl rfl)
  · exact v.billed

theorem execChannelSetup_billed (chan pace rated : Nat) (mode : Option ArbMode) :
    Gives State.Billed (execChannelSetup f chan pace rated mode s) := by
  refine h.serveBilled f _ _ _ fun u v => ?_
  split
  · exact v.billed
  · next c _ =>
    split
    · exact v.billed
    · next stopped =>
      have idle : (u.channel c).running = false := by
        rw [Bool.or_eq_true, not_or] at stopped
        exact Bool.eq_false_of_not_eq_true stopped.2
      split
      · exact v.billed
      · next m =>
        split
        · refine State.Billed.still (s := u.setChannel c { u.channel c with pace := pace, rated := rated }) ?_ (.of_eq rfl rfl rfl rfl)
          exact v.billed.setIdle idle idle
        · exact v.billed

theorem execChannelEnable_billed (andMask orMask : ChanSet) : Gives State.Billed (execChannelEnable f andMask orMask s) := by
  refine h.serveBilled f _ _ _ fun u v => ?_
  dsimp only
  refine State.Billed.foldl ?_ (fun w c b => b.weighPending c) _
  refine v.billed.still (State.Still.of_heads (fun _ => .refl _) rfl rfl fun c => ?_)
  simp only [State.channel, Fin.getElem_fin, Vector.getElem_ofFn]
  rfl

theorem execPlay_billed (chan clip : Nat) (level : Option Nat) (base : Nat) (count : Option Nat) (loop : Bool) :
    Gives State.Billed (execPlay f chan clip level base count loop s) := by
  refine h.serveBilled f _ _ _ fun u v => ?_
  repeat' split
  · exact v.billed
  · exact v.billed
  · exact v.billed
  · exact v.billed
  · exact v.billed.requestEntry _ _ _
  · exact v.billed

theorem execStop_billed (chan : Nat) (levels : LevelSet) : Gives State.Billed (execStop f chan levels s) := by
  refine h.serveBilled f _ _ _ fun u v => ?_
  split
  · exact v.billed
  · exact v.billed.stopLevels _ levels

theorem execChannelStatus_billed (chan : Nat) : Gives State.Billed (execChannelStatus f chan s) := by
  refine h.serveBilled f _ _ _ fun u v => ?_
  split
  · exact v.billed
  · exact v.billed.setChannel rfl

theorem execClipQuery_billed (clip : ClipRef) : Gives State.Billed (execClipQuery f clip s) := by
  refine h.serveBilled f _ _ _ fun u v => ?_
  split
  · split <;> exact v.billed
  · dsimp only
    repeat' split
    all_goals exact v.billed

theorem execClipPin_billed (clip : Nat) (pin : Bool) : Gives State.Billed (execClipPin f clip pin s) := by
  refine h.serveBilled f _ _ _ fun u v => ?_
  repeat' split
  · exact v.billed
  · exact v.billed.updateClip clip _
  · exact v.billed

theorem execClipRetire_billed (clip : Nat) : Gives State.Billed (execClipRetire f clip s) := by
  refine h.serveBilled f _ _ _ fun u v => ?_
  split
  · split
    · exact v.billed
    · next k _ =>
      split
      · exact v.billed
      · refine State.Billed.vacateClip ?_ clip
        split
        · exact v.billed.releaseKey k.key
        · exact v.billed
  · exact v.billed

end

/-! ## The whole of a step -/

/-- Every command keeps the open accounts true and within their caps. -/
theorem exec_billed {s : State} (h : s.Sound) (i : Instr) : Gives State.Billed (exec i s) := by
  cases i with
  | powerOn =>
    rintro t ⟨⟩
    exact State.billed_of_closed fun g => by
      show (State.reset.head g).account = none
      rw [State.reset_head]
      rfl
  | announce g => exact execAnnounce_billed h g
  | heartbeat g => exact execHeartbeat_billed h g
  | supervisionTimerExpiry g => exact execSupervisionTimerExpiry_billed h g
  | setupDone g => exact execSetupDone_billed h g
  | startTimerExpiry g => exact execStartTimerExpiry_billed h g
  | seatLinkFrameDiscarded l => exact execSeatLinkFrameDiscarded_billed h l
  | assocReq g a r => exact execAssocReq_billed h g a r
  | disassoc g a => exact execDisassoc_billed h g a
  | lost g a => exact execLost_billed h g a
  | stationReport g a r cs => exact execStationReport_billed h g a r cs
  | joinReq g a c => exact execJoinReq_billed h g a c
  | leaveReq g a c => exact execLeaveReq_billed h g a c
  | bindReq g a n => exact execBindReq_billed h g a n
  | unbindReq g a => exact execUnbindReq_billed h g a
  | ready g a n => exact execReady_billed h g a n
  | decline g a n => exact execDecline_billed h g a n
  | lapseTimerExpiry n => exact execLapseTimerExpiry_billed h n
  | handoverTimerExpiry n => exact execHandoverTimerExpiry_billed h n
  | windowTimerExpiry g => exact execWindowTimerExpiry_billed h g
  | segmentFrame p bs => exact execSegmentFrame_billed h p bs
  | holdTimerExpiry k => exact execHoldTimerExpiry_billed h k
  | paceTimerExpiry c => exact execPaceTimerExpiry_billed h c
  | readCompletion => exact execReadCompletion_billed h
  | rezoneVisit => exact execRezoneVisit_billed h
  | transactionBegin => exact execTransactionBegin_billed h
  | transactionEnd bs => exact execTransactionEnd_billed h bs
  | badFrame => exact execBadFrame_billed h
  | unknownRequestType => exact execUnknownRequestType_billed h
  | hello f => exact execHello_billed h f
  | start f => exact execStart_billed h f
  | restart f => exact execRestart_billed h f
  | noticeEnable f a b => exact execNoticeEnable_billed h f a b
  | tierSet f r => exact execTierSet_billed h f r
  | roamSet f a b c p => exact execRoamSet_billed h f a b c p
  | headSetupPart1 f g r x => exact execHeadSetupPart1_billed h f g r x
  | headSetupPart2 f g c x => exact execHeadSetupPart2_billed h f g c x
  | headSetupPart3 f g ns => exact execHeadSetupPart3_billed h f g ns
  | headControlStart f g k => exact execHeadControlStart_billed h f g k
  | headControlDrain f g k => exact execHeadControlDrain_billed h f g k
  | headControlStop f g k => exact execHeadControlStop_billed h f g k
  | headLimits f g c x => exact execHeadLimits_billed h f g c x
  | headQuery f g => exact execHeadQuery_billed h f g
  | headStats f g => exact execHeadStats_billed h f g
  | stationQuery f r => exact execStationQuery_billed h f r
  | stationMove f n g => exact execStationMove_billed h f n g
  | stationEvict f n => exact execStationEvict_billed h f n
  | passLoad f es => exact execPassLoad_billed h f es
  | passAmend f n t x d => exact execPassAmend_billed h f n t x d
  | passVoid f n => exact execPassVoid_billed h f n
  | passDrop f n => exact execPassDrop_billed h f n
  | passQuery f r => exact execPassQuery_billed h f r
  | gateScan f n g d => exact execGateScan_billed h f n g d
  | zoneSet f z d => exact execZoneSet_billed h f z d
  | zoneQuery f z => exact execZoneQuery_billed h f z
  | censusLatch f zs => exact execCensusLatch_billed h f zs
  | censusRead f z => exact execCensusRead_billed h f z
  | ingestMode f m b => exact execIngestMode_billed h f m b
  | programSet f p l a b => exact execProgramSet_billed h f p l a b
  | channelSetup f c p r m => exact execChannelSetup_billed h f c p r m
  | channelEnable f a b => exact execChannelEnable_billed h f a b
  | play f c i l n m b => exact execPlay_billed h f c i l n m b
  | stop f c ls => exact execStop_billed h f c ls
  | channelStatus f c => exact execChannelStatus_billed h f c
  | clipQuery f r => exact execClipQuery_billed h f r
  | clipPin f i b => exact execClipPin_billed h f i b
  | clipRetire f i => exact execClipRetire_billed h f i

/-- Settles O10: each piece of work leaves the heads it touches due for a recompute, and every command recomputes them before it ends. -/
theorem everyStepKeepsAirtimeWithinCap : Obligations.EveryStepKeepsAirtimeWithinCap := by
  intro s t h e
  unfold step at e
  split at e
  · cases e
    exact (h.billed.still (.of_eq rfl rfl rfl rfl)).airtime
  · next c rest _ => exact (exec_billed (h.withPending rest) c t e).airtime

end Sys2Proof.Machine

/-!
PROOF LAYER. The expiry of a window timer (R53, R54): work on one head's account, the capped members retried one after another, and the
restore.
-/
namespace Sys2Proof.Machine

/-! ## Work on one head's account -/

/-- A notice of a channel that is shed or restored at a head (R47, R54). -/
def OfAccount (h : HeadId) (n : Notice) : Prop := ∃ c cost, n = .shed h c cost ∨ n = .restored h c cost

/-- Work that changes stations' records and one head's account alone, its window timer kept, and tells of that account alone. -/
structure State.AccountWork (s t : State) (h : HeadId) : Prop where
  aside   : t.aside = s.aside
  view    : t.headsView = s.headsView
  heads   : ∀ g, g ≠ h → t.head g = s.head g
  holds   : t.holds = s.holds
  linkOut : t.linkOut = s.linkOut
  window  : (t.head h).account.map Account.window = (s.head h).account.map Account.window
  told    : ∃ ns, s.Produced t ns ∧ ∀ n ∈ ns, OfAccount h n

section
variable {s t u : State} {h : HeadId}

theorem State.AccountWork.records (aside : t.aside = s.aside) (heads : t.heads = s.heads) (holds : t.holds = s.holds)
    (linkOut : t.linkOut = s.linkOut) (held : t.held = s.held) : s.AccountWork t h where
  aside := aside
  view := State.headsView_congr heads
  heads _ _ := State.head_congr heads _
  holds := holds
  linkOut := linkOut
  window := by rw [State.head_congr heads]
  told := ⟨[], .nil held, by simp⟩

theorem State.AccountWork.refl (s : State) : s.AccountWork s h := .records rfl rfl rfl rfl rfl

theorem State.AccountWork.trans (w : s.AccountWork t h) (x : t.AccountWork u h) : s.AccountWork u h where
  aside := x.aside.trans w.aside
  view := x.view.trans w.view
  heads g n := (x.heads g n).trans (w.heads g n)
  holds := x.holds.trans w.holds
  linkOut := x.linkOut.trans w.linkOut
  window := x.window.trans w.window
  told := by
    obtain ⟨ns, p, hp⟩ := w.told
    obtain ⟨ms, q, hq⟩ := x.told
    exact ⟨ns ++ ms, p.trans q (State.enables_of_aside w.aside), fun n mem => (List.mem_append.1 mem).elim (hp n) (hq n)⟩

/-- An account written over an open one, its window timer kept. -/
theorem State.AccountWork.setAccount {a : Account} (e : (s.head h).account = some a) {r : Account × List Notice}
    (window : r.1.window = a.window) (told : ∀ n ∈ r.2, OfAccount h n) : s.AccountWork (s.setAccount h r) h where
  aside := rfl
  view := s.setAccount_headsView (by simp [e]) r
  heads g ne := by rw [State.setAccount, State.head_noteAll, State.head_setHead_of_ne _ _ ne]
  holds := rfl
  linkOut := rfl
  window := by rw [State.setAccount_head, e, Option.map_some, Option.map_some, window]
  told := ⟨r.2, State.noteAll_produced _ _, told⟩

theorem State.recompute_accountWork (s : State) (h : HeadId) : s.AccountWork (s.recompute h) h := by
  cases e : (s.head h).account with
  | none =>
    rw [State.recompute_of_closed e]
    exact .refl s
  | some a =>
    rw [State.recompute_of_open e]
    have run := State.recomputed_shedFrom (s := s) (h := h) (a := a)
    refine .setAccount e run.window fun n mem => ?_
    obtain ⟨c, cost, -, rfl⟩ := (run.notices n).1 mem
    exact ⟨c, cost, .inl rfl⟩

/-- A member's reservation settled (R51, R52). -/
theorem State.settle_accountWork {i : Nat} (cur : s.headOf i = some h) : s.AccountWork (s.settle i) h := by
  have reserved : s.AccountWork (s.setReservation i) h := by
    obtain ⟨st, e, at_⟩ := Option.bind_eq_some_iff.1 cur
    rw [State.setReservation_of_head e at_]
    exact .records rfl rfl rfl rfl rfl
  unfold State.settle
  dsimp only
  split
  · exact reserved
  · rw [State.recomputeOf, s.headOf_setReservation i i, cur]
    exact reserved.trans (State.recompute_accountWork _ h)

end

/-! ## The restore -/

section
variable {s : State} {h : HeadId} {cap : Nat}

theorem State.mem_restoreInsert (s : State) (c d : Chan) (ds : List Chan) : d ∈ s.restoreInsert c ds ↔ d = c ∨ d ∈ ds := by
  induction ds with
  | nil => simp [State.restoreInsert]
  | cons e ds ih =>
    unfold State.restoreInsert
    split
    · exact List.mem_cons
    · simp only [List.mem_cons, ih]
      exact or_left_comm

/-- Every channel has its turn in the restore (R54). -/
theorem State.mem_restoreOrder (s : State) (c : Chan) : c ∈ s.restoreOrder := by
  have all : ∀ l : List Chan, c ∈ l → c ∈ l.foldr s.restoreInsert [] := by
    intro l
    induction l with
    | nil => exact fun m => m
    | cons d l ih =>
      intro m
      rw [List.foldr_cons, State.mem_restoreInsert]
      exact (List.mem_cons.1 m).imp_right ih
  exact all _ (List.mem_finRange c)

/-- From one account to another some turns of the restore have been taken (R54). -/
structure Account.Restored (h : HeadId) (r q : Account × List Notice) : Prop where
  window  : q.1.window = r.1.window
  grew    : r.1.committed ≤ q.1.committed
  shed    : ∀ (c : Chan) k cost, q.1.entries[c] = .shed k cost → r.1.entries[c] = .shed k cost
  told    : ∀ n ∈ q.2, n ∈ r.2 ∨ OfAccount h n

theorem Account.Restored.trans {r q p : Account × List Notice} (x : Account.Restored h r q) (y : Account.Restored h q p) :
    Account.Restored h r p where
  window := y.window.trans x.window
  grew := x.grew.trans y.grew
  shed c k cost e := x.shed c k cost (y.shed c k cost e)
  told n m := (y.told n m).elim (x.told n) .inr

theorem Account.Restored.refl (r : Account × List Notice) : Account.Restored h r r :=
  ⟨rfl, Nat.le_refl _, fun _ _ _ e => e, fun _ m => .inl m⟩

theorem restoreOne_restored (h : HeadId) (cap : Nat) (r : Account × List Notice) (c : Chan) :
    Account.Restored h r (restoreOne h cap r c) := by
  obtain ⟨k, cost, -, -, eq⟩ | ⟨-, eq⟩ := restoreOne_cases h cap r c
  · rw [eq]
    refine ⟨rfl, Nat.le_add_right _ _, fun d k' cost' e => ?_, fun n m => ?_⟩
    · rw [Account.countAt_get] at e
      split at e
      · cases e
      · exact e
    · rw [List.mem_append, List.mem_singleton] at m
      exact m.imp_right fun e => ⟨c, cost, .inr e⟩
  · rw [eq]
    exact .refl r

/-- After its turn a channel that is still SHED does not fit (R54). -/
theorem restoreOne_poor {r : Account × List Notice} {c : Chan} {k cost : Nat} (e : (restoreOne h cap r c).1.entries[c] = .shed k cost) :
    cap < r.1.committed + cost := by
  obtain ⟨k', cost', -, -, eq⟩ | ⟨poor, eq⟩ := restoreOne_cases h cap r c
  · rw [eq, Account.countAt_get, if_pos rfl] at e
    cases e
  · rw [eq] at e
    exact poor k cost e

/-- After the restore's turns no channel that had one fits and is SHED (R54). -/
theorem foldl_restoreOne (h : HeadId) (cap : Nat) (cs : List Chan) (r : Account × List Notice) :
    Account.Restored h r (cs.foldl (restoreOne h cap) r) ∧ ∀ c ∈ cs, ∀ k cost,
      (cs.foldl (restoreOne h cap) r).1.entries[c] = .shed k cost → cap < (cs.foldl (restoreOne h cap) r).1.committed + cost := by
  induction cs generalizing r with
  | nil => exact ⟨.refl r, fun c m => absurd m List.not_mem_nil⟩
  | cons d cs ih =>
    have first := restoreOne_restored h cap r d
    obtain ⟨rest, poor⟩ := ih (restoreOne h cap r d)
    refine ⟨first.trans rest, fun c m k cost e => ?_⟩
    rcases List.mem_cons.1 m with rfl | m
    · have was := restoreOne_poor (rest.shed c k cost e)
      have grew := first.grew.trans rest.grew
      exact Nat.lt_of_lt_of_le was (Nat.add_le_add_right grew cost)
    · exact poor c m k cost e

/-- The restore at a head with an open account (R54). -/
theorem State.restoreShed_of_open {a : Account} (e : (s.head h).account = some a) :
    s.AccountWork (s.restoreShed h) h ∧ ∃ b, ((s.restoreShed h).head h).account = some b
      ∧ ∀ (c : Chan) k cost, b.entries[c] = .shed k cost → (s.head h).cap < b.committed + cost := by
  obtain ⟨run, poor⟩ := foldl_restoreOne h (s.head h).cap s.restoreOrder (a, [])
  have eq : s.restoreShed h = s.setAccount h (s.restoreOrder.foldl (restoreOne h (s.head h).cap) (a, [])) := by
    simp only [State.restoreShed, e]
  rw [eq]
  refine ⟨.setAccount e run.window fun n m => (run.told n m).resolve_left List.not_mem_nil, _, by rw [State.setAccount_head],
    fun c => poor c (s.mem_restoreOrder c)⟩

end

/-! ## What the members hold -/

/-- The reservation of the record at an index; 0 where none stands. -/
def State.resOf (s : State) (i : Nat) : Nat := ((s.station i).map Station.res).getD 0

/-- What the members of a head below an index have gained (R53). -/
def State.gained (s t : State) (h : HeadId) (i : Nat) : Nat :=
  (((s.members h).filter (· < i)).map fun j => t.resOf j - s.resOf j).sum

theorem List.sum_map_filter_of_zero {l : List Nat} {p : Nat → Bool} {f : Nat → Nat} (zero : ∀ j ∈ l, p j = false → f j = 0) :
    ((l.filter p).map f).sum = (l.map f).sum := by
  induction l with
  | nil => rfl
  | cons j l ih =>
    have tail := ih fun k m => zero k (List.mem_cons_of_mem _ m)
    cases e : p j with
    | true => rw [List.filter_cons_of_pos e, List.map_cons, List.map_cons, List.sum_cons, List.sum_cons, tail]
    | false =>
      rw [List.filter_cons_of_neg (by simp [e]), List.map_cons, List.sum_cons, zero j List.mem_cons_self e, tail, Nat.zero_add]

section
variable {s t : State} {h : HeadId}

theorem State.resSum_members (w : Table.wf s.stations) (h : HeadId) :
    resSum (s.parties h) = ((s.members h).map s.resOf).sum + ((s.holdsAt h).map Hold.res).sum := by
  have own : ∀ p ∈ s.stations.filter fun p => p.2.current == some h, s.resOf p.1 = p.2.res := fun p m => by
    have e : s.station p.1 = some p.2 := Table.get_of_mem w (List.mem_of_mem_filter m)
    rw [State.resOf, e]
    rfl
  have members : ((s.members h).map s.resOf) = (s.stations.filter fun p => p.2.current == some h).map fun p => p.2.res := by
    rw [State.members, List.map_map]
    exact List.map_congr_left own
  rw [members, resSum, State.parties, List.map_append, List.sum_append, List.map_map, List.map_map]
  rfl

/-- Where the members stay and none has lost, the reservations have grown by what the members have gained. -/
theorem State.resSum_grown (w : Table.wf s.stations) (v : Table.wf t.stations) (members : t.members h = s.members h)
    (holds : t.holds = s.holds) (grew : ∀ j, s.resOf j ≤ t.resOf j) :
    resSum (t.parties h) = resSum (s.parties h) + ((s.members h).map fun j => t.resOf j - s.resOf j).sum := by
  have split : (s.members h).map t.resOf = (s.members h).map fun j => s.resOf j + (t.resOf j - s.resOf j) :=
    List.map_congr_left fun j _ => (Nat.add_sub_cancel' (grew j)).symm
  have holdsAt : t.holdsAt h = s.holdsAt h := by rw [State.holdsAt, State.holdsAt, holds]
  rw [State.resSum_members v, State.resSum_members w, members, holdsAt, split, List.sum_map_add]
  omega

theorem State.gained_congr {v : State} {i : Nat} (same : ∀ j, j < i → v.station j = t.station j) : s.gained v h i = s.gained t h i := by
  refine congrArg List.sum (List.map_congr_left fun j m => ?_)
  have lt : j < i := by simpa using (List.mem_filter.1 m).2
  rw [State.resOf, same j lt, State.resOf]
  rfl

end

/-! ## The capped members retried -/

/-- A capped member's turn has been taken: its tier value fitted with what those before it have gained, and it stands at it; else it is
as it was, and its tier value does not fit (R51, R53). -/
def State.TurnTaken (s t : State) (h : HeadId) (i : Nat) (st : Station) : Prop :=
  let fits := resSum (s.parties h) + s.gained t h i - st.res + s.tierValue st ≤ (s.head h).cap
  (fits → t.station i = some { st with res := s.tierValue st, capped := false })
    ∧ (¬ fits → t.station i = some st ∧ (s.head h).cap < resSum (t.parties h) - st.res + s.tierValue st)

/-- Some capped members of a head have been retried (R53). -/
structure State.Retried (s t : State) (h : HeadId) (done : Nat → Prop) : Prop where
  law     : t.MovesLaw
  booked  : t.Booked NoHead
  work    : s.AccountWork t h
  members : t.members h = s.members h
  grew    : ∀ j, s.resOf j ≤ t.resOf j
  rest    : ∀ j, ¬ done j → t.station j = s.station j
  turn    : ∀ i st, done i → s.station i = some st → s.TurnTaken t h i st

section
variable {s v : State} {h : HeadId} {done : Nat → Prop}

/-- A capped member's turn, those before it all below it (R53). -/
theorem State.Retried.settle (w : Table.wf s.stations) (r : s.Retried v h done) {k : Nat} {st : Station} (e : s.station k = some st)
    (cur : st.current = some h) (capped : st.capped = true) (below : ∀ j, done j → j < k) :
    s.Retried (v.settle k) h fun j => done j ∨ j = k := by
  have own : v.station k = some st := (r.rest k fun d => Nat.lt_irrefl k (below k d)).trans e
  have wv := r.law.seating.wf
  have value : v.tierValue st = s.tierValue st := congrFun (State.tierValue_eq_of_aside r.work.aside) st
  have cap : (v.head h).cap = (s.head h).cap := (congrArg Head.cap (State.sameButAccount_of_headsView r.work.view h)).symm
  have low : st.res < s.tierValue st := value ▸ (r.law.shapes k).capped st own capped
  have head : v.headOf k = some h := by rw [State.headOf, own, Option.bind_some, cur]
  -- The sum the turn is weighed against is the sum before with what those below have gained.
  have sum : resSum (v.parties h) = resSum (s.parties h) + s.gained v h k := by
    rw [State.resSum_grown w wv r.members r.work.holds r.grew, State.gained, List.sum_map_filter_of_zero]
    intro j _ high
    have idle : v.station j = s.station j := r.rest j fun d => by simp [below j d] at high
    rw [State.resOf, idle, State.resOf]
    exact Nat.sub_self _
  have towards : v.towards h st (v.tierValue st) =
      if resSum (s.parties h) + s.gained v h k - st.res + s.tierValue st ≤ (s.head h).cap then
        { st with res := s.tierValue st, capped := false } else st := by
    rw [State.towards_eq, value, cap, sum, if_neg (Nat.not_le.2 low)]
    split
    · rfl
    · rw [← capped]
  have station : ∀ j, (v.settle k).station j = if j = k then some (v.towards h st (v.tierValue st)) else v.station j := fun j => by
    rw [State.station, State.settle_stations]
    exact State.setReservation_station own cur j
  have other : ∀ j, j ≠ k → (v.settle k).station j = v.station j := fun j ne => (station j).trans (if_neg ne)
  have self : (v.settle k).station k = some (v.towards h st (v.tierValue st)) := (station k).trans (if_pos rfl)
  obtain ⟨current, -⟩ := v.towards_kept h st (v.tierValue st)
  have parties : (v.settle k).parties h = (v.setStation k (v.towards h st (v.tierValue st))).parties h := by
    rw [← State.setReservation_of_head own cur]
    exact State.parties_congr (v.settle_stations k) ((v.settle_holds k).trans (v.setReservation_holds k).symm) h
  have total : resSum ((v.settle k).parties h) + st.res = resSum (v.parties h) + (v.towards h st (v.tierValue st)).res := by
    have := State.resSum_setStation wv own (v.towards h st (v.tierValue st)) h
    rwa [Station.resAt_of_eq cur, Station.resAt_of_eq (current.trans cur), ← parties] at this
  have raised : st.res ≤ (v.towards h st (v.tierValue st)).res := by
    rw [towards]
    split
    · exact low.le
    · exact Nat.le_refl _
  have oldRes : v.resOf k = st.res := by rw [State.resOf, own]; rfl
  refine ⟨r.law.settle k, r.booked.settle wv k, r.work.trans (State.settle_accountWork head), ?_, fun j => (r.grew j).trans ?_,
    fun j n => ?_, fun i x d at_ => ?_⟩
  · refine Eq.trans ?_ ((State.members_setStation wv own current h).trans r.members)
    rw [State.members, State.settle_stations, State.setReservation_of_head own cur]
    rfl
  · by_cases same : j = k
    · rw [same, oldRes, State.resOf, self]
      exact raised
    · rw [State.resOf, State.resOf, other j same]
  · rw [other j fun same => n (.inr same), r.rest j fun d => n (.inl d)]
  · rcases d with old | rfl
    · have lt := below i old
      obtain ⟨fit, poor⟩ := r.turn i x old at_
      have gained : s.gained (v.settle k) h i = s.gained v h i := State.gained_congr fun j lt' => other j (by omega)
      rw [State.TurnTaken, gained, other i (by omega)]
      refine ⟨fit, fun n => ⟨(poor n).1, ?_⟩⟩
      have := (poor n).2
      omega
    · cases e.symm.trans at_
      have gained : s.gained (v.settle i) h i = s.gained v h i := State.gained_congr fun j lt' => other j (by omega)
      rw [State.TurnTaken, gained, self, towards]
      refine ⟨fun fits => by rw [if_pos fits], fun n => ?_⟩
      rw [towards, if_neg n] at total
      rw [if_neg n]
      exact ⟨rfl, by omega⟩

/-- The capped members of a head, each retried in its turn (R53). -/
theorem State.Retried.retry (w : Table.wf s.stations) (l : List Nat)
    (each : ∀ k ∈ l, ∃ st, s.station k = some st ∧ st.current = some h ∧ st.capped = true) (sorted : l.Pairwise (· < ·))
    {v : State} {done : Nat → Prop} (r : s.Retried v h done) (below : ∀ j, done j → ∀ k ∈ l, j < k) :
    s.Retried (l.foldl State.settle v) h fun j => done j ∨ j ∈ l := by
  induction l generalizing v done with
  | nil =>
    have same : (fun j => done j ∨ j ∈ ([] : List Nat)) = done := funext fun j => by simp
    rw [same]
    exact r
  | cons k l ih =>
    obtain ⟨first, sorted⟩ := List.pairwise_cons.1 sorted
    obtain ⟨st, e, cur, capped⟩ := each k List.mem_cons_self
    have next := r.settle w e cur capped fun j d => below j d k List.mem_cons_self
    have rest := ih (fun m mem => each m (List.mem_cons_of_mem _ mem)) sorted next fun j d m mem => by
      rcases d with d | rfl
      · exact below j d m (List.mem_cons_of_mem _ mem)
      · exact first m mem
    have same : (fun j => done j ∨ j ∈ k :: l) = fun j => (done j ∨ j = k) ∨ j ∈ l := funext fun j => by
      rw [List.mem_cons, or_assoc]
    rw [same]
    exact rest

/-- All the capped members of a head retried (R53). -/
theorem State.retryCapped_retried (law : s.MovesLaw) (b : s.Booked NoHead) (h : HeadId) :
    s.Retried (s.retryCapped h) h fun i => ∃ st, s.station i = some st ∧ st.current = some h ∧ st.capped = true := by
  have w := law.seating.wf
  have mem : ∀ k, k ∈ (s.stations.filter fun p => p.2.current == some h && p.2.capped).map Prod.fst ↔
      ∃ st, s.station k = some st ∧ st.current = some h ∧ st.capped = true := by
    intro k
    simp only [List.mem_map, List.mem_filter, Bool.and_eq_true, beq_iff_eq]
    constructor
    · rintro ⟨⟨j, st⟩, ⟨m, cur, capped⟩, rfl⟩
      exact ⟨st, Table.get_of_mem w m, cur, capped⟩
    · rintro ⟨st, e, cur, capped⟩
      exact ⟨(k, st), ⟨Table.get_eq_some_mem e, cur, capped⟩, rfl⟩
  have start : s.Retried s h fun _ => False :=
    ⟨law, b, .refl s, rfl, fun _ => Nat.le_refl _, fun _ _ => rfl, fun _ _ n => n.elim⟩
  have run := start.retry w _ (fun k m => (mem k).1 m) (w.sublist (List.filter_sublist.map Prod.fst)) fun _ n => n.elim
  have same : (fun j => False ∨ j ∈ (s.stations.filter fun p => p.2.current == some h && p.2.capped).map Prod.fst)
      = fun i => ∃ st, s.station i = some st ∧ st.current = some h ∧ st.capped = true := funext fun j => by
    rw [false_or, mem]
  rw [same] at run
  exact run

end

end Sys2Proof.Machine

/-!
PROOF LAYER. The expiry of a window timer as a whole (R53, R54).
-/
namespace Sys2Proof.Machine

section
variable {s : State} {h : HeadId} {a : Account}

/-- The state in which the capped members are retried: the clock at the expiry, the window timer restarted (R53, log 2). -/
def State.rewound (s : State) (h : HeadId) (a : Account) : State :=
  let t := s.expireAt a.window
  t.setHead h { t.head h with account := some { a with window := t.now + ms 100 } }

theorem State.rewound_head_self : (s.rewound h a).head h =
    { s.head h with account := some { a with window := max s.now a.window + ms 100 } } := State.head_setHead_self _ _ _

theorem State.rewound_head_of_ne {g : HeadId} (ne : g ≠ h) : (s.rewound h a).head g = s.head g := State.head_setHead_of_ne _ _ ne

theorem State.rewound_sound (sound : s.Sound) (e : (s.head h).account = some a) :
    (s.rewound h a).MovesLaw ∧ (s.rewound h a).Booked NoHead := by
  have law : (s.expireAt a.window).MovesLaw := State.movesLaw_bowlLaw.quiet sound.movesLaw rfl
  have booked : (s.expireAt a.window).Booked NoHead := sound.booked.still (s.expireAt_still a.window)
  exact ⟨law.setHead fun c => c, booked.restartWindow id e _⟩

theorem execWindowTimerExpiry_of_open (e : (s.head h).account = some a) :
    execWindowTimerExpiry h s = (((s.rewound h a).retryCapped h).restoreShed h).done := by
  simp only [execWindowTimerExpiry, e]
  rfl

theorem State.restoreShed_stations (s : State) (h : HeadId) : (s.restoreShed h).stations = s.stations := by
  unfold State.restoreShed
  split <;> rfl

/-- A turn as seen from the state the command begins in to the one it ends in. -/
theorem State.TurnTaken.whole {v t : State} {i : Nat} {st : Station} (turn : (s.rewound h a).TurnTaken v h i st)
    (stations : t.stations = v.stations) (holds : t.holds = v.holds) : s.TurnTaken t h i st := by
  have cap : ((s.rewound h a).head h).cap = (s.head h).cap := by rw [State.rewound_head_self]
  have station : ∀ j, t.station j = v.station j := fun j => by rw [State.station, stations]; rfl
  have gained : (s.rewound h a).gained v h i = s.gained t h i := (State.gained_congr fun j _ => station j).symm
  rw [State.TurnTaken, cap, gained] at turn
  rw [State.TurnTaken, station, State.parties_congr stations holds]
  exact turn

end

/-- Settles O31: the retried members stand as their turns left them, for later turns only take room; the restore then leaves only what
does not fit. -/
theorem windowExpiryRetriesThenRestores : Obligations.WindowExpiryRetriesThenRestores := by
  refine ⟨fun s h quiet closed => ?_, fun s h a sound e => ?_⟩
  · show execWindowTimerExpiry h s = _
    simp only [execWindowTimerExpiry, closed]
    exact State.done_of_held_nil quiet
  obtain ⟨-, -, quiet⟩ := sound.link
  obtain ⟨law, booked⟩ := State.rewound_sound sound e
  have retried := State.retryCapped_retried law booked h
  have executed := execWindowTimerExpiry_of_open e
  set u := s.rewound h a with hu
  set v := u.retryCapped h
  have window : (v.head h).account.map Account.window = some (max s.now a.window + ms 100) := by
    rw [retried.work.window, hu, State.rewound_head_self]
    rfl
  obtain ⟨a', open_, -⟩ := Option.map_eq_some_iff.1 window
  obtain ⟨restored, b, eb, poor⟩ := State.restoreShed_of_open open_
  have stations := v.restoreShed_stations h
  have final := retried.booked.restoreShed (h := h) id
  set w := v.restoreShed h
  have work := retried.work.trans restored
  have cap : (v.head h).cap = (s.head h).cap := by
    rw [(congrArg Head.cap (State.sameButAccount_of_headsView retried.work.view h)).symm, hu, State.rewound_head_self]
  have capEnd : (w.head h).cap = (s.head h).cap :=
    (congrArg Head.cap (State.sameButAccount_of_headsView restored.view h)).symm.trans cap
  obtain ⟨true_, within, -⟩ := State.booked_noHead.1 final h b eb
  obtain ⟨ns, produced, told⟩ := work.told
  have flushed : w.flush.stations = v.stations := w.flush_stations.trans stations
  have station : ∀ i, w.flush.station i = v.station i := fun i => by rw [State.station, flushed]; rfl
  have holds : w.flush.holds = v.holds := w.flush_holds.trans restored.holds
  refine ⟨w.flush, b, ns, executed, by rw [State.flush_head, eb], ?_, ?_, fun g => ⟨fun m => ?_, fun n => ?_⟩, fun i vacant => ?_,
    fun i st at_ other => ?_, fun i st at_ cur capped => ?_, ?_, ?_, ?_, ?_, ?_, ?_, told, ?_⟩
  · rw [State.flush_now, State.now_of_aside work.aside]
    rfl
  · rw [State.flush_now, State.now_of_aside work.aside]
    have := work.window
    rw [eb, hu, State.rewound_head_self] at this
    exact Option.some.inj this
  · cases List.mem_singleton.1 m
    have same := State.sameButAccount_of_headsView work.view h
    rw [hu, State.rewound_head_self] at same
    rw [State.flush_head]
    exact same
  · have ne : g ≠ h := fun same => n (List.mem_singleton.2 same)
    rw [State.flush_head, work.heads g ne, hu, State.rewound_head_of_ne ne]
  · rw [station, retried.rest i fun ⟨st, at_, _⟩ => by cases vacant.symm.trans at_]
    exact vacant
  · rw [station, retried.rest i fun ⟨x, at', cur, capped⟩ => by cases at_.symm.trans at'; exact other ⟨cur, capped⟩]
    exact at_
  · exact (retried.turn i st ⟨st, at_, cur, capped⟩ at_).whole flushed holds
  · exact true_.congr w.flush_channels (State.parties_congr w.flush_stations w.flush_holds h) (by rw [State.flush_head])
  · exact capEnd ▸ within
  · intro c k cost shed
    exact cap ▸ poor c k cost shed
  · exact holds.trans retried.work.holds
  · exact w.flush_passView.trans (State.passView_of_aside (s := u) work.aside)
  · exact w.flush_linkOut.trans work.linkOut
  · exact State.InBowl.of_flush (s := { s with now := max s.now a.window }) quiet (State.besideBowl_of_aside work.aside)
      (State.discards_of_aside work.aside) produced

end Sys2Proof.Machine

/-!
PROOF LAYER. A report of a station that is weighed: its record stored, its best candidate tried, admitted or refused (R58, R64–R69).
-/
namespace Sys2Proof.Machine

/-! ## A record written twice -/

theorem Table.put_put {α : Type} (t : Table α) (i : Nat) (x y : α) : Table.put (Table.put t i x) i y = Table.put t i y := by
  induction t with
  | nil => simp [Table.put]
  | cons a rest ih =>
    obtain ⟨j, z⟩ := a
    by_cases lt : i < j
    · simp [Table.put, lt]
    · by_cases eq : i = j
      · simp [Table.put, eq]
      · simp [Table.put, lt, eq, ih]

theorem State.setStation_setStation (s : State) (i : Nat) (x y : Station) : (s.setStation i x).setStation i y = s.setStation i y := by
  rw [State.setStation, State.setStation, State.setStation, Table.put_put]

/-- A record that owes its head what the record before it did may as well be written after a recompute. -/
theorem State.recompute_setStation {s : State} (w : Table.wf s.stations) {i : Nat} {st x : Station} (e : s.station i = some st)
    (current : x.current = st.current) (res : x.res = st.res) (chans : x.chans = st.chans) (rate : x.rate = st.rate) (h : HeadId) :
    (s.setStation i x).recompute h = (s.recompute h).setStation i x := by
  have parties := State.parties_setStation w e current res chans rate h
  cases acc : (s.head h).account with
  | none => rw [State.recompute_of_closed acc, State.recompute_of_closed (s := s.setStation i x) acc]
  | some a =>
    have same : (s.setStation i x).recomputed h a = s.recomputed h a := by
      unfold State.recomputed
      rw [parties]
      rfl
    rw [State.recompute_of_open acc, State.recompute_of_open (s := s.setStation i x) acc, same]
    rfl

/-! ## The record of a report -/

/-- A station's record as its report leaves it (R33, R34). -/
def Station.reported (st : Station) (rssi : Int) (cands : List (Nat × Int)) : Station :=
  { st with rssi := clampRssi rssi, rate := rateClass rssi, candidates := reportCandidates cands }

/-- The state in which a report is weighed: the record stored, and its head recomputed on a new rate class (R33, R34). -/
def State.reported (s : State) (h : HeadId) (i : Nat) (st : Station) (rssi : Int) (cands : List (Nat × Int)) : State :=
  if rateClass rssi = st.rate then s.setStation i (st.reported rssi cands)
  else (s.setStation i (st.reported rssi cands)).recompute h

section
variable {s : State} {h : HeadId} {i : Nat} {st : Station} (rssi : Int) (cands : List (Nat × Int))

theorem State.report_eq (w : Table.wf s.stations) (e : s.station i = some st) (idle : st.state = .assoc ∨ st.state = .seated) :
    s.report h rssi cands i st = (s.reported h i st rssi cands).weigh i := by
  have first : (s.setStation i { st with rssi := clampRssi rssi, rate := rateClass rssi }).station i
      = some { st with rssi := clampRssi rssi, rate := rateClass rssi } := Table.get_put_self _ _ _
  have wf : Table.wf (s.setStation i { st with rssi := clampRssi rssi, rate := rateClass rssi }).stations := Table.wf_put w _ _
  have stored : (s.takeRssi h i st rssi).updateStation i (fun x => { x with candidates := reportCandidates cands })
      = s.reported h i st rssi cands := by
    rw [State.takeRssi_eq w e]
    dsimp only
    unfold State.reported
    split
    · exact (State.updateStation_eq_setStation wf first _).trans (s.setStation_setStation i _ _)
    · have again := State.recompute_setStation wf first (x := st.reported rssi cands) rfl rfl rfl rfl h
      rw [State.setStation_setStation] at again
      rw [again]
      refine State.updateStation_eq_setStation (st := { st with rssi := clampRssi rssi, rate := rateClass rssi }) ?_ ?_ _
      · rw [State.recompute_stations]
        exact wf
      · rw [State.station, State.recompute_stations]
        exact first
  unfold State.report
  dsimp only
  rw [if_pos idle, stored]

theorem State.reported_stations : (s.reported h i st rssi cands).stations = Table.put s.stations i (st.reported rssi cands) := by
  unfold State.reported
  split
  · rfl
  · exact State.recompute_stations _ _

theorem State.reported_holds : (s.reported h i st rssi cands).holds = s.holds := by
  unfold State.reported
  split
  · rfl
  · exact State.recompute_holds _ _

theorem State.reported_work : s.AirtimeWork (s.reported h i st rssi cands) (· = h) := by
  have written : s.AirtimeWork (s.setStation i (st.reported rssi cands)) (· = h) := .records rfl rfl rfl rfl
  unfold State.reported
  split
  · exact written
  · exact written.recompute rfl

end

/-! ## The best candidate weighed -/

/-- The zone term of a station is its pass's affair (R63). -/
theorem State.zoneTerm_of_aside {s t : State} (e : t.aside = s.aside) {st x : Station} (pass : x.pass = st.pass) (g : HeadId) :
    t.zoneTerm x g = s.zoneTerm st g := by
  rw [State.eq_of_aside e, State.zoneTerm, pass]
  rfl

theorem State.roam_of_aside {s t : State} (e : t.aside = s.aside) : t.roam = s.roam := by
  rw [State.eq_of_aside e]

theorem State.bestCandidate_of_best {s : State} {st : Station} {here : HeadId} {c : HeadId × Int} (best : s.Best st here c) :
    s.bestCandidate st here = some c := by
  cases e : s.bestCandidate st here with
  | none => exact absurd best.1 (State.bestCandidate_eq_none e c)
  | some d => rw [(State.best_of_bestCandidate e).unique best]

/-- A weighing is decided by the tests of its best candidate, which a DRAINING head waives (R67, R84). -/
theorem State.weigh_of_best {s : State} {i : Nat} {st : Station} {here : HeadId} {c : HeadId × Int} (e : s.station i = some st)
    (cur : st.current = some here) (idle : st.state = .assoc ∨ st.state = .seated) (best : s.Best st here c) :
    s.weigh i = if (s.head here).state = .draining ∨ s.passesTests st here c = true then
        s.tryCandidate i st here c (if (s.head here).state = .draining then .drain else .report)
      else s := by
  have top := State.bestCandidate_of_best best
  have shape : s.weigh i = if (s.head here).state = .draining then s.tryCandidate i st here c .drain
      else if s.passesTests st here c then s.tryCandidate i st here c .report else s := by
    unfold State.weigh
    rcases idle with q | q <;> simp only [e, cur, q, top]
  rw [shape]
  by_cases draining : (s.head here).state = .draining
  · rw [if_pos draining, if_pos (.inl draining), if_pos draining]
  · rw [if_neg draining, if_neg draining]
    by_cases passes : s.passesTests st here c = true
    · rw [if_pos passes, if_pos (.inr passes)]
    · rw [if_neg passes, if_neg fun t => t.elim draining passes]

section
variable {s : State} (sound : s.Sound) {h : HeadId} {i : Nat} {st : Station} (rssi : Int) (cands : List (Nat × Int))

theorem State.reported_station (j : Nat) : (s.reported h i st rssi cands).station j
    = if j = i then some (st.reported rssi cands) else s.station j := by
  rw [State.station, State.reported_stations]
  exact s.station_setStation i j _

theorem State.reported_sameButAccount (g : HeadId) : SameButAccount (s.head g) ((s.reported h i st rssi cands).head g) :=
  State.sameButAccount_of_headsView (State.reported_work rssi cands).view g

theorem State.reported_score (g : HeadId) (x : Int) : (s.reported h i st rssi cands).score (st.reported rssi cands) g x
    = x + s.zoneTerm st g - (s.reported h i st rssi cands).penalty g := by
  have term := State.zoneTerm_of_aside (State.reported_work (s := s) (h := h) (i := i) (st := st) rssi cands).aside
    (x := st.reported rssi cands) (st := st) rfl g
  rw [State.score, term]

include sound

/-- No head is its own neighbour, so that a candidate kept is at another head (R66). -/
theorem State.reported_kept_iff (c : HeadId × Int) : (s.reported h i st rssi cands).Kept (st.reported rssi cands) h c ↔
    c ∈ reportCandidates cands ∧ c.1 ∈ (s.head h).neighbours ∧ (s.head c.1).state = .on := by
  have near : ((s.reported h i st rssi cands).head h).neighbours = (s.head h).neighbours :=
    (congrArg Head.neighbours (State.reported_sameButAccount rssi cands h)).symm
  have ready : ((s.reported h i st rssi cands).head c.1).state = (s.head c.1).state :=
    (State.reported_sameButAccount rssi cands c.1).state.symm
  rw [State.Kept, near, ready]
  refine ⟨fun ⟨mem, _, rest⟩ => ⟨mem, rest⟩, fun ⟨mem, near, on⟩ => ⟨mem, fun at_ => ?_, near, on⟩⟩
  obtain ⟨-, -, -, -, -, -, -, -, apart, -⟩ := sound.heads h
  exact apart (at_ ▸ near)

/-- The account of a head that is ON and not the reporting one is open, and as it was (R44). -/
theorem State.reported_account {g : HeadId} (ne : g ≠ h) (on : (s.head g).state = .on) :
    ∃ a, ((s.reported h i st rssi cands).head g).account = some a := by
  rw [(State.reported_work rssi cands).heads g ne]
  have open_ := (sound.heads g).1
  rw [Head.serving, on] at open_
  exact Option.isSome_iff_exists.1 open_

end

/-- Settles O36: the record stored, the weighing is of its best candidate alone, and that is admitted or refused. -/
theorem reportStartsAHandover : Obligations.ReportStartsAHandover := by
  intro s h rssi cands i st best sound hears member idle short r w kept score isKept isBest tried party a fits
  have wf : Table.wf s.stations := sound.store.1.1
  obtain ⟨-, e, -, cur⟩ := id member
  have work : s.AirtimeWork w (· = h) := State.reported_work rssi cands
  have holds : w.holds = s.holds := State.reported_holds rssi cands
  have station : ∀ j, w.station j = if j = i then some r else s.station j := State.reported_station rssi cands
  have own : w.station i = some r := (station i).trans (if_pos rfl)
  have wwf : Table.wf w.stations := (State.reported_stations (s := s) (h := h) rssi cands : w.stations = _) ▸ Table.wf_put wf _ _
  have same : ∀ g, SameButAccount (s.head g) (w.head g) := State.reported_sameButAccount rssi cands
  have now : w.now = s.now := State.now_of_aside work.aside
  have executed : exec (.stationReport h st.addr rssi cands) s = (w.weigh i).done := by
    show execStationReport h st.addr rssi cands s = _
    rw [execStationReport, if_neg (by omega), hears.handOn, member.forMember, State.report_eq rssi cands wf e idle]
    rfl
  have scored : ∀ g x, w.score r g x = score g x := State.reported_score rssi cands
  have top : w.Best r h best := by
    refine ⟨(State.reported_kept_iff sound rssi cands best).2 isKept, fun c k => ?_⟩
    have := isBest c ((State.reported_kept_iff sound rssi cands c).1 k)
    rwa [← scored, ← scored] at this
  have triedIff : ((w.head h).state = .draining ∨ w.passesTests r h best = true) ↔ tried := by
    rw [← (same h).state, State.passesTests, scored, scored, State.nowMs, State.roam_of_aside work.aside, now,
      Bool.and_eq_true, decide_eq_true_iff, decide_eq_true_iff]
  have weighed := State.weigh_of_best own cur idle top
  have on : (w.head best.1).state = .on := (same best.1).state.symm.trans isKept.2.2
  obtain ⟨-, ne, -⟩ := top.1
  obtain ⟨x, acc⟩ : ∃ x, (w.head best.1).account = some x := State.reported_account sound rssi cands ne isKept.2.2
  have cap : (w.head best.1).cap = (s.head best.1).cap := (congrArg Head.cap (same best.1)).symm
  have admitted : w.admitsStation r best = true ↔ fits := by
    refine State.admitsHold_iff.trans (and_congr_right' ?_)
    simp only [a, acc, cap, Option.some.injEq, exists_eq_left', forall_eq']
    rfl
  -- The station's record apart, what a weighing leaves alone is as the report left it.
  have ends : ∀ (u : State) (y : Station), w.weigh i = u → u.aside = w.aside → u.held = w.held →
      (∀ j, u.station j = if j = i then some y else w.station j) →
      exec (.stationReport h st.addr rssi cands) s = .next u.flush ∧ (∀ j, j ≠ i → u.flush.station j = s.station j)
        ∧ u.flush.passView = s.passView ∧ s.InBowl u.flush w.held ∧ u.flush.station i = some y := by
    intro u y shape aside held at_
    have produced := State.Produced.held hears.2.2.2 work.produced
    refine ⟨by rw [executed, shape]; rfl, fun j ne => ?_, u.flush_passView.trans (State.passView_of_aside (aside.trans work.aside)), ?_, ?_⟩
    · rw [State.flush_station, at_, if_neg ne, station, if_neg ne]
    · exact .of_flush hears.2.2.2 (State.besideBowl_of_aside (aside.trans work.aside))
        (State.discards_of_aside (aside.trans work.aside)) (by rw [State.Produced, held]; exact produced)
    · rw [State.flush_station, at_, if_pos rfl]
  by_cases try_ : tried
  · rw [if_pos (triedIff.2 try_), State.tryCandidate, ← (same h).state] at weighed
    by_cases fit : fits
    · obtain ⟨-, le⟩ := id fit
      rw [if_pos (admitted.2 fit), State.startHandover_eq wwf own h _ acc on (by rw [cap]; exact le x acc)] at weighed
      set o : RoamOrigin := if (s.head h).state = .draining then .drain else .report
      obtain ⟨executed, others, passView, told, self⟩ := ends _ { r with state := .moving, target := some best.1 } weighed rfl rfl
        (w.station_setStation i · _)
      have kept := w.withHandover_headsKept i r (w.newHold i r h best.1 best.2 o) x
      refine ⟨_, executed, others, passView, told, fun n => absurd try_ n, fun _ n => absurd fit n, fun _ _ => ⟨self, ?_, fun g => ?_, ?_, ?_⟩⟩
      · rw [State.flush_holds]
        show w.holds ++ [w.newHold i r h best.1 best.2 o] = _
        rw [holds, State.newHold, now]
      · rw [State.flush_head]
        exact kept g
      · rw [State.flush_linkOut]
        show w.linkOut ++ _ = _
        rw [work.linkOut]
        rfl
      · intro b acc'
        cases acc.symm.trans acc'
        have head := w.withHandover_head_self i r (w.newHold i r h best.1 best.2 o) x
        rw [State.flush_head]
        exact congrArg (fun y : Head => y.account.map Account.committed) head
    · rw [if_neg fun b => fit (admitted.1 b), State.refuseRoam_eq wwf own, now] at weighed
      obtain ⟨executed, others, passView, told, self⟩ := ends _ _ weighed rfl rfl (w.station_setStation i · _)
      exact ⟨_, executed, others, passView, told, fun n => absurd try_ n,
        fun _ _ => ⟨self, (State.flush_holds _).trans holds, State.flush_heads _, (State.flush_linkOut _).trans work.linkOut⟩,
        fun _ y => absurd y fit⟩
  · rw [if_neg fun t => try_ (triedIff.1 t)] at weighed
    obtain ⟨executed, others, passView, told, self⟩ := ends w r weighed rfl rfl fun j => by
      split
      · next at_ => rw [at_, own]
      · rfl
    exact ⟨_, executed, others, passView, told,
      fun _ => ⟨self, w.flush_holds.trans holds, w.flush_heads, w.flush_linkOut.trans work.linkOut⟩,
      fun t => absurd t try_, fun t => absurd t try_⟩

end Sys2Proof.Machine

/-!
PROOF LAYER. One station's record written, its hold following, and its heads recomputed: what the work on a binding leaves of a station
(R51, R52, R97, R101).
-/
namespace Sys2Proof.Machine

/-! ## A reservation set toward a goal -/

/-- A record with its reservation set toward a goal; a station at no head keeps its own (R51, R52). -/
def State.setToward (s : State) (st : Station) (goal : Nat) : Station :=
  match st.current with
  | none => st
  | some h => s.towards h st goal

/-- The record keeps all but the reservation and the capped flag. -/
theorem State.setToward_eq (s : State) (st : Station) (goal : Nat) : s.setToward st goal =
    { st with res := (s.setToward st goal).res, capped := (s.setToward st goal).capped } := by
  unfold State.setToward State.towards
  repeat' split
  all_goals rfl

theorem State.setToward_of_head (s : State) {st : Station} {h : HeadId} (cur : st.current = some h) (goal : Nat) :
    s.setToward st goal = s.towards h st goal := by
  simp only [State.setToward, cur]

theorem State.setToward_spec (s : State) (st : Station) (goal : Nat) : s.SetToward st goal (s.setToward st goal) := by
  refine ⟨fun gone => by simp only [State.setToward, gone], fun h cur => ?_⟩
  rw [s.setToward_of_head cur, State.towards_eq]
  constructor
  · rintro (low | fits)
    · rw [if_pos low]
    · split <;> rfl
  · intro low poor
    rw [if_neg (Nat.not_le.2 low), if_neg (Nat.not_le.2 poor)]

section
variable {s u : State} {i : Nat} {st x y : Station}

/-- The goal is weighed against the station's head alone; the other fields of the record go along. -/
theorem State.setToward_congr (current : x.current = st.current) (res : x.res = st.res) (capped : x.capped = st.capped)
    (parties : ∀ g, u.parties g = s.parties g) (heads : u.heads = s.heads) (goal : Nat) :
    u.setToward x goal = { x with res := (s.setToward st goal).res, capped := (s.setToward st goal).capped } := by
  cases cur : st.current with
  | none =>
    have gone : u.setToward x goal = x := by simp only [State.setToward, current.trans cur]
    have stays : s.setToward st goal = st := by simp only [State.setToward, cur]
    rw [gone, stays, ← res, ← capped]
  | some h =>
    rw [u.setToward_of_head (current.trans cur), s.setToward_of_head cur, State.towards_eq, State.towards_eq, res, parties,
      State.head_congr heads]
    repeat' split
    all_goals rfl

/-! ## A record written -/

/-- A station's record stands as given, its hold with the record's channel set; no other station, hold, head or channel has changed. -/
structure State.RecordWritten (s u : State) (i : Nat) (x : Station) : Prop where
  station  : ∀ j, u.station j = if j = i then some x else s.station j
  holds    : u.holds = s.holds.map fun y => if y.station = i then { y with chans := x.chans } else y
  heads    : u.heads = s.heads
  channels : u.channels = s.channels

theorem State.RecordWritten.self (w : s.RecordWritten u i x) : u.station i = some x := (w.station i).trans (if_pos rfl)

theorem State.HoldFollows.holds (follows : s.HoldFollows i st) :
    s.holds.map (fun y => if y.station = i then { y with chans := st.chans } else y) = s.holds := by
  refine (List.map_congr_left fun y mem => ?_).trans (List.map_id s.holds)
  split
  · next own => rw [← follows y mem own]; rfl
  · rfl

/-- A record that keeps its channel set written over the one that stands. -/
theorem State.RecordWritten.of_record (follows : s.HoldFollows i st) (chans : x.chans = st.chans)
    (station : ∀ j, u.station j = if j = i then some x else s.station j) (holds : u.holds = s.holds) (heads : u.heads = s.heads)
    (channels : u.channels = s.channels) : s.RecordWritten u i x where
  station := station
  holds := by rw [chans, follows.holds, holds]
  heads := heads
  channels := channels

theorem State.RecordWritten.setStation (w : s.RecordWritten u i x) (chans : y.chans = x.chans) : s.RecordWritten (u.setStation i y) i y where
  station j := by
    rw [State.station_setStation]
    split
    · rfl
    · next ne => rw [w.station, if_neg ne]
  holds := by rw [chans]; exact w.holds
  heads := w.heads
  channels := w.channels

theorem State.RecordWritten.keepChans (w : s.RecordWritten u i x) (keep : ChanSet) :
    s.RecordWritten (u.keepChans i keep) i { x with chans := x.chans &&& keep } where
  station j := by
    rw [State.keepChans_station, w.station]
    split <;> rfl
  holds := by
    rw [State.keepChans_holds, w.holds, List.map_map]
    refine List.map_congr_left fun y _ => ?_
    by_cases own : y.station = i
    · simp only [Function.comp, if_pos own]
    · simp only [Function.comp, if_neg own]
  heads := w.heads
  channels := w.channels

/-- A written record's channel set kept to what it is permitted (R38). -/
theorem State.RecordWritten.trim (w : s.RecordWritten u i x) : s.RecordWritten (u.trim i) i { x with chans := x.chans &&& u.permitted x } := by
  have eq : u.trim i = u.keepChans i (u.permitted x) := by simp only [State.trim, w.self]
  rw [eq]
  exact w.keepChans _

/-- A written record's reservation set toward its tier value (R51, R52). -/
theorem State.RecordWritten.setReservation (w : s.RecordWritten u i x) : s.RecordWritten (u.setReservation i) i (u.setToward x (u.tierValue x)) := by
  cases cur : x.current with
  | none =>
    have gone : u.setToward x (u.tierValue x) = x := by simp only [State.setToward, cur]
    rw [gone, State.setReservation_of_no_head (by rw [State.headOf, w.self, Option.bind_some, cur])]
    exact w
  | some h =>
    rw [u.setToward_of_head cur, State.setReservation_of_head w.self cur]
    obtain ⟨-, -, chans, -⟩ := u.towards_kept h x (u.tierValue x)
    exact w.setStation chans

/-! ## Its heads recomputed -/

theorem State.AccountsTrueAt.of_sound (sound : s.Sound) (g : HeadId) : s.AccountsTrueAt g := fun a e => (sound.airtime g a e).1

theorem State.RecordWritten.headsKept {t : State} {touched : List HeadId} (w : s.RecordWritten u i x) (kept : u.HeadsKept t touched) :
    s.HeadsKept t touched := fun g => by
  rw [← State.head_congr w.heads g]
  exact kept g

/-- A record written and both its heads recomputed (R97, R101). -/
theorem State.RecordWritten.recomputeBoth (w : s.RecordWritten u i x) (clean : s.VenueClean) (current : x.current = st.current)
    (target : x.target = st.target) : s.StationBecomes (u.recomputeBoth i) i st x := by
  have touched : ∀ g, x.current = some g ∨ x.target = some g ↔ st.current = some g ∨ st.target = some g := fun g => by
    rw [current, target]
  have work := State.recomputeBoth_airtimeWork (s := u) w.self (touched := fun g => st.current = some g ∨ st.target = some g)
    fun g m => (touched g).1 m
  refine ⟨?_, fun j ne => ?_, ?_, w.headsKept (work.headsKept fun g m => ?_), fun g a m acc => ?_⟩
  · rw [State.station, State.recomputeBoth_stations]
    exact w.self
  · rw [State.station, State.recomputeBoth_stations]
    exact (w.station j).trans (if_neg ne)
  · rw [State.recomputeBoth_holds, w.holds]
  · simpa [Option.mem_toList] using m
  · exact (clean.congr w.channels w.heads).recomputeBoth w.self ((touched g).2 m) a acc

/-- A record written that no head's parties change by. -/
theorem State.RecordWritten.still (w : s.RecordWritten u i x) (true_ : ∀ g, s.AccountsTrueAt g) (parties : ∀ g, u.parties g = s.parties g) :
    s.StationBecomes u i st x := by
  refine ⟨w.self, fun j ne => (w.station j).trans (if_neg ne), w.holds, fun g => ⟨fun _ => ?_, fun _ => State.head_congr w.heads g⟩,
    fun g a _ acc => ?_⟩
  · rw [State.head_congr w.heads]
    rfl
  · rw [State.head_congr w.heads] at acc
    exact (true_ g a acc).congr w.channels (parties g) (by rw [State.head_congr w.heads])

/-- A record written that changes the parties of its own head alone, and that recomputed. -/
theorem State.RecordWritten.recomputeOf (w : s.RecordWritten u i x) (true_ : ∀ g, s.AccountsTrueAt g) (current : x.current = st.current)
    (parties : ∀ g, st.current ≠ some g → u.parties g = s.parties g) : s.StationBecomes (u.recomputeOf i) i st x := by
  have head : u.headOf i = st.current := by rw [State.headOf, w.self, Option.bind_some, current]
  have clean : s.VenueClean := fun g a e => (true_ g a e).noVenueShed
  unfold State.recomputeOf
  rw [head]
  cases cur : st.current with
  | none => exact w.still true_ fun g => parties g (by simp [cur])
  | some h =>
    have work := u.recompute_airtimeWork (h := h) (touched := (· = h)) rfl
    refine ⟨?_, fun j ne => ?_, ?_, w.headsKept (work.headsKept fun g m => ?_), fun g a _ acc => ?_⟩
    · rw [State.station, State.recompute_stations]
      exact w.self
    · rw [State.station, State.recompute_stations]
      exact (w.station j).trans (if_neg ne)
    · rw [State.recompute_holds, w.holds]
    · simp [m, cur]
    · have clean' : u.VenueClean := clean.congr w.channels w.heads
      by_cases at_ : g = h
      · subst at_
        exact clean'.recompute_self g a acc
      · have own : u.AccountsTrueAt g := fun b e => by
          rw [State.head_congr w.heads] at e
          exact (true_ g b e).congr w.channels (parties g fun c => at_ (Option.some.inj (c.symm.trans cur)))
            (by rw [State.head_congr w.heads])
        exact own.recompute clean' h a acc

end

/-! ## A reservation and its parties -/

section
variable {s : State} {i : Nat} {st : Station} (w : Table.wf s.stations) (e : s.station i = some st)
include w e

/-- A reservation set toward its tier value changes no other head's parties. -/
theorem State.parties_setReservation {g : HeadId} (away : st.current ≠ some g) : (s.setReservation i).parties g = s.parties g := by
  cases cur : st.current with
  | none => rw [State.setReservation_of_no_head (by rw [State.headOf, e, Option.bind_some, cur])]
  | some h =>
    rw [State.setReservation_of_head e cur]
    obtain ⟨current, -⟩ := s.towards_kept h st (s.tierValue st)
    refine State.parties_setStation_of_partyAt w ?_
    rw [e, Option.bind_some, Station.partyAt_of_ne away, Station.partyAt_of_ne (current ▸ away)]

/-- A reservation left as it was leaves every head's parties. -/
theorem State.parties_setReservation_same (same : (s.setToward st (s.tierValue st)).res = st.res) (g : HeadId) :
    (s.setReservation i).parties g = s.parties g := by
  cases cur : st.current with
  | none => exact State.parties_setReservation w e (by simp [cur])
  | some h =>
    rw [State.setReservation_of_head e cur]
    rw [s.setToward_of_head cur] at same
    obtain ⟨current, -, chans, rate⟩ := s.towards_kept h st (s.tierValue st)
    refine State.parties_setStation_of_partyAt w ?_
    rw [e, Option.bind_some]
    exact Station.partyAt_congr current same chans rate g

end

end Sys2Proof.Machine

/-!
PROOF LAYER. PASS-AMEND (R99–R101): the counts of an amended pass, its station brought into line, and the request as a whole.
-/
namespace Sys2Proof.Machine

/-! ## The counts of a pass that changes zone -/

theorem State.rezoneCounts_eq (s : State) (st : PassState) (old new : Option ZoneId) :
    s.rezoneCounts st old new = { s with zones := (s.rezoneCounts st old new).zones } := by
  unfold State.rezoneCounts
  split <;> rfl

/-- A pass counts in its new zone and no more in its old one (R100). -/
theorem State.rezoneCounts_zone {s : State} {st : PassState} {old : Option ZoneId} {k : ZoneId}
    (counted : countsAs (passInside st) k old ≤ (s.zone k).admitted ∧ countsAs (passSeated st) k old ≤ (s.zone k).seated)
    (new : Option ZoneId) : (s.rezoneCounts st old new).zone k = { s.zone k with
      admitted := (s.zone k).admitted - countsAs (passInside st) k old + countsAs (passInside st) k new
      seated := (s.zone k).seated - countsAs (passSeated st) k old + countsAs (passSeated st) k new } := by
  unfold State.rezoneCounts
  by_cases same : old = new
  · subst same
    rw [if_pos rfl, Nat.sub_add_cancel counted.1, Nat.sub_add_cancel counted.2]
  · rw [if_neg same, State.zone_censusMove, State.zone_censusMove]
    by_cases out : old = some k
    · have stay : new ≠ some k := fun e => same (out.trans e.symm)
      rw [if_neg stay, if_pos out, Zone.moved_out, out, countsAs_self, countsAs_self, countsAs_other _ stay, countsAs_other _ stay]
      rfl
    · rw [if_neg out, countsAs_other _ out, countsAs_other _ out]
      by_cases enters : new = some k
      · rw [if_pos enters, Zone.moved_in, enters, countsAs_self, countsAs_self]
        rfl
      · rw [if_neg enters, countsAs_other _ enters, countsAs_other _ enters]
        rfl

/-- A pass is among those its zone counts (R118). -/
theorem State.CensusTrue.countsAs_le {s : State} (c : s.CensusTrue) {p : Nat} {q : Pass} (held : s.pass p = some q) (k : ZoneId) :
    countsAs (passInside q.state) k q.cached ≤ (s.zone k).admitted ∧ countsAs (passSeated q.state) k q.cached ≤ (s.zone k).seated := by
  have small := c.counted held k
  by_cases own : q.cached = some k
  · simpa only [Pass.countsIn, own, beq_self_eq_true, Bool.true_and, countsAs_self] using small
  · simp only [countsAs_other _ own, Nat.zero_le, and_self]

/-! ## The station's work -/

section
variable {s v : State} {i : Nat} {st : Station}

theorem State.recomputeBoth_anyWork (s : State) (i : Nat) : s.AirtimeWork (s.recomputeBoth i) fun _ => True :=
  ((State.AirtimeWork.refl s).recomputeOf fun _ _ => trivial).recomputeTarget fun _ _ => trivial

theorem State.bringIntoLine_airtimeWork (v : State) (i : Nat) : v.AirtimeWork (v.bringIntoLine i) fun _ => True := by
  have reserved : v.AirtimeWork (v.setReservation i) fun _ => True := v.setReservation_airtimeWork i
  unfold State.bringIntoLine
  dsimp only
  split
  · exact (reserved.trans (State.trim_airtimeWork _ i)).trans (State.recomputeBoth_anyWork _ i)
  · exact reserved.recomputeOf fun _ _ => trivial

variable (w : s.RecordWritten v i st) (wf : Table.wf v.stations) (true_ : ∀ g, s.AccountsTrueAt g)
  (parties : ∀ g, v.parties g = s.parties g)
include w wf true_ parties

/-- A reservation settled at its tier value, its head recomputed where it has changed (R51, R52). -/
theorem State.settle_becomes : s.StationBecomes (v.settle i) i st (v.setToward st (v.tierValue st))
    ∧ ((v.setToward st (v.tierValue st)).res = st.res → (v.settle i).heads = s.heads) := by
  have reserved := w.setReservation
  have kept := v.setToward_eq st (v.tierValue st)
  have moved : (((v.setReservation i).station i).map Station.res = (v.station i).map Station.res)
      ↔ (v.setToward st (v.tierValue st)).res = st.res := by
    rw [reserved.self, w.self, Option.map_some, Option.map_some, Option.some.injEq]
  unfold State.settle
  dsimp only
  split
  · next same =>
    have same := moved.1 same
    exact ⟨reserved.still true_ fun g => (State.parties_setReservation_same wf w.self same g).trans (parties g),
      fun _ => reserved.heads⟩
  · next changed =>
    refine ⟨reserved.recomputeOf true_ (by rw [kept]) fun g away => ?_, fun same => absurd (moved.2 same) changed⟩
    exact (State.parties_setReservation wf w.self away).trans (parties g)

/-- A station brought into line: its reservation at its tier value, its channel set what it is permitted, its heads recomputed
(R101). -/
theorem State.bringIntoLine_becomes : s.StationBecomes (v.bringIntoLine i) i st
    { v.setToward st (v.tierValue st) with chans := st.chans &&& v.permitted st } := by
  have reserved := w.setReservation
  have kept := v.setToward_eq st (v.tierValue st)
  have pass : (v.setToward st (v.tierValue st)).pass = st.pass := by rw [kept]
  have chans : (v.setToward st (v.tierValue st)).chans = st.chans := by rw [kept]
  have current : (v.setToward st (v.tierValue st)).current = st.current := by rw [kept]
  have target : (v.setToward st (v.tierValue st)).target = st.target := by rw [kept]
  have aside := (v.setReservation_airtimeWork (touched := fun _ => True) i).aside
  have permitted : (v.setReservation i).permitted (v.setToward st (v.tierValue st)) = v.permitted st :=
    State.permitted_of_mapView (State.mapView_of_aside aside) pass
  unfold State.bringIntoLine
  dsimp only
  split
  · have clean : s.VenueClean := fun g a e => (true_ g a e).noVenueShed
    have trimmed := reserved.trim
    rw [permitted, chans] at trimmed
    exact trimmed.recomputeBoth clean current target
  · next fits =>
    have within := State.chansFit_of_not_overSubscribed (Bool.eq_false_of_not_eq_true fits) _ reserved.self
    rw [permitted, chans] at within
    have same : { v.setToward st (v.tierValue st) with chans := st.chans &&& v.permitted st }
        = v.setToward st (v.tierValue st) := by rw [chans_and_eq_self within, ← chans]
    rw [same]
    exact reserved.recomputeOf true_ current fun g away => (State.parties_setReservation wf w.self away).trans (parties g)

end

/-! ## The amend -/

/-- An amended pass record (R100). -/
def Pass.amended (q : Pass) (tier : Tier) (seat : Option (BitVec 16)) (declared cached : Option ZoneId) : Pass :=
  { q with tier := tier, seat := seat, declared := declared, cached := cached }

/-- The state with a pass amended and its counts moved, its station yet to be brought into line (R100). -/
def State.amendPass (s : State) (p : Nat) (q : Pass) (tier : Tier) (seat : Option (BitVec 16)) (declared : Option ZoneId) : State :=
  (s.setPass p (q.amended tier seat declared (s.cachedZone seat declared))).rezoneCounts q.state q.cached (s.cachedZone seat declared)

section
variable {s : State} {p : Nat} {q : Pass} (tier : Tier) (seat : Option (BitVec 16)) (declared : Option ZoneId)

theorem State.amend_eq : s.amend p q tier seat declared = match q.state, q.station with
    | .seated, some i => if q.tier = tier ∧ q.cached = s.cachedZone seat declared then
        (s.amendPass p q tier seat declared).settle i else (s.amendPass p q tier seat declared).bringIntoLine i
    | _, _ => s.amendPass p q tier seat declared := rfl

theorem State.amend_of_unbound (none_ : q.station = none) : s.amend p q tier seat declared = s.amendPass p q tier seat declared := by
  rw [State.amend_eq]
  generalize s.amendPass p q tier seat declared = t
  split
  · next own => cases none_.symm.trans own
  · rfl

theorem State.amend_of_bound {i : Nat} (seated : q.state = .seated) (own : q.station = some i) :
    s.amend p q tier seat declared = if q.tier = tier ∧ q.cached = s.cachedZone seat declared then
      (s.amendPass p q tier seat declared).settle i else (s.amendPass p q tier seat declared).bringIntoLine i := by
  rw [State.amend_eq]
  generalize s.amendPass p q tier seat declared = t
  simp only [seated, own]

theorem State.amendPass_eq : s.amendPass p q tier seat declared = { s with
    passes := Table.put s.passes p (q.amended tier seat declared (s.cachedZone seat declared))
    zones := (s.amendPass p q tier seat declared).zones } := State.rezoneCounts_eq _ _ _ _

/-- The amend's work on the station leaves the pass side alone. -/
theorem State.amend_airtimeWork (bound : q.station.isSome ↔ q.state = .seated) :
    (s.amendPass p q tier seat declared).AirtimeWork (s.amend p q tier seat declared) fun _ => True := by
  cases own : q.station with
  | none =>
    rw [State.amend_of_unbound tier seat declared own]
    exact .refl _
  | some i =>
    rw [State.amend_of_bound tier seat declared (bound.1 (by rw [own]; rfl)) own]
    split
    · exact State.settle_airtimeWork _ fun _ _ => trivial
    · exact State.bringIntoLine_airtimeWork _ i

theorem State.amendPass_pass (k : Nat) : (s.amendPass p q tier seat declared).pass k =
    if k = p then some (q.amended tier seat declared (s.cachedZone seat declared)) else s.pass k := by
  rw [State.pass, State.amendPass_eq]
  exact Table.get_put _ _ _ _

theorem State.amendPass_zone (census : s.CensusTrue) (held : s.pass p = some q) (k : ZoneId) :
    (s.amendPass p q tier seat declared).zone k = { s.zone k with
      admitted := (s.zone k).admitted - countsAs (passInside q.state) k q.cached
        + countsAs (passInside q.state) k (s.cachedZone seat declared)
      seated := (s.zone k).seated - countsAs (passSeated q.state) k q.cached
        + countsAs (passSeated q.state) k (s.cachedZone seat declared) } :=
  State.rezoneCounts_zone (s := s.setPass p _) (census.countsAs_le held k) _

/-- What the bound station is worth and is permitted once its pass is amended (R35, R49). -/
theorem State.amendPass_station {st : Station} (bound : st.pass = some p) :
    (s.amendPass p q tier seat declared).tierValue st = s.tiers[tier].reservation
      ∧ (s.amendPass p q tier seat declared).permitted st = s.roam.pub ||| match s.cachedZone seat declared with
        | none => 0
        | some k => s.zoneChans k &&& s.tiers[tier].chans := by
  have own : (s.amendPass p q tier seat declared).pass p = some (q.amended tier seat declared (s.cachedZone seat declared)) := by
    rw [State.amendPass_pass tier seat declared, if_pos rfl]
  have m : s.MapBut (s.amendPass p q tier seat declared) p := .rezoned p _ _ _ _
  constructor
  · simp only [State.tierValue, bound, own, m.tiers]
    rfl
  · rw [State.permitted_of_bound bound own, m.pub, State.bonus_congr m.zones m.tiers rfl rfl]
    rfl

/-- An amended pass's station, at its tier value or brought into line with what its pass permits (R101, log 36). -/
theorem State.amend_station (sound : s.Sound) (held : s.pass p = some q) {i : Nat} {st : Station} (own : q.station = some i)
    (e : s.station i = some st) :
    (q.tier = tier ∧ q.cached = s.cachedZone seat declared →
      s.StationBecomes (s.amend p q tier seat declared) i st (s.setToward st s.tiers[tier].reservation)
        ∧ ((s.setToward st s.tiers[tier].reservation).res = st.res → (s.amend p q tier seat declared).heads = s.heads))
    ∧ (¬ (q.tier = tier ∧ q.cached = s.cachedZone seat declared) →
      s.StationBecomes (s.amend p q tier seat declared) i st { s.setToward st s.tiers[tier].reservation with
        chans := st.chans &&& (s.roam.pub ||| match s.cachedZone seat declared with
          | none => 0
          | some k => s.zoneChans k &&& s.tiers[tier].chans) }) := by
  obtain ⟨forth, -, seated⟩ := sound.binding
  have bound : st.pass = some p := by
    obtain ⟨st', at_, b⟩ := forth p q i held own
    cases e.symm.trans at_
    exact b
  have eq := State.amendPass_eq (s := s) (p := p) (q := q) tier seat declared
  have written : s.RecordWritten (s.amendPass p q tier seat declared) i st := by
    rw [eq]
    refine .of_record (sound.holdFollows e) rfl (fun j => ?_) rfl rfl rfl
    split
    · next at_ => rw [at_]; exact e
    · rfl
  have wf : Table.wf (s.amendPass p q tier seat declared).stations := by rw [eq]; exact sound.store.1.1
  have parties : ∀ g, (s.amendPass p q tier seat declared).parties g = s.parties g := fun g => by rw [eq]; rfl
  have heads : (s.amendPass p q tier seat declared).heads = s.heads := by rw [eq]
  obtain ⟨value, permitted⟩ := State.amendPass_station (s := s) (p := p) (q := q) tier seat declared bound
  have toward : (s.amendPass p q tier seat declared).setToward st s.tiers[tier].reservation
      = s.setToward st s.tiers[tier].reservation :=
    (State.setToward_congr rfl rfl rfl parties heads _).trans (s.setToward_eq st _).symm
  have settled := State.settle_becomes written wf (State.AccountsTrueAt.of_sound sound) parties
  have lined := State.bringIntoLine_becomes written wf (State.AccountsTrueAt.of_sound sound) parties
  rw [value, toward] at settled lined
  rw [permitted] at lined
  rw [State.amend_of_bound tier seat declared ((seated p q held).1 (by rw [own]; rfl)) own]
  exact ⟨fun same => by rw [if_pos same]; exact settled, fun changed => by rw [if_neg changed]; exact lined⟩

end

/-! ## The request -/

/-- A tier that a PASS-AMEND gives in its range, or leaves (R99). -/
theorem tierChange?_of_small {tier : Option Nat} (small : ∀ k, tier = some k → k < 4) (old : Tier) :
    ∃ t, tierChange? tier = some t ∧ (t.getD old).val = tier.getD old.val := by
  cases tier with
  | none => exact ⟨none, rfl, rfl⟩
  | some k => exact ⟨some ⟨k, small k rfl⟩, by simp [tierChange?, tier?, small k rfl], rfl⟩

/-- A declared zone that a PASS-AMEND gives in its range, takes away, or leaves (R99). -/
theorem zoneChange?_of_small {declared : Change Nat} (small : ∀ z, declared = .give z → z < 32) (old : Option ZoneId) :
    ∃ z, zoneChange? declared = some z ∧ (Change.on z old).map Fin.val = Change.on declared (old.map Fin.val) := by
  cases declared with
  | keep => exact ⟨.keep, rfl, rfl⟩
  | absent => exact ⟨.absent, rfl, rfl⟩
  | give z => exact ⟨.give ⟨z, small z rfl⟩, by simp [zoneChange?, zoneId?, small z rfl], rfl⟩

theorem tierChange?_of_big {k : Nat} (big : 4 ≤ k) : tierChange? (some k) = none := by
  simp [tierChange?, tier?, Nat.not_lt.2 big]

theorem zoneChange?_of_big {z : Nat} (big : 32 ≤ z) : zoneChange? (.give z) = none := by
  simp [zoneChange?, zoneId?_eq_none big]

/-- What PASS-AMEND does once its request is taken (R99). -/
def amendWork (number : PassNumber) (tier : Option Nat) (seat : Change (BitVec 16)) (declared : Change Nat) (s : State) : Served :=
  match tierChange? tier, zoneChange? declared with
  | some t, some z =>
    match s.lookupPass number with
    | none => .refuse s .unknown
    | some p =>
      match s.pass p with
      | none => .refuse s .unknown
      | some q =>
        if q.state = .void then .refuse s .void
        else ⟨s.amend p q (t.getD q.tier) (Change.on seat q.seat) (Change.on z q.declared), .ok, .none⟩
  | _, _ => .refuse s .range

/-- A reply and its notices leave the records alone. -/
theorem State.flush_reply_records (s : State) (type tag : Byte) (code : Code) (content : Content) :
    (s.reply type tag code content).flush.stations = s.stations ∧ (s.reply type tag code content).flush.holds = s.holds
      ∧ (s.reply type tag code content).flush.heads = s.heads ∧ (s.reply type tag code content).flush.channels = s.channels
      ∧ (s.reply type tag code content).flush.passes = s.passes ∧ (s.reply type tag code content).flush.zones = s.zones :=
  ⟨State.flush_stations _, State.flush_holds _, State.flush_heads _, State.flush_channels _, State.flush_passes _,
    State.flush_zones _⟩

/-- Settles O43: the pass and its counts are written, and the station's record written and its heads recomputed. -/
theorem passAmendBringsTheStationIntoLine : Obligations.PassAmendBringsTheStationIntoLine := by
  intro s u f n tier seat declared sound taken answer
  have usound := sound.takeRequest taken.1
  have refused : ∀ {c : Code}, amendWork n tier seat declared u = .refuse u c → answer c := fun e =>
    congrArg Host.Outcome.next (taken.refused (work := amendWork n tier seat declared) e)
  refine ⟨fun bad => refused ?_, fun smallTier smallZone => ?_⟩
  · unfold amendWork
    split
    · next t z et ez =>
      rcases bad with ⟨k, rfl, big⟩ | ⟨k, rfl, big⟩
      · cases (tierChange?_of_big big).symm.trans et
      · cases (zoneChange?_of_big big).symm.trans ez
    · rfl
  refine ⟨fun unknown => refused ?_, fun p q found held => ?_⟩
  · obtain ⟨t, et, -⟩ := tierChange?_of_small smallTier 0
    obtain ⟨z, ez, -⟩ := zoneChange?_of_small smallZone none
    simp only [amendWork, et, ez, unknown]
  obtain ⟨t, et, tierVal⟩ := tierChange?_of_small smallTier q.tier
  obtain ⟨z, ez, zoneVal⟩ := zoneChange?_of_small smallZone q.declared
  refine ⟨fun void => refused ?_, fun alive => ?_⟩
  · simp only [amendWork, et, ez, found, held, void, if_true]
  have work : amendWork n tier seat declared u
      = ⟨u.amend p q (t.getD q.tier) (Change.on seat q.seat) (Change.on z q.declared), .ok, .none⟩ := by
    simp only [amendWork, et, ez, found, held, alive, if_false]
  have executed : exec (.passAmend f n tier seat declared) s = .next
      ((u.amend p q (t.getD q.tier) (Change.on seat q.seat) (Change.on z q.declared)).reply 0x0F f.tag .ok .none).flush := by
    refine congrArg Host.Outcome.next ((State.serve_of_taken (work := amendWork n tier seat declared) taken.1 taken.2.1).trans ?_)
    rw [work]
  generalize t.getD q.tier = tier' at *
  generalize Change.on z q.declared = declared' at *
  generalize Change.on seat q.seat = seat' at *
  have after := State.amend_airtimeWork (s := u) (p := p) (q := q) tier' seat' declared' (usound.binding.2.2 p q held)
  have station := fun {i st} => State.amend_station (s := u) (p := p) (q := q) (i := i) (st := st) tier' seat' declared' usound held
  have unbound := State.amend_of_unbound (s := u) (p := p) (q := q) tier' seat' declared'
  have eq := State.amendPass_eq (s := u) (p := p) (q := q) tier' seat' declared'
  obtain ⟨ns, produced, airtime⟩ := after.told
  set v := u.amendPass p q tier' seat' declared' with hv
  set w := u.amend p q tier' seat' declared'
  have pass : ∀ k, w.pass k = v.pass k := fun k => by rw [State.pass, State.passes_of_aside after.aside]; rfl
  have zone : ∀ k, w.zone k = v.zone k := fun k => by
    have zones : w.zones = v.zones := congrArg (fun x => x.2.1) (State.passView_of_aside after.aside)
    rw [State.zone, zones]
    rfl
  have quiet : u.held = [] := taken.held
  have told : u.Produced w ns := State.Produced.trans (.nil (by rw [eq])) produced (by rw [eq])
  have linkOut : w.linkOut = u.linkOut := after.linkOut.trans (by rw [eq])
  have discards : w.discards = u.discards := (State.discards_of_aside after.aside).trans (by rw [eq])
  have ends := State.InBowl.of_reply (type := 0x0F) (tag := f.tag) (code := .ok) (content := .none) quiet
    (u.amend_besideBowl p q tier' seat' declared') discards told
  have counts := State.amendPass_zone (q := q) tier' seat' declared' usound.zoneLaw.census held
  obtain ⟨f_stations, f_holds, f_heads, f_channels, f_passes, f_zones⟩ := w.flush_reply_records 0x0F f.tag .ok .none
  have passEnd : ∀ k, (w.reply 0x0F f.tag .ok .none).flush.pass k = v.pass k := fun k => by
    rw [State.pass, f_passes]
    exact pass k
  have becomes : ∀ {i st x}, u.StationBecomes w i st x → u.StationBecomes (w.reply 0x0F f.tag .ok .none).flush i st x := fun b =>
    b.congr rfl rfl rfl f_stations f_holds f_heads f_channels
  have toward := fun st => u.setToward_spec st u.tiers[tier'].reservation
  refine ⟨_, ns, executed, tier', declared', tierVal, zoneVal, ?_⟩
  obtain ⟨rest, rfl⟩ := taken.eq
  refine ⟨?_, fun k ne => ?_, fun k => ?_, fun none_ => ?_, fun i st own e same zoned => ?_, fun i st own e changed => ?_, ?_, airtime, ends⟩
  · rw [passEnd, State.amendPass_pass, if_pos rfl]
    rfl
  · rw [passEnd, State.amendPass_pass, if_neg ne]
    rfl
  · rw [State.zone, f_zones]
    exact (zone k).trans (counts k)
  · rw [f_stations, f_holds, f_heads]
    have same : w = v := unbound none_
    show w.stations = _ ∧ w.holds = _ ∧ w.heads = _
    rw [same, eq]
    exact ⟨rfl, rfl, rfl⟩
  · obtain ⟨b, still⟩ := (station own e).1 ⟨same, zoned⟩
    exact ⟨_, toward st, becomes b, fun res => f_heads.trans (still res)⟩
  · exact ⟨_, toward st, becomes ((station own e).2 changed)⟩
  · rw [State.flush_linkOut]
    exact linkOut

end Sys2Proof.Machine

/-!
PROOF LAYER. The undoing of a binding (R96, R97): its pass side, its station side, and PASS-VOID, PASS-DROP and UNBIND-REQ.
-/
namespace Sys2Proof.Machine

/-! ## The pass side -/

/-- A count that a pass can only leave (R88). -/
theorem moveCount_leave {before after : Bool} (left : after = true → before = true) (n : Nat) :
    moveCount before after n = if before = true ∧ (!after) = true then n - 1 else n := by
  cases before with
  | true => cases after <;> rfl
  | false =>
    have out : after = false := Bool.eq_false_of_not_eq_true fun in_ => Bool.false_ne_true (left in_)
    subst out
    rfl

theorem passSeated_eq_true {st : PassState} : passSeated st = true ↔ st = .seated := by
  cases st <;> simp [passSeated]

section
variable {s : State} {p : Nat} {q : Pass} (held : s.pass p = some q) (a : PassState)

theorem State.unbindPass_zones (k : ZoneId) (held : s.pass p = some q) :
    (s.unbindPass p a).zone k = (s.censusMove q.cached (some q.state) (some a)).zone k := by
  have zones : (s.unbindPass p a).zones = (s.censusMove q.cached (some q.state) (some a)).zones := by
    unfold State.unbindPass
    rw [held]
    dsimp only
    split <;> rfl
  simp only [State.zone, zones]

include held

/-- A pass unbound leaves the counts it no longer counts in (R88, R96). -/
theorem State.unbindPass_counts (left : passInside a = true → passInside q.state = true) (free : passSeated a = false) :
    s.CountsMoved (s.unbindPass p a) q.cached
      (fun n => if passInside q.state = true ∧ (!passInside a) = true then n - 1 else n)
      (fun n => if q.state = .seated then n - 1 else n) := by
  intro k
  rw [State.unbindPass_zones a k held, State.zone_censusMove]
  split
  · have seated := fun n => moveCount_leave (before := passSeated q.state) (after := passSeated a) (by simp [free]) n
    have inside := moveCount_leave left
    simp only [free, passSeated_eq_true, Bool.not_false, and_true] at seated
    simp only [Zone.moved, Option.map_some, Option.getD_some, free, seated, inside]
  · rfl

theorem State.unbindPass_frame : (s.unbindPass p a).holds = s.holds ∧ (s.unbindPass p a).heads = s.heads
    ∧ (s.unbindPass p a).channels = s.channels ∧ (s.unbindPass p a).linkOut = s.linkOut ∧ (s.unbindPass p a).held = s.held
    ∧ (s.unbindPass p a).enables = s.enables ∧ (s.unbindPass p a).discards = s.discards := by
  unfold State.unbindPass
  rw [held]
  dsimp only
  split <;> exact ⟨rfl, rfl, rfl, rfl, rfl, rfl, rfl⟩

theorem State.unbindPass_stations_of_unbound (none_ : q.station = none) : (s.unbindPass p a).stations = s.stations := by
  unfold State.unbindPass
  rw [held]
  dsimp only
  rw [none_]
  rfl

/-- The bound station's record has lost its pass, and nothing else of any station has changed. -/
theorem State.unbindPass_written {i : Nat} {st : Station} (follows : s.HoldFollows i st) (own : q.station = some i)
    (e : s.station i = some st) : s.RecordWritten (s.unbindPass p a) i { st with pass := none } := by
  obtain ⟨holds, heads, channels, -⟩ := State.unbindPass_frame held a
  refine .of_record follows rfl (fun j => ?_) holds heads channels
  rw [State.unbindPass_station held, own]
  by_cases at_ : j = i
  · rw [at_, if_pos rfl, if_pos rfl, e]
    rfl
  · rw [if_neg at_, if_neg fun same => at_ (Option.some.inj same).symm]

end

/-! ## The station side -/

/-- An unbound station's record, its reservation as given (R97). -/
def Station.unboundFrom (y st : Station) (pub : ChanSet) : Station :=
  { y with pass := none, state := if st.state = .seated then .assoc else st.state, chans := st.chans &&& pub }

theorem State.unbindStation_airtimeWork (v : State) (i : Nat) : v.AirtimeWork (v.unbindStation i) fun _ => True := by
  rw [State.unbindStation_eq]
  have unseated : v.AirtimeWork (v.updateStation i Station.unseated) fun _ => True := .records rfl rfl rfl rfl
  exact ((unseated.trans (State.setReservation_airtimeWork _ i)).trans (State.trim_airtimeWork _ i)).trans
    (State.recomputeBoth_anyWork _ i)

/-- A station whose pass is gone is left as an unbound one: no SEATED state, its reservation set toward the unbound one, its channel set
kept to the public one, its heads recomputed (R97). -/
theorem State.unbindStation_becomes {s v : State} {i : Nat} {st : Station} (w : s.RecordWritten v i { st with pass := none })
    (wf : Table.wf v.stations) (clean : s.VenueClean) (parties : ∀ g, v.parties g = s.parties g) (unbound : v.unbound = s.unbound)
    (pub : v.roam.pub = s.roam.pub) :
    s.StationBecomes (v.unbindStation i) i st ((s.setToward st s.unbound).unboundFrom st s.roam.pub) := by
  have unseated : s.RecordWritten (v.updateStation i Station.unseated) i (Station.unseated { st with pass := none }) := by
    rw [State.updateStation_eq_setStation wf w.self]
    exact w.setStation rfl
  have parties' : ∀ g, (v.updateStation i Station.unseated).parties g = s.parties g := fun g =>
    ((v.updateStation_still (f := Station.unseated) fun _ _ => rfl) g).parties.trans (parties g)
  have reserved := unseated.setReservation
  have value : (v.updateStation i Station.unseated).tierValue (Station.unseated { st with pass := none }) = s.unbound := unbound
  have toward := State.setToward_congr (s := s) (st := st) (x := Station.unseated { st with pass := none }) rfl rfl rfl parties'
    unseated.heads s.unbound
  have kept := s.setToward_eq st s.unbound
  rw [value, toward] at reserved
  have aside := ((v.updateStation i Station.unseated).setReservation_airtimeWork (touched := fun _ => True) i).aside
  have permitted : ((v.updateStation i Station.unseated).setReservation i).permitted
      { Station.unseated { st with pass := none } with
        res := (s.setToward st s.unbound).res, capped := (s.setToward st s.unbound).capped } = s.roam.pub :=
    (State.permitted_of_unbound rfl).trans ((congrArg RoamSettings.pub (State.roam_of_aside aside)).trans pub)
  have trimmed := reserved.trim
  rw [permitted] at trimmed
  have done_ := trimmed.recomputeBoth (st := st) clean rfl rfl
  rw [State.unbindStation_eq, Station.unboundFrom, kept]
  exact done_

/-! ## The whole -/

section
variable {s : State} {p : Nat} {q : Pass} (held : s.pass p = some q) (a : PassState)

/-- After the pass side an unbinding works on the station's account alone. -/
theorem State.unbind_airtimeWork (s : State) {p : Nat} (a : PassState) : (s.unbindPass p a).AirtimeWork (s.unbind p a) fun _ => True := by
  unfold State.unbind
  split
  · exact .refl _
  · exact State.unbindStation_airtimeWork _ _

include held

/-- The pass side of a whole unbinding (R88, R96). -/
theorem State.unbind_passLeaves (left : passInside a = true → passInside q.state = true) (free : passSeated a = false) :
    s.PassLeaves (s.unbind p a) p q (some { q with state := a, station := none }) := by
  have aside := (s.unbind_airtimeWork (p := p) a).aside
  have pass : ∀ k, (s.unbind p a).pass k = (s.unbindPass p a).pass k := fun k => by
    rw [State.pass, State.passes_of_aside aside]
    rfl
  refine ⟨?_, fun k ne => ?_, fun k => ?_⟩
  · rw [pass, State.unbindPass_pass held, if_pos rfl]
  · rw [pass, State.unbindPass_pass held, if_neg ne]
  · have zones : (s.unbind p a).zones = (s.unbindPass p a).zones := congrArg (fun x => x.2.1) (State.passView_of_aside aside)
    have zone : (s.unbind p a).zone k = (s.unbindPass p a).zone k := by
      rw [State.zone, zones]
      rfl
    exact zone.trans (State.unbindPass_counts held a left free k)

/-- The station side of a whole unbinding (R97, log 18). -/
theorem State.unbind_stationUnbound (sound : s.Sound) : s.StationUnbound (s.unbind p a) q := by
  obtain ⟨holds, heads, -⟩ := State.unbindPass_frame held a
  refine ⟨fun none_ => ?_, fun i st own e => ?_⟩
  · have same : s.unbind p a = s.unbindPass p a := by
      simp only [State.unbind, held, Option.bind_some, none_]
    rw [same]
    exact ⟨State.unbindPass_stations_of_unbound held a none_, holds, heads⟩
  · have shape : s.unbind p a = (s.unbindPass p a).unbindStation i := by
      simp only [State.unbind, held, Option.bind_some, own]
    have map := s.mapView_unbindPass p a
    rw [shape]
    exact ⟨_, s.setToward_spec st s.unbound, State.unbindStation_becomes
      (State.unbindPass_written held a (sound.holdFollows e) own e) (s.unbindPass_wf sound.store.1.1 p a) sound.venueClean
      (fun g => (s.unbindPass_still p a g).parties) (State.unbound_of_mapView map) (State.pub_of_mapView map)⟩

theorem State.unbind_told : (s.unbind p a).linkOut = s.linkOut ∧ (s.unbind p a).discards = s.discards
    ∧ ∃ ns, s.Produced (s.unbind p a) ns ∧ ∀ n ∈ ns, noticeClass n = .airtime := by
  obtain ⟨-, -, -, linkOut, quiet, enables, discards⟩ := State.unbindPass_frame held a
  have work := s.unbind_airtimeWork (p := p) a
  obtain ⟨ns, produced, airtime⟩ := work.told
  exact ⟨work.linkOut.trans linkOut, (State.discards_of_aside work.aside).trans discards, ns,
    State.Produced.trans (.nil quiet) produced enables, airtime⟩

end

/-! ## A pass already VOID -/

theorem Table.put_same {α : Type} {t : Table α} (w : Table.wf t) {i : Nat} {x : α} (e : Table.get t i = some x) :
    Table.put t i x = t := by
  have same : Table.update t i id = t := by simp [Table.update]
  rwa [Table.update_eq_put w e] at same

/-- A count moved from one state of a pass to the same is not moved. -/
theorem State.censusMove_self (s : State) (z : Option ZoneId) (st : PassState) : s.censusMove z (some st) (some st) = s := by
  have still : ∀ k, Zone.moved (some st) (some st) (s.zone k) = s.zone k := fun k => by
    simp only [Zone.moved, moveCount, if_true]
  unfold State.censusMove State.count
  cases z with
  | none => rfl
  | some k =>
    simp only [still]
    have same : s.zones.set k (s.zone k) = s.zones := Vector.set_getElem_self _
    rw [same]

/-- The unbinding of a pass already VOID changes nothing (R102). -/
theorem State.unbind_void {s : State} (sound : s.Sound) {p : Nat} {q : Pass} (held : s.pass p = some q) (void : q.state = .void) :
    s.unbind p .void = s := by
  obtain ⟨-, -, seated⟩ := sound.binding
  have free : q.station = none := by
    refine Option.not_isSome_iff_eq_none.1 fun bound => ?_
    cases void.symm.trans ((seated p q held).1 bound)
  have record : { q with station := none, state := .void } = q := by rw [← free, ← void]
  have same : s.setPass p q = s := by
    rw [State.setPass, Table.put_same (State.passesInv_iff.1 sound.store.2.1).1 held]
  have shape : s.unbind p .void = (s.setPass p q).censusMove q.cached (some q.state) (some .void) := by
    simp only [State.unbind, State.unbindPass, held, Option.bind_some, free, record]
  rw [shape, void, State.censusMove_self, same]

/-! ## The requests -/

section
variable {s t u : State} {p : Nat} {q : Pass} {x : Option Pass}

theorem State.PassLeaves.congr (l : s.PassLeaves t p q x) (passes : u.passes = t.passes) (zones : u.zones = t.zones) :
    s.PassLeaves u p q x := by
  obtain ⟨own, others, counts⟩ := l
  have pass : ∀ k, u.pass k = t.pass k := fun k => by rw [State.pass, passes]; rfl
  refine ⟨(pass p).trans own, fun k ne => (pass k).trans (others k ne), fun k => ?_⟩
  rw [State.zone, zones]
  exact counts k

theorem State.StationUnbound.congr (l : s.StationUnbound t q) (stations : u.stations = t.stations) (holds : u.holds = t.holds)
    (heads : u.heads = t.heads) (channels : u.channels = t.channels) : s.StationUnbound u q := by
  obtain ⟨free, bound⟩ := l
  refine ⟨fun none_ => ?_, fun i st own e => ?_⟩
  · rw [stations, holds, heads]
    exact free none_
  · obtain ⟨y, toward, becomes⟩ := bound i st own e
    exact ⟨y, toward, becomes.congr rfl rfl rfl stations holds heads channels⟩

/-- The pass of an unbinding vacated, its station side done (R103). -/
theorem State.PassLeaves.drop {y : Pass} (l : s.PassLeaves t p q (some y)) (out : passInside y.state = false) :
    s.PassLeaves { t with passes := Table.drop t.passes p } p q none := by
  obtain ⟨-, others, counts⟩ := l
  have pass : ∀ k, ({ t with passes := Table.drop t.passes p } : State).pass k = if k = p then none else t.pass k :=
    Table.get_drop t.passes p
  refine ⟨(pass p).trans (if_pos rfl), fun k ne => ((pass k).trans (if_neg ne)).trans (others k ne), fun k => ?_⟩
  have := counts k
  simp only [Option.map_some, Option.getD_some, out] at this
  exact this

end

/-- What a request that unbinds a pass leaves, whatever becomes of the pass's record, seen from the state it is taken from. -/
theorem State.Takes.unbound {s u : State} {type : Byte} {f : Req} (taken : s.Takes type f u) (sound : s.Sound) {p : Nat} {q : Pass}
    (held : u.pass p = some q) (passes : Table Pass) :
    let t := (State.reply { u.unbind p .void with passes := passes } type f.tag .ok .none).flush
    ∃ ns, s.StationUnbound t q ∧ t.linkOut = s.linkOut ∧ (∀ m ∈ ns, noticeClass m = .airtime)
      ∧ (u.reply type f.tag .ok .none).InBowl t ns := by
  have station := State.unbind_stationUnbound held .void (sound.takeRequest taken.1)
  obtain ⟨linkOut, discards, ns, produced, airtime⟩ := State.unbind_told held .void
  obtain ⟨f_stations, f_holds, f_heads, f_channels, -⟩ :=
    State.flush_reply_records { u.unbind p .void with passes := passes } type f.tag .ok .none
  have ends := State.InBowl.of_reply (w := { u.unbind p .void with passes := passes }) (type := type) (tag := f.tag) (code := .ok)
    (content := .none) taken.held (u.unbind_besideBowl p .void) discards produced
  obtain ⟨rest, rfl⟩ := taken.eq
  exact ⟨ns, station.congr f_stations f_holds f_heads f_channels, (State.flush_linkOut _).trans linkOut, airtime, ends⟩

/-- The lookup of a number whose pass has been dropped finds nothing (R86, R103). -/
theorem State.lookupPass_of_dropped {s t : State} (before : s.PassesInv) (after : t.PassesInv) {n : PassNumber} {p : Nat}
    (found : s.lookupPass n = some p) (gone : t.pass p = none) (others : ∀ k, k ≠ p → t.pass k = s.pass k) : t.lookupPass n = none := by
  cases e : t.lookupPass n with
  | none => rfl
  | some k =>
    obtain ⟨x, held, number⟩ := (State.lookupPass_eq_some after).1 e
    have ne : k ≠ p := by
      rintro rfl
      cases gone.symm.trans held
    have again := (State.lookupPass_eq_some before).2 ⟨x, (others k ne).symm.trans held, number⟩
    exact absurd (Option.some.inj (again.symm.trans found)) ne

theorem execPassVoid_settled {s u : State} {f : Req} {n : PassNumber} (sound : s.Sound) (taken : s.Takes 0x10 f u) :
    (u.lookupPass n = none → exec (.passVoid f n) s = .next (u.reply 0x10 f.tag .unknown .none))
      ∧ ∀ p q, u.lookupPass n = some p → u.pass p = some q →
        (q.state = .void → exec (.passVoid f n) s = .next (u.reply 0x10 f.tag .ok .none))
        ∧ ∃ t ns, exec (.passVoid f n) s = .next t
          ∧ s.PassLeaves t p q (some { q with state := .void, station := none }) ∧ s.StationUnbound t q
          ∧ t.linkOut = s.linkOut ∧ (∀ m ∈ ns, noticeClass m = .airtime) ∧ (u.reply 0x10 f.tag .ok .none).InBowl t ns := by
  refine ⟨fun unknown => congrArg Host.Outcome.next (taken.refused ?_), fun p q found held => ⟨fun void => ?_, ?_⟩⟩
  · simp only [unknown]
  · refine congrArg Host.Outcome.next (taken.answered ?_)
    simp only [found, State.unbind_void (sound.takeRequest taken.1) held void]
  · have leaves := State.unbind_passLeaves held .void (fun n => by cases n) rfl
    obtain ⟨ns, station, rest⟩ := taken.unbound sound held (u.unbind p .void).passes
    obtain ⟨-, -, -, -, f_passes, f_zones⟩ := (u.unbind p .void).flush_reply_records 0x10 f.tag .ok .none
    refine ⟨_, ns, congrArg Host.Outcome.next ((State.serve_of_taken taken.1 taken.2.1).trans (by simp only [found])), ?_, station,
      rest⟩
    obtain ⟨_, rfl⟩ := taken.eq
    exact leaves.congr f_passes f_zones

theorem execPassDrop_settled {s u : State} {f : Req} {n : PassNumber} (sound : s.Sound) (taken : s.Takes 0x11 f u) :
    (u.lookupPass n = none → exec (.passDrop f n) s = .next (u.reply 0x11 f.tag .unknown .none))
      ∧ ∀ p q, u.lookupPass n = some p → u.pass p = some q →
        ∃ t ns, exec (.passDrop f n) s = .next t ∧ s.PassLeaves t p q none ∧ s.StationUnbound t q
          ∧ t.lookupPass n = none
          ∧ t.linkOut = s.linkOut ∧ (∀ m ∈ ns, noticeClass m = .airtime) ∧ (u.reply 0x11 f.tag .ok .none).InBowl t ns := by
  refine ⟨fun unknown => congrArg Host.Outcome.next (taken.refused ?_), fun p q found held => ?_⟩
  · simp only [unknown]
  · have leaves := (State.unbind_passLeaves held .void (fun n => by cases n) rfl).drop rfl
    obtain ⟨ns, station, rest⟩ := taken.unbound sound held (Table.drop (u.unbind p .void).passes p)
    obtain ⟨-, -, -, -, f_passes, f_zones⟩ := State.flush_reply_records
      { u.unbind p .void with passes := Table.drop (u.unbind p .void).passes p } 0x11 f.tag .ok .none
    have executed : exec (.passDrop f n) s = .next (State.reply
        { u.unbind p .void with passes := Table.drop (u.unbind p .void).passes p } 0x11 f.tag .ok .none).flush :=
      congrArg Host.Outcome.next ((State.serve_of_taken taken.1 taken.2.1).trans (by simp only [found]))
    obtain ⟨-, inv, -⟩ := (sound.takeRequest taken.1).store
    obtain ⟨-, inv', -⟩ := exec_stored sound.store (.passDrop f n) _ executed
    have left := leaves.congr f_passes f_zones
    have gone := State.lookupPass_of_dropped inv inv' found left.1 left.2.1
    refine ⟨_, ns, executed, ?_, station, gone, rest⟩
    obtain ⟨_, rfl⟩ := taken.eq
    exact left

theorem execUnbindReq_settled {s : State} {h : HeadId} {i : Nat} {st : Station} (sound : s.Sound) (hears : s.Hears h)
    (member : s.Member h st.addr i st) :
    (st.pass = none → exec (.unbindReq h st.addr) s =
      .next { s with linkOut := s.linkOut ++ [(h, .unbindAnswer st.addr none .ok)] })
    ∧ ∀ p q, st.pass = some p → s.pass p = some q →
      ∃ t ns, exec (.unbindReq h st.addr) s = .next t
        ∧ s.PassLeaves t p q (some { q with state := .admitted, station := none }) ∧ s.StationUnbound t q
        ∧ t.linkOut = s.linkOut ++ [(h, .unbindAnswer st.addr (some q.number) .ok)]
        ∧ (∀ m ∈ ns, noticeClass m = .airtime) ∧ s.InBowl t ns := by
  have quiet := hears.2.2.2
  have executed : exec (.unbindReq h st.addr) s = (s.unbindRequest h i st).done := by
    show execUnbindReq h st.addr s = _
    rw [execUnbindReq, hears.handOn, member.forMember]
  obtain ⟨-, e, -, -⟩ := id member
  refine ⟨fun free => ?_, fun p q bound held => ?_⟩
  · rw [executed]
    simp only [State.unbindRequest, free]
    exact State.send_done quiet hears.reachable _
  · obtain ⟨-, back, seated⟩ := sound.binding
    have inside : passInside q.state = true := by
      obtain ⟨q', held', own⟩ := back i st p e bound
      cases held.symm.trans held'
      rw [(seated p q held).1 (by rw [own]; rfl)]
      rfl
    have leaves := State.unbind_passLeaves held .admitted (fun _ => inside) rfl
    have station := State.unbind_stationUnbound held .admitted sound
    obtain ⟨linkOut, discards, ns, produced, airtime⟩ := State.unbind_told held .admitted
    have reachable : ((s.unbind p .admitted).head h).reachable = true :=
      (State.reachable_of_view (s.unbind_headsView p .admitted) h).trans hears.reachable
    have shape : s.unbindRequest h i st = (s.unbind p .admitted).send h (.unbindAnswer st.addr (some q.number) .ok) := by
      simp only [State.unbindRequest, bound, held, Option.map_some]
    rw [shape, State.send_of_reachable reachable, linkOut] at executed
    refine ⟨_, ns, executed, leaves.congr (State.flush_passes _) (State.flush_zones _),
      station.congr (State.flush_stations _) (State.flush_holds _) (State.flush_heads _) (State.flush_channels _),
      State.flush_linkOut _, airtime, ?_⟩
    exact .of_flush quiet (s.unbind_besideBowl p .admitted) discards produced

/-- Settles O44: each request undoes the binding by the same work, and then only the pass's record differs. -/
theorem voidDropAndUnbindUndoABinding : Obligations.VoidDropAndUnbindUndoABinding :=
  ⟨fun _ _ _ _ sound => ⟨execPassVoid_settled sound, execPassDrop_settled sound⟩,
    fun _ _ _ _ sound hears member => execUnbindReq_settled sound hears member⟩

end Sys2Proof.Machine
